-- ==== Sys2Proof/Word.lean ====
section
/-! DEFINITION. The words of the VZ-12 and their plainest arithmetic (00_scope R5). -/

namespace Sys2Proof

/-- One byte of memory. -/
abbrev Byte := BitVec 8

/-- A scalar register or control register (06_scalar R124). -/
abbrev Word := BitVec 64

/-- One lane of a sheet (07_sheet R152). -/
abbrev Lane := BitVec 32

/-- A bundle number (02_bundle R17). -/
abbrev BundleNo := BitVec 16

/-- A path mask: bit 0 = leaf A to bit 4 = leaf E (02_bundle R27). -/
abbrev Path := BitVec 5

/-- A scalar register number, x0 to x63. -/
abbrev XReg := BitVec 6

/-- A handle number, h0 to h31. -/
abbrev HReg := BitVec 5

/-- A flag index, f0 to f4095 (12_sync R275). -/
abbrev FlagIx := BitVec 12

/-- A partition or chain id, 0 to 15 (09_partitions R209). -/
abbrev PartId := BitVec 4

end Sys2Proof
end

