-- ==== Sys2Proof/Syntax.lean ====
section
/-! DEFINITION. The syntax: one constructor of `Instr` for every row of the opcode table. Slot and CTL ops
carry the operands of their encodings (02_bundle R18 to R46 and each instruction chapter). An event has no
operand of its own: what the outside world or the schedule supplies with it (which unit acts, the data that
arrives) is an `Arg`, which the state holds while the event takes place. -/

namespace Sys2Proof

/-- Element types (02_bundle R35). -/
inductive ETy
  | f32 | bf16 | f16 | e4m3 | e5m2 | e2m1 | i32 | n32 | i16 | n16 | i8 | n8 | b32
  deriving DecidableEq, Repr

/-- Rounding codes (02_bundle R35). `dyn` is the mode held in fpm. -/
inductive Rnd
  | rne | rtz | rup | rdn | sr | dyn
  deriving DecidableEq, Repr

/-- Addressing modes of the LD, ST and CP slots (02_bundle R40, R43). -/
inductive Mode
  | spad | handle | face
  deriving DecidableEq, Repr

/-- Scopes (15_ordering R345). -/
inductive Scope
  | ctx | pkg | pod | sys
  deriving DecidableEq, Repr

/-- The operands of a V-slot op (02_bundle R34). The sheet operands a, b, c keep their port and code (R36). -/
structure VOp where
  path : Path
  ty   : ETy
  vd   : BitVec 6
  a    : BitVec 9
  b    : BitVec 9
  c    : BitVec 9
  mask : BitVec 4
  mz   : Bool
  rnd  : Rnd
  sat  : Bool
  xb   : XReg
  imm  : BitVec 30
  deriving DecidableEq, Repr

/-- The operands every LD and ST op shares (02_bundle R40). -/
structure MemOp where
  path  : Path
  mode  : Mode
  reg   : BitVec 6
  base  : XReg
  hnd   : HReg
  pitch : XReg
  mask  : BitVec 4
  ofs   : BitVec 22
  deriving DecidableEq, Repr

/-- The operands of AMO and AMOF (12_sync R292). -/
structure AmoOp where
  aop : BitVec 5
  aw  : BitVec 3
  ord : BitVec 2
  scp : Scope
  xr  : XReg
  xc  : XReg
  deriving DecidableEq, Repr

/-- The operands of CMM and CMMP (02_bundle R41). -/
structure CmmOp where
  path  : Path
  part  : PartId
  mm1   : BitVec 11
  nm1   : BitVec 11
  k     : BitVec 16
  lmask : BitVec 12
  ain   : BitVec 4
  bin   : BitVec 4
  fmt   : BitVec 4
  init  : Bool
  acc   : Bool
  t     : Bool
  keepa : Bool
  keepb : Bool
  cflag : FlagIx
  deriving DecidableEq, Repr

/-- The operands of CDRN (08_cube R200). -/
structure CdrnOp where
  path  : Path
  part  : PartId
  mm1   : BitVec 11
  nm1   : BitVec 11
  dlay  : BitVec 4
  east  : Bool
  dfmt  : BitVec 4
  rnd   : BitVec 3
  sat   : Bool
  shift : BitVec 5
  ring  : BitVec 3
  acc   : Bool
  cflag : FlagIx
  deriving DecidableEq, Repr

/-- The ring configuration of CRING, bits 78:27 (08_cube R190). -/
structure RingCfg where
  ring  : BitVec 3
  face  : BitVec 2
  plane : Bool
  gp    : BitVec 2
  mx    : Bool
  slots : BitVec 8
  sk    : BitVec 12
  base  : BitVec 11
  lmask : BitVec 12
  deriving DecidableEq, Repr

/-- The operands of CPART (09_partitions R220). -/
structure CpartOp where
  path  : Path
  part  : PartId
  srcm  : BitVec 16
  na    : PartId
  af    : BitVec 4
  al    : BitVec 4
  aq    : BitVec 4
  bv    : Bool
  nb    : PartId
  bf    : BitVec 4
  bl    : BitVec 4
  bq    : BitVec 4
  dsc   : Bool
  cflag : FlagIx
  deriving DecidableEq, Repr

/-- The operands every copy of the CP slot shares (02_bundle R43). -/
structure CpOp where
  path   : Path
  ch     : BitVec 4
  layout : BitVec 16
  smode  : Mode
  shnd   : HReg
  sx     : XReg
  dmode  : Mode
  dhnd   : HReg
  dx     : XReg
  cflag  : FlagIx
  rflag  : Bool
  bflag  : FlagIx
  deriving DecidableEq, Repr

/-- The two scalars and the result of the SY ops that share the layout of 14_fabric R339 and 16_system R374. -/
structure SyOp where
  path : Path
  xa   : XReg
  xb   : XReg
  xd   : XReg
  deriving DecidableEq, Repr

/-- A message of the lease agents of two packages (14_fabric R329 to R336), in one cell: a list of granules is cut into
parts, the `last` of which ends it, and a granule moves block by block, with the marked halves of each. -/
inductive LeaseMsg
  | offer (lent : Nat) (gcnt : Nat) (mirror : Bool) (base : Nat) (bflag : FlagIx)
  | offerAnswer (lent : Nat) (borrowed : Option Nat)
  | acceptance (lent : Nat) (accept : Bool) (fbase : Nat)
  | zeroed (borrowed : Nat) (granule : Option Nat)
  | zeroGranule (lent : Nat) (granule : Nat)
  | recallRequest (lent : Nat)
  | recall (borrowed : Nat)
  | recallAck (lent : Nat)
  | recallRefused (borrowed : Nat) (lent : Nat)
  | discards (lent : Nat) (granules : List Nat) (last : Bool)
  | moved (borrowed granule block : Nat) (bytes : List Byte) (poi : List Nat)
  | done (borrowed : Nat) (unmoved : List Nat) (last : Bool)
  | doneAck (lent : Nat)
  | reserve (cls slots : Nat)     -- what a reservation cell asks for: slots for the flow of a class (14_fabric R321)
  deriving DecidableEq, Repr

/-- The cell types (14_fabric R316), and the reservation cells of R319. -/
inductive CellType
  | write | readReq | readReply | atomicReq | atomicReply | ack | error | flagWrite | lease | post | resv
  deriving DecidableEq, Repr

/-- What an atomic does at its home: operation, width, operand, compare value (12_sync R293). -/
structure AtomicArg where
  aop : BitVec 5
  aw  : BitVec 3
  v   : Word
  c   : Word
  deriving DecidableEq, Repr

/-- A cell of the fabric (14_fabric R316): the header fields, and the payload as the enabled bytes by address. -/
structure Cell where
  dst   : BitVec 10
  src   : BitVec 10
  cls   : BitVec 2
  type  : CellType
  asid  : BitVec 13
  addr  : Nat
  len   : Nat
  tag   : BitVec 12
  poi   : List Nat
  bytes : List (Nat × Byte)
  atom  : Option AtomicArg
  lease : Option LeaseMsg
  deriving DecidableEq, Repr

/-- A fabric frame (14_fabric R317, R318, R320): its control slot's sequence number, acknowledgement and class totals, its
cells, and its CRC. -/
structure Frame where
  crc   : BitVec 32
  seq   : BitVec 16
  ackd  : BitVec 16
  sent  : List (BitVec 32)
  freed : List (BitVec 32)
  cells : List Cell
  deriving DecidableEq, Repr

/-- A host request over the Gradric link (18_platform R394). -/
inductive HostReq
  | load (addr len : Nat)
  | store (addr : Nat) (bytes : List Byte)
  | atomic (addr : Nat) (arg : AtomicArg)
  deriving DecidableEq, Repr

/-- A link frame as it arrives (18_platform R393). -/
structure LinkFrame where
  crc     : BitVec 32
  seq     : BitVec 16
  ackd    : BitVec 16
  reqs    : List HostReq
  deriving DecidableEq, Repr

/-- A steward image as the adapter supplies it: the bytes of a VZO container (03_assembly R64, 18_platform R397). -/
structure StewImage where
  bytes : List Byte
  deriving DecidableEq, Repr

/-- The units with a readiness bit (18_platform R398, R399). -/
inductive PartUnit
  | port (k : Nat) | region (g : Nat) | block (b : Nat) | channel (k : Nat) | hbm (k : Nat) | cxl (k : Nat)
  | layer (l : Nat) | lanes (n : Nat) | cluster (bank k : Nat) | pseudo (stack k : Nat)
  deriving DecidableEq, Repr

/-- Lines of the weight banks that are read with wrong symbols: of each, the number of the symbol, 64 to 69 being the check
bytes, and what it differs by (18_platform R402). -/
abbrev BankErrs := List (Nat × List (Nat × Byte))

/-- How the data of an access or copy arrives (10_memory R237, 18_platform R400): from the home, with the lines found
uncorrectable; from the host with its bytes, or with none where it acknowledges; or, for what a copy merges into lines of
the weight banks, with their wrong symbols. -/
inductive Arrival
  | memory (uncorrectable : List Nat)
  | host (bytes : List Byte)
  | bank (lines : BankErrs)
  deriving DecidableEq, Repr

/-- The soft errors met by a compute step (08_cube R204): uncorrectable lines of face slices (scratchpad-space
addresses), wrong symbols of bank lines, and parity errors by accumulator, layer, quadrant and row. -/
structure StepErrs where
  face   : List Nat
  bank   : BankErrs
  parity : List Nat
  deriving DecidableEq, Repr

/-- What is supplied with an event: which unit it concerns, and data from outside the package. -/
inductive Arg
  | none
  | id (n : Nat)
  | two (n k : Nat)
  | arrival (id : Nat) (how : Arrival)
  | step (pid : Nat) (errs : StepErrs)
  | granted (id : Nat) (ok : Bool)
  | frame (port : Nat) (f : Frame)
  | link (f : LinkFrame)
  | cones (readings : List (BitVec 12))
  | image (img : StewImage) (failed : List Nat) (bad : List PartUnit)
  | unit (u : PartUnit)
  | test (u : PartUnit) (pass : Bool) (lost : List Nat)
  | bad (lines : List Nat)
  | nonce (bytes : List Byte)
  | patrol (line : Nat) (errs : List (Nat × Byte))
  deriving DecidableEq, Repr

/-- One constructor for every row of the opcode table: the slot and CTL ops in the table's order, then the events
in the table's order. -/
inductive Instr
  | add (p : Path) (xd xa xb : XReg)
  | sub (p : Path) (xd xa xb : XReg)
  | addi (p : Path) (xd xa : XReg) (imm : BitVec 33)
  | mul (p : Path) (xd xa xb : XReg)
  | mulh (p : Path) (xd xa xb : XReg)
  | mulhu (p : Path) (xd xa xb : XReg)
  | madd (p : Path) (xd xa xb xc : XReg)
  | div (p : Path) (xd xa xb : XReg)
  | divu (p : Path) (xd xa xb : XReg)
  | rem (p : Path) (xd xa xb : XReg)
  | remu (p : Path) (xd xa xb : XReg)
  | and (p : Path) (xd xa xb : XReg)
  | or (p : Path) (xd xa xb : XReg)
  | xor (p : Path) (xd xa xb : XReg)
  | andn (p : Path) (xd xa xb : XReg)
  | andi (p : Path) (xd xa : XReg) (imm : BitVec 33)
  | ori (p : Path) (xd xa : XReg) (imm : BitVec 33)
  | xori (p : Path) (xd xa : XReg) (imm : BitVec 33)
  | shl (p : Path) (xd xa xb : XReg)
  | shr (p : Path) (xd xa xb : XReg)
  | sra (p : Path) (xd xa xb : XReg)
  | shli (p : Path) (xd xa : XReg) (amt : BitVec 6)
  | shri (p : Path) (xd xa : XReg) (amt : BitVec 6)
  | srai (p : Path) (xd xa : XReg) (amt : BitVec 6)
  | ror (p : Path) (xd xa xb : XReg)
  | rori (p : Path) (xd xa : XReg) (amt : BitVec 6)
  | clz (p : Path) (xd xa : XReg)
  | ctz (p : Path) (xd xa : XReg)
  | popc (p : Path) (xd xa : XReg)
  | bext (p : Path) (xd xa : XReg) (sx : Bool) (len : BitVec 7) (pos : BitVec 6)
  | bins (p : Path) (xd xa xb : XReg) (len : BitVec 7) (pos : BitVec 6)
  | brev (p : Path) (xd xa : XReg)
  | min (p : Path) (xd xa xb : XReg)
  | max (p : Path) (xd xa xb : XReg)
  | minu (p : Path) (xd xa xb : XReg)
  | maxu (p : Path) (xd xa xb : XReg)
  | sel (p : Path) (xd : XReg) (fix : FlagIx) (xa xb : XReg)
  | abs (p : Path) (xd xa : XReg)
  | movi (p : Path) (xd : XReg) (imm : BitVec 33)
  | movhi (p : Path) (xd xa : XReg) (imm : BitVec 32)
  | cmp (p : Path) (cond : BitVec 4) (fix : FlagIx) (xa xb : XReg)
  | cmpi (p : Path) (cond : BitVec 4) (fix : FlagIx) (xa : XReg) (cimm : BitVec 17)
  | lix (p : Path) (xd : XReg) (d : BitVec 3)
  | lcnt (p : Path) (xd : XReg) (d : BitVec 3)
  | fadds (p : Path) (xd xa xb : XReg) (rnd : Rnd)
  | fsubs (p : Path) (xd xa xb : XReg) (rnd : Rnd)
  | fmuls (p : Path) (xd xa xb : XReg) (rnd : Rnd)
  | ffmas (p : Path) (xd xa xb xc : XReg) (rnd : Rnd)
  | fmins (p : Path) (xd xa xb : XReg)
  | fmaxs (p : Path) (xd xa xb : XReg)
  | fcmps (p : Path) (cond : BitVec 4) (fix : FlagIx) (xa xb : XReg)
  | fcvtis (p : Path) (xd xa : XReg) (ity : BitVec 4) (rnd : Rnd)
  | fcvtsi (p : Path) (xd xa : XReg) (ity : BitVec 4) (sat : Bool) (rnd : Rnd)
  | frcps (p : Path) (xd xa : XReg)
  | xlt (p : Path) (h : HReg) (xa : XReg)
  | xltw (p : Path) (h : HReg) (xa : XReg)
  | xltwG (p : Path) (h : HReg) (xa xb : XReg)
  | hinv (p : Path) (all : Bool) (h : HReg)
  | hrd (p : Path) (xd : XReg) (h : HReg) (part : Bool)
  | hchk (p : Path) (fix : FlagIx) (h : HReg) (w : Bool)
  | crd (p : Path) (xd : XReg) (creg : BitVec 12)
  | cwr (p : Path) (creg : BitVec 12) (xa : XReg)
  | fpxWrite (p : Path) (xa : XReg)
  | basidWrite (p : Path) (xa : XReg)
  | ltbWrite (p : Path) (xa : XReg)
  | qmapWrite (p : Path) (n : BitVec 6) (xa : XReg)
  | isldWrite (p : Path) (xa : XReg)
  | egrantWrite (p : Path) (xa : XReg)
  | vadd (o : VOp)
  | vsub (o : VOp)
  | vmul (o : VOp)
  | vfma (o : VOp)
  | vfms (o : VOp)
  | vfnma (o : VOp)
  | vmin (o : VOp)
  | vmax (o : VOp)
  | vabs (o : VOp)
  | vneg (o : VOp)
  | vclamp (o : VOp)
  | vdot2 (o : VOp)
  | vdot4 (o : VOp)
  | vand (o : VOp)
  | vor (o : VOp)
  | vxor (o : VOp)
  | vnot (o : VOp)
  | vshl (o : VOp)
  | vshr (o : VOp)
  | vsra (o : VOp)
  | vrshr (o : VOp)
  | vmulh (o : VOp)
  | vmov (o : VOp)
  | vfill (o : VOp)
  | vidx (o : VOp)
  | vcmp (o : VOp)
  | vsel (o : VOp)
  | mset (o : VOp)
  | mlog (o : VOp)
  | mpopc (o : VOp)
  | vcvt (o : VOp)
  | vpack (o : VOp)
  | vunpk (o : VOp)
  | vqnt (o : VOp)
  | vdqnt (o : VOp)
  | vrcp (o : VOp)
  | vrsq (o : VOp)
  | vexp2 (o : VOp)
  | vlog2 (o : VOp)
  | vtanh (o : VOp)
  | vredr (o : VOp)
  | vredc (o : VOp)
  | vscanr (o : VOp)
  | vmvr (o : VOp)
  | vmvc (o : VOp)
  | vperm (o : VOp)
  | vcswp (o : VOp)
  | vtrb (o : VOp)
  | lds (m : MemOp) (mz : Bool)
  | ldr (m : MemOp) (row : BitVec 6)
  | lds2 (m : MemOp) (j : BitVec 6) (hb : HReg) (xb2 : XReg) (mz : Bool)
  | ldx (m : MemOp) (wid : BitVec 3)
  | ldb (m : MemOp) (mz : Bool)
  | ldg (m : MemOp) (idx : BitVec 5) (mz : Bool)
  | ldm (m : MemOp)
  | sts (m : MemOp) (dport : BitVec 3)
  | str (m : MemOp) (dport : BitVec 3) (row : BitVec 6)
  | sts2 (m : MemOp) (dport : BitVec 3) (j : BitVec 6) (hb : HReg) (xb2 : XReg)
  | stx (m : MemOp) (wid : BitVec 3)
  | stn (m : MemOp) (dport : BitVec 3) (nhi : Bool)
  | stsc (m : MemOp) (dport : BitVec 3) (idx : BitVec 5)
  | stm (m : MemOp)
  | amo (m : MemOp) (a : AmoOp)
  | amof (m : MemOp) (a : AmoOp)
  | amos (m : MemOp) (dport : BitVec 3) (aop : BitVec 4) (aw : BitVec 3) (scp : Scope) (idx : BitVec 5)
  | cmm (c : CmmOp)
  | cmmp (c : CmmOp)
  | czro (p : Path) (part : PartId) (lmask : BitVec 12) (acc both : Bool)
  | cdrn (c : CdrnOp)
  | cswp (p : Path) (part : PartId) (n w : Bool)
  | ccur (p : Path) (part : PartId) (north : Bool) (cur : BitVec 16)
  | cring (p : Path) (part : PartId) (r : RingCfg)
  | cwait (p : Path) (part : PartId) (f : FlagIx)
  | csig (p : Path) (part : PartId) (f : FlagIx)
  | crail (p : Path) (part : PartId) (hi : Bool)
  | cpart (c : CpartOp)
  | cjoin (p : Path) (part : PartId) (shape : BitVec 2) (m0 m1 m2 m3 : PartId) (dsc : Bool) (cflag : FlagIx)
  | csplit (p : Path) (part : PartId) (dsc : Bool) (cflag : FlagIx)
  | cfree (p : Path) (part : PartId) (dsc : Bool) (cflag : FlagIx)
  | csusp (p : Path) (part : PartId) (cflag : FlagIx)
  | cresm (p : Path) (part : PartId)
  | cqry (p : Path) (part : PartId) (ring : BitVec 3) (qaddr : BitVec 24) (now : Bool) (cflag : FlagIx)
  | cpy (c : CpOp) (cadd : Bool)
  | cpys (c : CpOp) (cadd : Bool) (out : Bool) (str : BitVec 2)
  | cpyw (c : CpOp) (cadd : Bool) (wlay : BitVec 4) (wnorth : Bool) (wpart : PartId)
  | cpyr (c : CpOp) (cadd : Bool) (rring : BitVec 3) (rpart : PartId)
  | cpdrn (p : Path) (ch : BitVec 4) (cflag : FlagIx)
  | cprd (p : Path) (ch : BitVec 4) (dx : XReg) (cflag : FlagIx)
  | cpub (p : Path) (ch : BitVec 4) (str : BitVec 2) (cflag : FlagIx)
  | fset (p : Path) (fix : FlagIx) (pod : Bool)
  | fclr (p : Path) (fix : FlagIx)
  | fwait (p : Path) (fix : FlagIx)
  | fwaitGe (p : Path) (fix : FlagIx) (xs : XReg)
  | fwany (p : Path) (fix : FlagIx) (xs : XReg)
  | faddc (p : Path) (fix : FlagIx) (xs : XReg) (pod : Bool)
  | fwr (p : Path) (fix : FlagIx) (xs : XReg) (pod : Bool)
  | binit (p : Path) (fix : FlagIx) (xs : XReg)
  | barv (p : Path) (fix : FlagIx) (xs : XReg) (pod : Bool)
  | bexp (p : Path) (fix : FlagIx) (xs : XReg) (arv : Bool)
  | bwait (p : Path) (fix : FlagIx) (xd : XReg)
  | fence (p : Path) (kind : BitVec 4) (scp : Scope)
  | radv (p : Path) (part : PartId) (ring : BitVec 3) (ns : BitVec 8)
  | rwait (p : Path) (part : PartId) (ring : BitVec 3) (ns : BitVec 8)
  | post (p : Path) (xq xc xr : XReg)
  | evpop (p : Path) (xa xd : XReg)
  | loffer (p : Path) (xa xd : XReg)
  | lacc (p : Path) (xa xd : XReg)
  | lrcl (o : SyOp)
  | ldisc (o : SyOp)
  | lret (p : Path) (xa xd : XReg) (drop : Bool)
  | lqry (o : SyOp)
  | frsv (p : Path) (xa xd : XReg)
  | frel (p : Path) (xa : XReg)
  | wset (p : Path) (xa xd : XReg)
  | cseat (o : SyOp)
  | cuns (p : Path) (xa xd : XReg)
  | crsm (p : Path) (xa xd : XReg)
  | crsmAt (o : SyOp)
  | ckil (p : Path) (xa xd : XReg)
  | csav (o : SyOp)
  | crst (o : SyOp)
  | cnop
  | loop (p : Path) (exit : BundleNo) (rot : Bool) (count : BitVec 23)
  | loopx (p : Path) (exit : BundleNo) (rot : Bool) (xa : XReg)
  | lend
  | lbrk (tgt : BundleNo) (depth : BitVec 3)
  | call (tgt : BundleNo)
  | callx (xa : XReg)
  | ret
  | jmpx (xa : XReg)
  | ctlEnd (flag : FlagIx) (xa : XReg)
  | yield (p : Path)
  | clus (p : Path) (cmask : BitVec 4)
  | rrot (p : Path) (set : Bool) (vamt : BitVec 4) (mamt : BitVec 3)
  | trapc (p : Path) (tcode : BitVec 16)
  -- events
  | bundleIssue
  | resultLands
  | longLoadArrival
  | releaseLands
  | seatingComplete
  | unseatingComplete
  | unseatAtPreEmptionPoint
  | park
  | preEmptionDeadline
  | clusterWakeComplete
  | bankRelease
  | eventRecordPush
  | translationWalkComplete
  | reTranslation
  | amosEnd
  | computeOpStart
  | computeStepEntry
  | computeOpComplete
  | cdrnStart
  | cdrnComplete
  | cswpStart
  | ccurStart
  | cringStart
  | cwaitStart
  | csigStart
  | crailStart
  | cqryRecordWritten
  | rendezvousArrival
  | reshapeTakesEffect
  | contextIdsFreed
  | layoutRecordArrival
  | apertureCopyStart
  | copyStart
  | streamSheetPoppable
  | copyComplete
  | copyError
  | cpdrnComplete
  | cprdRecordWritten
  | postAtHome
  | postReply
  | windowChangeApplies
  | contextSaveComplete
  | contextRestoreComplete
  | cardAccept
  | acceptanceTimeout
  | dispatch
  | pendingPriorityHold
  | schedulerSeat
  | jobEnd
  | queueRotation
  | frameReceived
  | linkRetraining
  | writeCell
  | readRequest
  | readReply
  | atomicRequest
  | atomicReply
  | acknowledgement
  | errorReply
  | flagWriteCell
  | postCell
  | reservationReply
  | requestTimeout
  | leaseOffer
  | leaseAcceptance
  | zeroingConfirmation
  | recallRequest
  | recall
  | recallAcknowledgement
  | discardSet
  | recallDone
  | doneAcknowledgement
  | recallDeadline
  | ownershipFlip
  | hostFlipRequest
  | flipBackToHost
  | hostRequest
  | linkFrame
  | linkDownTimeout
  | droopBegin
  | droopClear
  | hopComplete
  | holdLowEnd
  | coneSample
  | damperRecompute
  | damperPeriod
  | coldStart
  | unitReady
  | selfTestEnd
  | patrolInterval
  | warmReset
  | instructionStoreLoadComplete
  | attestationRequest
  | storePerformed
  | frameSend
  | hostLinkRetraining
  | leaseOfferAnswer
  | recallRefused
  | granuleZeroingRequest
  | fallbackZeroingComplete
  | streamSheetWritten
  | patrolRead
  deriving DecidableEq, Repr

end Sys2Proof
end

