-- ==== Sys2Proof/Config.lean ====
section
/-! DEFINITION. What the spec leaves to the package or leaves open. The named constants are design choices of the
assumption log. The constants without a body are free values: nothing in Lean fixes them, so a statement that
mentions one holds whatever it is. -/

namespace Sys2Proof.Config

/-- What a byte of memory that nothing has written reads as. DESIGN CHOICE 0, unsafe (log 3). -/
def memDefault : Byte := 0

/-- Bytes of a line found uncorrectable (18_platform R400 gives none), and of a card overwritten (13_jobs R298): by use and
place. Free value (log 12, log 59). -/
opaque lostByte : Nat → Nat → Byte

/-- Accumulator bits after a parity error (08_cube R204 gives none). Free value (log 12). -/
opaque lostAcc : Nat → Nat → Lane

/-- Which line a read of five or more wrong symbols returns (18_platform R402: no promise). Free value (log 12). -/
opaque rsMiss : Nat → Option (List Byte)

/-- Whether a frame of this package's reserved local addresses (10_memory R232), mapped with class 3, is a page of host
memory: the spec names host pages and gives them no frames. Free value (log 17). -/
opaque hostFrame : Nat → Bool

/-- The HSS public key fused in the package (18_platform R406): its number of levels and the public key of the first. Free
value (log 13). -/
opaque fusedKey : List Byte

/-- The fused minimum security version (18_platform R406). Free value (log 13). -/
opaque fusedMin : BitVec 32

/-- The signature the attestation logic releases for a report (18_platform R407). Free value (log 13). -/
opaque attestSignature : Nat → List Byte → List Byte

/-- The bytes of a frame's control slot, whose layout 14_fabric R317 does not give. Free value (log 54). -/
opaque controlSlot : (seq ackd : BitVec 16) → (sent freed : List (BitVec 32)) → List Byte

/-- The bytes of an idle cell (14_fabric R317). Free value (log 54). -/
opaque idleCell : List Byte

/-- The payload of an atomic's request (14_fabric R316 gives no layout). Free value (log 54). -/
opaque atomPayload : AtomicArg → List Byte

/-- The payload of a lease message (14_fabric R316 gives no layout). Free value (log 54). -/
opaque leasePayload : LeaseMsg → List Byte

/-- The bytes of a link frame from the host but for its CRC (18_platform R393 gives no layout). Free value (log 54). -/
opaque linkBytes : (seq ackd : BitVec 16) → List HostReq → List Byte

/-- The bytes of the header of a link frame from this package but for its CRC (18_platform R393 gives no layout). Free value
(log 54). -/
opaque linkHeader : (seq ackd : BitVec 16) → List Byte

/-- What a cone reads (17_power R387): by beat and cone, where no sample is supplied. Free value (log 61). -/
opaque coneReading : Nat → Nat → BitVec 12

/-- The pseudo-channel of its stack that holds a line of HBM: the stack's controller chooses it (10_memory R232). Free value
(log 114). -/
opaque pseudoChannel : Nat → Nat

/-- Whether a self-test passes that ends at its time with no result supplied, and the lines that a failed pseudo-channel can no
longer give: by use (18_platform R400). Free values (log 114). -/
opaque testPasses : Nat → Bool

opaque linesLost : Nat → List Nat

/-- A bit pattern the spec leaves open, for the n-th use. Free value (log 14). -/
opaque freeWord : Nat → Word

end Sys2Proof.Config
end

