-- ==== Sys2Proof/Machine/Sha256.lean ====
section
/-! DEFINITION. SHA-256, which 18_platform R407 names for the hash of the steward image. Its constants are the first 32
bits behind the point of square and cube roots of the first primes. -/

namespace Sys2Proof.Machine

/-- The first 64 primes. -/
def hashPrimes : List Nat := (List.range 312).filter fun p => decide (2 ≤ p) && (List.range p).all fun d => d < 2 || p % d != 0

/-- The largest `r` of so many more bits with `r ^ e` at most `n`. -/
def rootOf (e n : Nat) : Nat → Nat → Nat
  | 0, r => r
  | k + 1, r => rootOf e n k (if (r + 2 ^ k) ^ e ≤ n then r + 2 ^ k else r)

/-- 32 bits of the `e`-th root of `p` behind its point. -/
def rootFraction (e p : Nat) : BitVec 32 := BitVec.ofNat 32 (rootOf e (p * 2 ^ (32 * e)) 36 0)

/-- Three views of a word, two of them rotated, summed without carry. -/
def threeViews (x : BitVec 32) (i j : Nat) (third : BitVec 32) : BitVec 32 := (x.rotateRight i ^^^ x.rotateRight j) ^^^ third

/-- The hash in progress: the last four values of its two sequences, newest first. -/
structure HashSeq where
  left  : List (BitVec 32)
  right : List (BitVec 32)
  deriving DecidableEq, Repr

/-- The next values of both sequences, for one constant plus one word of the schedule. -/
def HashSeq.next (s : HashSeq) (kw : BitVec 32) : HashSeq :=
  let x (n : Nat) : BitVec 32 := s.left.getD n 0
  let y (n : Nat) : BitVec 32 := s.right.getD n 0
  let choice := y 2 ^^^ (y 0 &&& (y 1 ^^^ y 2))
  let most := (x 0 &&& x 1) ||| (x 2 &&& (x 0 ||| x 1))
  let t := kw + y 3 + choice + threeViews (y 0) 6 11 ((y 0).rotateRight 25)
  ⟨(t + most + threeViews (x 0) 2 13 ((x 0).rotateRight 22)) :: s.left.take 3, (x 3 + t) :: s.right.take 3⟩

/-- The schedule grows by one word. -/
def growSchedule (w : List (BitVec 32)) : List (BitVec 32) :=
  let back (n : Nat) : BitVec 32 := w.getD (w.length - n) 0
  w ++ [back 16 + back 7 + threeViews (back 15) 7 18 (back 15 >>> 3) + threeViews (back 2) 17 19 (back 2 >>> 10)]

/-- The words of a block, most significant byte first. -/
def blockWords (blk : List Byte) : List (BitVec 32) :=
  (List.range 16).map fun i => BitVec.ofNat 32 (((blk.drop (4 * i)).take 4).foldl (fun n b => 256 * n + b.toNat) 0)

/-- The hash after one more block of 64 bytes. -/
def HashSeq.block (s : HashSeq) (blk : List Byte) : HashSeq :=
  let w := (List.range 48).foldl (fun w _ => growSchedule w) (blockWords blk)
  let e := (w.zip hashPrimes).foldl (fun t x => t.next (x.1 + rootFraction 3 x.2)) s
  ⟨List.zipWith (· + ·) s.left e.left, List.zipWith (· + ·) s.right e.right⟩

/-- The hash before the first block. -/
def HashSeq.start : HashSeq :=
  let h := (hashPrimes.take 8).map (rootFraction 2)
  ⟨h.take 4, h.drop 4⟩

/-- The bytes of a number, most significant first. -/
def bigEndian (n v : Nat) : List Byte := (List.range n).map fun i => BitVec.ofNat 8 (v / 256 ^ (n - 1 - i))

/-- SHA-256 of some bytes. -/
def sha256 (bs : List Byte) : List Byte :=
  let blocks := (bs.length + 8) / 64 + 1
  let padded := bs ++ 0x80 :: (List.replicate (64 * blocks - bs.length - 9) 0 ++ bigEndian 8 (8 * bs.length))
  let e := (List.range blocks).foldl (fun s k => s.block ((padded.drop (64 * k)).take 64)) HashSeq.start
  (e.left ++ e.right).flatMap fun w => bigEndian 4 w.toNat

end Sys2Proof.Machine
end

