-- ==== Sys2Proof/Machine/Hss.lean ====
section
/-! DEFINITION. The signature of a steward image: HSS with two levels of LMS over LM-OTS, as RFC 8554 defines them, of the
parameter types that 18_platform R406 names. What the RFC says is PRESUMED (log 13). -/

namespace Sys2Proof.Machine

/-- A number of a signature, most significant byte first. -/
def bigAt (bs : List Byte) (ofs n : Nat) : Nat := ((bs.drop ofs).take n).foldl (fun v b => 256 * v + b.toNat) 0

/-- Some bytes of a signature. -/
def bytesFrom (bs : List Byte) (ofs n : Nat) : List Byte := (bs.drop ofs).take n

/-- The numbers of the types that R406 names: LMOTS_SHA256_N32_W8, and LMS_SHA256_M32 of heights 10 and 15. -/
def typeOts : Nat := 4

def typeH10 : Nat := 6

def typeH15 : Nat := 7

/-- The hash chains of a one-time signature. -/
def otsChains : Nat := 34

/-- Bytes of a one-time signature: its type, its randomiser and its chains. -/
def otsBytes : Nat := 4 + 32 + 32 * otsChains

/-- Bytes of an LMS signature in a tree of a height: its leaf's number, the one-time signature, its type and its path. -/
def lmsBytes (height : Nat) : Nat := 4 + otsBytes + 4 + 32 * height

/-- Bytes of an LMS public key: its types, its identifier and its root. -/
def lmsKeyBytes : Nat := 4 + 4 + 16 + 32

/-- The digits of a message's hash, and of their checksum. -/
def otsDigits (q : List Byte) : List Nat :=
  let sum := q.foldl (fun n b => n + (255 - b.toNat)) 0
  (q ++ bigEndian 2 sum).map (·.toNat)

/-- What stands before every hash of leaf `q` of the tree `id`. -/
def leafTag (id : List Byte) (q : Nat) : List Byte := id ++ bigEndian 4 q

/-- A chain from its value at `from_` to its end, of `n` more hashes. -/
def chainEnd (id : List Byte) (q i : Nat) : (from_ n : Nat) → List Byte → List Byte
  | _, 0, v => v
  | j, n + 1, v => chainEnd id q i (j + 1) n (sha256 (leafTag id q ++ bigEndian 2 i ++ bigEndian 1 j ++ v))

/-- The one-time public key that a signature `ots` of a message leads to. -/
def otsKey (id : List Byte) (q : Nat) (msg ots : List Byte) : List Byte :=
  let digest := sha256 (leafTag id q ++ bigEndian 2 0x8181 ++ bytesFrom ots 4 32 ++ msg)
  let ends := (otsDigits digest).zipIdx.flatMap fun x => chainEnd id q x.2 x.1 (255 - x.1) (bytesFrom ots (36 + 32 * x.2) 32)
  sha256 (leafTag id q ++ bigEndian 2 0x8080 ++ ends)

/-- The root that a leaf's hash leads to: `node` is its number and `path` the siblings on the way. -/
def treeRoot (id : List Byte) : (node : Nat) → (path : List (List Byte)) → List Byte → List Byte
  | _, [], v => v
  | node, s :: rest, v =>
    treeRoot id (node / 2) rest (sha256 (id ++ bigEndian 4 (node / 2) ++ bigEndian 2 0x8383 ++
      if node % 2 = 1 then s ++ v else v ++ s))

/-- An LMS signature of a message verifies under a public key, in a tree of a height. -/
def lmsVerifies (height : Nat) (key msg sig : List Byte) : Bool :=
  let id := bytesFrom key 8 16
  let q := bigAt sig 0 4
  let leaf := sha256 (leafTag id (2 ^ height + q) ++ bigEndian 2 0x8282 ++ otsKey id q msg (bytesFrom sig 4 otsBytes))
  let path := (List.range height).map fun i => bytesFrom sig (8 + otsBytes + 32 * i) 32
  decide (q < 2 ^ height) && treeRoot id (2 ^ height + q) path leaf == bytesFrom key 24 32

/-- Where in an HSS signature of two levels the second public key and the second signature stand. -/
def hssKeyAt : Nat := 4 + lmsBytes 10

def hssSecondAt : Nat := hssKeyAt + lmsKeyBytes

/-- The types in an LMS signature. -/
def lmsTypes (sig : List Byte) : Nat × Nat := (bigAt sig 4 4, bigAt sig (4 + otsBytes) 4)

/-- A signature has two levels, and is of the types that R406 names. -/
def hssTypes (sig : List Byte) : Bool :=
  bigAt sig 0 4 == 1 && lmsTypes (sig.drop 4) == (typeOts, typeH10) && lmsTypes (sig.drop hssSecondAt) == (typeOts, typeH15) &&
  bigAt sig hssKeyAt 4 == typeH15 && bigAt sig (hssKeyAt + 4) 4 == typeOts

/-- A signature of a message, of those types, verifies against the fused public key. -/
def hssVerifies (msg sig : List Byte) : Bool :=
  let key := bytesFrom sig hssKeyAt lmsKeyBytes
  sig.length == hssSecondAt + lmsBytes 15 && bigAt Config.fusedKey 0 4 == 2 &&
  lmsVerifies 10 (Config.fusedKey.drop 4) key (bytesFrom sig 4 (lmsBytes 10)) && lmsVerifies 15 key msg (sig.drop hssSecondAt)

end Sys2Proof.Machine
end

