-- ==== Sys2Proof/WellFormed.lean ====
section
/-! DEFINITION. Which instructions are well formed: the cases of 02_bundle R48 that depend on one op alone.
The cases that depend on a whole bundle are in `Sys2Proof.Decode`. -/

namespace Sys2Proof

namespace ETy

/-- Element width in bits (02_bundle R35). -/
def width : ETy → Nat
  | f32 | i32 | n32 | b32 => 32
  | bf16 | f16 | i16 | n16 => 16
  | e4m3 | e5m2 | i8 | n8 => 8
  | e2m1 => 4

/-- The type set F of 07_sheet R161. -/
def isF : ETy → Bool
  | f32 | bf16 | f16 | e4m3 | e5m2 => true
  | _ => false

/-- The type set I of 07_sheet R161. -/
def isI : ETy → Bool
  | i32 | n32 | i16 | n16 | i8 | n8 => true
  | _ => false

/-- The type set W of 07_sheet R161. -/
def isW : ETy → Bool
  | f32 | i32 | n32 => true
  | _ => false

/-- The type set H of 07_sheet R161. -/
def isH : ETy → Bool
  | f32 | bf16 | f16 => true
  | _ => false

def isFI (t : ETy) : Bool := t.isF || t.isI

/-- The type code of 02_bundle R35. -/
def code : ETy → BitVec 5
  | f32 => 0 | bf16 => 1 | f16 => 2 | e4m3 => 3 | e5m2 => 4 | e2m1 => 5 | i32 => 6 | n32 => 7
  | i16 => 8 | n16 => 9 | i8 => 10 | n8 => 11 | b32 => 12

/-- The type of a code; 13 to 31 are reserved (02_bundle R35). -/
def ofCode (c : BitVec 5) : Option ETy :=
  match c.toNat with
  | 0 => some f32 | 1 => some bf16 | 2 => some f16 | 3 => some e4m3 | 4 => some e5m2 | 5 => some e2m1
  | 6 => some i32 | 7 => some n32 | 8 => some i16 | 9 => some n16 | 10 => some i8 | 11 => some n8
  | 12 => some b32 | _ => none

end ETy

namespace Rnd

/-- The rounding code of 02_bundle R35. -/
def code : Rnd → BitVec 3
  | rne => 0 | rtz => 1 | rup => 2 | rdn => 3 | sr => 4 | dyn => 7

/-- The rounding mode of a code; 5 and 6 are reserved. -/
def ofCode (c : BitVec 3) : Option Rnd :=
  match c.toNat with
  | 0 => some rne | 1 => some rtz | 2 => some rup | 3 => some rdn | 4 => some sr | 7 => some dyn | _ => none

end Rnd

/-- How a V op uses one of its operands a, b, c (02_bundle R36). -/
inductive Use
  | none | sheet | opt | mask
  deriving DecidableEq, Repr

/-- The rounding column of 07_sheet R161. -/
inductive RndCol
  | zero | fp | cv
  deriving DecidableEq, Repr

/-- The saturation column of 07_sheet R161. -/
inductive SatCol
  | zero | iOnly | any
  deriving DecidableEq, Repr

/-- One row of the table of 07_sheet R161, with the use of `IMM` (R162) as a check. -/
structure VRow where
  types  : ETy → Bool
  rnd    : RndCol
  sat    : SatCol
  mzFree : Bool := true
  a      : Use := .sheet
  b      : Use := .none
  c      : Use := .none
  toMask : Bool := false
  readsXb : Bool := false
  imm    : Bool := true

namespace VOp

/-- `IMM` bits hi..lo as a number. -/
def immF (o : VOp) (lo len : Nat) : Nat := (o.imm.toNat >>> lo) % 2 ^ len

/-- `IMM` uses no bit outside the given mask (07_sheet R162). -/
def immIn (o : VOp) (mask : BitVec 30) : Bool := o.imm &&& ~~~mask == 0

/-- Bit 29: `IA` of the shifts, `NX` of MSET, VMVR and VMVC. -/
def bit29 (o : VOp) : Bool := o.imm.getLsbD 29

end VOp

/-- A sheet operand that an op uses: v0 to v31 or s0 to s3 on any port, or the broadcast scalar on port 0
(02_bundle R36). -/
def sheetOperandOk (x : BitVec 9) : Bool :=
  let code := x.extractLsb' 0 6
  let port := x.extractLsb' 6 3
  code.toNat < 36 || (code == 40#6 && port == 0#3)

/-- A mask operand: m0 to m15 on port 0 (02_bundle R36). -/
def maskOperandOk (x : BitVec 9) : Bool := x.toNat < 16

def Use.ok (u : Use) (x : BitVec 9) : Bool :=
  match u with
  | .none => x == 0
  | .sheet | .opt => sheetOperandOk x
  | .mask => maskOperandOk x

/-- Whether an operand is used: an optional operand that is all zeros is unused (02_bundle R36). -/
def Use.used (u : Use) (x : BitVec 9) : Bool :=
  match u with
  | .none => false
  | .opt => x != 0
  | .sheet | .mask => true

def Use.isBroadcast (u : Use) (x : BitVec 9) : Bool :=
  (u == .sheet || u == .opt) && x.extractLsb' 0 6 == 40#6

/-- The source type of a conversion, `IMM` 4:0 (07_sheet R162). -/
def VOp.stype (o : VOp) : Option ETy := ETy.ofCode (o.imm.extractLsb' 0 5)

/-- The part of a conversion, `IMM` 7:5 (07_sheet R162). -/
def VOp.part (o : VOp) : Nat := o.immF 5 3

/-- The type pairs and parts of the conversions (07_sheet R173 to R176). -/
def VOp.convOk (o : VOp) (f : ETy → ETy → Nat → Bool) : Bool :=
  o.immIn 0xFF#30 && match o.stype with
  | some st => f o.ty st o.part
  | none => false

def shiftRow (o : VOp) (types : ETy → Bool) : VRow :=
  { types := types, rnd := .zero, sat := .zero, b := if o.bit29 then .none else .sheet,
    imm := o.immIn 0x2000003F#30 && (o.bit29 || o.immF 0 6 == 0) }

def moveRow (o : VOp) (limit : Nat) : VRow :=
  { types := (· == .b32), rnd := .zero, sat := .zero, readsXb := o.bit29,
    imm := o.immIn 0x200007FF#30 && (if o.bit29 then o.immF 0 9 == 0 else o.immF 0 9 < limit) }

def redRow (o : VOp) : VRow :=
  { types := ETy.isW, rnd := .fp, sat := .iOnly, mzFree := false, imm := o.immIn 3#30 && o.immF 0 2 != 3 }

def dotRow (o : VOp) (types : ETy → Bool) : VRow :=
  { types := types, rnd := .fp, sat := .iOnly, b := .sheet, c := .sheet, imm := o.imm == 0 }

def arithRow (o : VOp) (b c : Use) : VRow :=
  { types := ETy.isFI, rnd := .fp, sat := .any, b := b, c := c, imm := o.imm == 0 }

def minRow (o : VOp) (c : Use) (sat : SatCol) (b : Use) : VRow :=
  { types := ETy.isFI, rnd := .zero, sat := sat, b := b, c := c, imm := o.imm == 0 }

def bitRow (o : VOp) (b : Use) : VRow :=
  { types := (· == .b32), rnd := .zero, sat := .zero, b := b, imm := o.imm == 0 }

def fnRow (o : VOp) : VRow :=
  { types := ETy.isH, rnd := .zero, sat := .zero, imm := o.imm == 0 }

/-- The V op of an instruction and its row of 07_sheet R161 and R162. -/
def Instr.vRow : Instr → Option (VOp × VRow)
  | .vadd o => some (o, arithRow o .sheet .none)
  | .vsub o => some (o, arithRow o .sheet .none)
  | .vmul o => some (o, arithRow o .sheet .none)
  | .vfma o => some (o, arithRow o .sheet .sheet)
  | .vfms o => some (o, arithRow o .sheet .sheet)
  | .vfnma o => some (o, arithRow o .sheet .sheet)
  | .vmin o => some (o, minRow o .none .zero .sheet)
  | .vmax o => some (o, minRow o .none .zero .sheet)
  | .vabs o => some (o, minRow o .none .iOnly .none)
  | .vneg o => some (o, minRow o .none .iOnly .none)
  | .vclamp o => some (o, minRow o .sheet .zero .sheet)
  | .vdot2 o => some (o, dotRow o fun t => t == .bf16 || t == .f16 || t == .i16 || t == .n16)
  | .vdot4 o => some (o, dotRow o fun t => t == .e4m3 || t == .e5m2 || t == .i8 || t == .n8)
  | .vand o => some (o, bitRow o .sheet)
  | .vor o => some (o, bitRow o .sheet)
  | .vxor o => some (o, bitRow o .sheet)
  | .vnot o => some (o, bitRow o .none)
  | .vshl o => some (o, shiftRow o fun t => t.isI || t == .b32)
  | .vshr o => some (o, shiftRow o fun t => t.isI || t == .b32)
  | .vsra o => some (o, shiftRow o fun t => t.isI || t == .b32)
  | .vrshr o => some (o, shiftRow o ETy.isI)
  | .vmulh o => some (o, { types := ETy.isI, rnd := .zero, sat := .zero, b := .sheet, imm := o.imm == 0 })
  | .vmov o => some (o, bitRow o .none)
  | .vfill o => some (o,
      { types := fun t => t.isFI || t == .e2m1 || t == .b32, rnd := .zero, sat := .zero,
        a := .none, imm := o.ty.width == 32 || o.imm.toNat < 2 ^ o.ty.width })
  | .vidx o => some (o,
      { types := fun t => t == .i32 || t == .n32, rnd := .zero, sat := .zero,
        a := .none, b := .opt, imm := o.imm.toNat < 3 })
  | .vcmp o => some (o,
      { types := fun t => t.isW || t == .b32, rnd := .zero, sat := .zero, b := .sheet,
        toMask := true, imm := o.imm.toNat < 2 || (o.imm.toNat < 6 && o.ty.isW) ||
        (o.imm.toNat < 8 && o.ty == .f32) || (8 ≤ o.imm.toNat && o.imm.toNat < 10 && o.ty != .f32) })
  | .vsel o => some (o,
      { types := (· == .b32), rnd := .zero, sat := .zero, mzFree := false, b := .sheet,
        imm := o.imm == 0 })
  | .mset o => some (o,
      { types := (· == .f32), rnd := .zero, sat := .zero,
        a := if o.immF 0 3 == 5 then .sheet else .none, toMask := true, readsXb := o.bit29,
        imm := o.immIn 0x200FFFFF#30 && o.immF 0 3 < 6 &&
        (if o.immF 0 3 == 0 || o.immF 0 3 == 1 || o.immF 0 3 == 5 then !o.bit29 && o.immF 3 17 == 0
        else !o.bit29 || o.immF 3 17 == 0) })
  | .mlog o => some (o,
      { types := (· == .f32), rnd := .zero, sat := .zero, a := .mask, b := .mask,
        toMask := true, imm := o.immIn 0xF#30 })
  | .mpopc o => some (o, { types := (· == .f32), rnd := .zero, sat := .zero, a := .mask, imm := o.immIn 1#30 })
  | .vcvt o => some (o,
      { types := ETy.isFI, rnd := .cv, sat := .any,
        imm := o.convOk fun d s p => s.isFI && d.width == s.width && d != s && p == 0 })
  | .vpack o => some (o,
      { types := fun t => t.isFI || t == .e2m1, rnd := .cv, sat := .any, b := .sheet, c := .opt,
        imm := o.convOk fun d s p => s.isFI && decide (d.width < s.width) && decide (p < s.width / (2 * d.width)) })
  | .vunpk o => some (o,
      { types := ETy.isFI, rnd := .cv, sat := .any,
        imm := o.convOk fun d s p => (s.isFI || s == .e2m1) && decide (s.width < d.width) && decide (p < d.width / s.width) })
  | .vqnt o => some (o,
      { types := fun t => (t.isFI || t == .e2m1) && decide (t.width < 32), rnd := .cv, sat := .any,
        b := .sheet, c := .opt, imm := o.convOk fun d s p => s == .f32 && decide (p < 32 / d.width) })
  | .vdqnt o => some (o,
      { types := (· == .f32), rnd := .cv, sat := .any, b := .sheet,
        imm := o.convOk fun _ s p => (s.isFI || s == .e2m1) && decide (s.width < 32) && decide (p < 32 / s.width) })
  | .vrcp o => some (o, fnRow o)
  | .vrsq o => some (o, fnRow o)
  | .vexp2 o => some (o, fnRow o)
  | .vlog2 o => some (o, fnRow o)
  | .vtanh o => some (o, fnRow o)
  | .vredr o => some (o, redRow o)
  | .vredc o => some (o, redRow o)
  | .vscanr o => some (o, redRow o)
  | .vmvr o => some (o, moveRow o 64)
  | .vmvc o => some (o, moveRow o 512)
  | .vperm o => some (o, bitRow o .sheet)
  | .vcswp o => some (o,
      { types := ETy.isW, rnd := .zero, sat := .zero,
        b := if o.immF 9 1 == 1 then .sheet else .none,
        imm := o.immIn 0x7FF#30 && (if o.immF 8 1 == 1 then decide (o.immF 4 4 < 7) && decide (o.immF 0 4 < 6)
        else decide (o.immF 4 4 < 10) && decide (o.immF 0 4 < 9)) })
  | .vtrb o => some (o,
      { types := fun t => t == .b32 || t == .n16 || t == .n8, rnd := .zero, sat := .zero,
        imm := o.imm == 0 })
  | _ => none

/-- A rounding code an op accepts (07_sheet R161). -/
def RndCol.ok (r : RndCol) (t : ETy) (m : Rnd) : Bool :=
  match r with
  | .zero => m == .rne
  | .fp => if t.isF then m != .sr else m == .rne
  | .cv => true

def SatCol.ok (c : SatCol) (t : ETy) (sat : Bool) : Bool :=
  !sat || match c with
  | .zero => false
  | .iOnly => t.isI
  | .any => t.isFI

/-- The checks of a V op (07_sheet R156, R160 to R162; 02_bundle R34 to R36). -/
def VOp.wf (o : VOp) (r : VRow) : Bool :=
  o.path != 0 && r.types o.ty && r.rnd.ok o.ty o.rnd && r.sat.ok o.ty o.sat &&
  (r.mzFree || !o.mz) && r.a.ok o.a && r.b.ok o.b && r.c.ok o.c && r.imm &&
  (if r.toMask then decide (o.vd.toNat < 16) else decide (o.vd.toNat < 36)) &&
  !(!r.toMask && decide (32 ≤ o.vd.toNat) && o.mask != 0 && !o.mz) &&
  (o.xb == 0 || r.readsXb || r.a.isBroadcast o.a || r.b.isBroadcast o.b || r.c.isBroadcast o.c)

/-- The control-register indices of 06_scalar R143 and R151. -/
def cregListed (i : BitVec 12) : Bool :=
  let n := i.toNat
  n < 6 || (8 ≤ n && n ≤ 0xD) || n == 0x10 || n == 0x11 || (0x20 ≤ n && n ≤ 0x27) || n == 0x30 ||
  (0x40 ≤ n && n ≤ 0x4F) || n == 0x50 || n == 0x51 || (0x60 ≤ n && n ≤ 0x6F) || n == 0x70 || n == 0x80 ||
  (0x100 ≤ n && n ≤ 0x102) || (0x110 ≤ n && n ≤ 0x112) || (0x120 ≤ n && n ≤ 0x161) ||
  (0x170 ≤ n && n ≤ 0x17F) || (0x180 ≤ n && n ≤ 0x182) || n == 0x190

/-- The control registers whose write has a row of its own in the opcode table. -/
def cregOwnWrite (i : BitVec 12) : Bool :=
  let n := i.toNat
  n == 0x002 || n == 0x102 || n == 0x112 || (0x120 ≤ n && n ≤ 0x15F) || n == 0x181 || n == 0x190

/-- Handle field, pitch and mask of an LD or ST op (10_memory R241, R245; 02_bundle R40). -/
def MemOp.wf (m : MemOp) (regs : Nat) (pitch mask : Bool) : Bool :=
  m.path != 0 && (m.mode == .handle || m.hnd == 0) && decide (m.reg.toNat < regs) &&
  (pitch || m.pitch == 0) && (mask || m.mask == 0)

/-- The widths an atomic operation accepts (12_sync R293). -/
def amoWidthOk (aop : Nat) (aw : Nat) : Bool :=
  match aop with
  | 0 => aw == 1 || aw == 2 || aw == 4 || aw == 5
  | 1 | 2 | 3 | 6 => aw == 0 || aw == 1 || aw == 2 || aw == 4 || aw == 5
  | 4 | 5 => aw == 1 || aw == 2 || aw == 3 || aw == 4 || aw == 5
  | 7 => aw == 2 || aw == 5
  | 8 => aw == 3
  | _ => false

/-- The checks of CMM and CMMP (02_bundle R41, 08_cube R195). -/
def CmmOp.wf (c : CmmOp) : Bool :=
  c.path != 0 && c.lmask != 0 && decide (c.ain.toNat < 10) && decide (c.bin.toNat < 10) && decide (c.fmt.toNat < 10) &&
  (if c.t then c.ain != 9 && c.bin != 8 else c.ain != 8 && c.bin != 9)

/-- The checks of CDRN (08_cube R200). A `DLAY` of 12 to 15 is an illegal encoding (DESIGN CHOICE, log 123). -/
def CdrnOp.wf (c : CdrnOp) : Bool :=
  c.path != 0 && decide (c.dlay.toNat < 12) && decide (c.dfmt.toNat < 9) && (Rnd.ofCode c.rnd).isSome &&
  (c.rnd == 0 || (1 ≤ c.dfmt.toNat && c.dfmt.toNat < 5)) && (c.shift == 0 || decide (5 ≤ c.dfmt.toNat))

/-- The number of layers in a layer mask. -/
def layerCount (m : BitVec 12) : Nat := ((List.range 12).filter (fun l => m.getLsbD l)).length

/-- The checks of CRING (08_cube R190). -/
def RingCfg.wf (r : RingCfg) : Bool :=
  if r.slots == 0 then
    r.face == 0 && !r.plane && r.gp == 0 && !r.mx && r.sk == 0 && r.base == 0 && r.lmask == 0
  else
    r.sk != 0 && r.lmask != 0 &&
    (if r.face.toNat < 2 then r.gp != 3 else !r.plane && r.gp == 0 && !r.mx && layerCount r.lmask == 1)

/-- The legal quadrant sets (09_partitions R208). -/
def quadsOk (q : BitVec 4) : Bool :=
  q == 1 || q == 2 || q == 4 || q == 8 || q == 3 || q == 0xC || q == 5 || q == 0xA || q == 0xF

/-- A box as an encoding gives it (09_partitions R208, R220). -/
def boxOk (first last quads : BitVec 4) : Bool :=
  decide (first.toNat ≤ last.toNat) && decide (last.toNat < 12) && quadsOk quads

/-- The checks of CPART (09_partitions R220). -/
def CpartOp.wf (c : CpartOp) : Bool :=
  c.path != 0 && c.srcm.getLsbD c.part.toNat && boxOk c.af c.al c.aq &&
  (if c.bv then boxOk c.bf c.bl c.bq && c.na != c.nb
   else c.nb == 0 && c.bf == 0 && c.bl == 0 && c.bq == 0)

/-- The checks of CJOIN (09_partitions R221). -/
def cjoinOk (part : PartId) (shape : BitVec 2) (m0 m1 m2 m3 : PartId) : Bool :=
  m0 != m1 && part != m0 && part != m1 &&
  (if shape == 1 || shape == 3 then
     m2 != m0 && m2 != m1 && m3 != m0 && m3 != m1 && m3 != m2 && part != m2 && part != m3
   else m2 == 0 && m3 == 0)

/-- A barrier index (12_sync R283). -/
def barrierOk (n : FlagIx) : Bool := n.toNat % 2 == 0 && decide (2 ≤ n.toNat) && decide (n.toNat ≤ 4092)

/-- The checks every CP op shares (11_copy R262, 12_sync R283). -/
def CpOp.wf (c : CpOp) : Bool :=
  c.path != 0 && (c.smode == .handle || c.shnd == 0) && (c.dmode == .handle || c.dhnd == 0) &&
  decide (c.cflag.toNat < 4094) && (c.bflag == 0 || barrierOk c.bflag) && c.layout != 0

def CpOp.noSrc (c : CpOp) : Bool := c.smode == .spad && c.shnd == 0 && c.sx == 0

def CpOp.noDst (c : CpOp) : Bool := c.dmode == .spad && c.dhnd == 0 && c.dx == 0

/-- A rounding of the scalar FP ops: SR for conversions only (06_scalar R137). -/
def sRndOk (conv : Bool) (r : Rnd) : Bool := conv || r != .sr

/-- The well-formed instructions: every case of 02_bundle R48 that one op decides. Events are well formed. -/
def Instr.wf : Instr → Bool
  | .add p _ _ _ | .sub p _ _ _ | .mul p _ _ _ | .mulh p _ _ _ | .mulhu p _ _ _ | .div p _ _ _ | .divu p _ _ _
  | .rem p _ _ _ | .remu p _ _ _ | .and p _ _ _ | .or p _ _ _ | .xor p _ _ _ | .andn p _ _ _ | .shl p _ _ _
  | .shr p _ _ _ | .sra p _ _ _ | .ror p _ _ _ | .min p _ _ _ | .max p _ _ _ | .minu p _ _ _ | .maxu p _ _ _
  | .addi p _ _ _ | .andi p _ _ _ | .ori p _ _ _ | .xori p _ _ _ | .shli p _ _ _ | .shri p _ _ _ | .srai p _ _ _
  | .rori p _ _ _ | .madd p _ _ _ _ | .clz p _ _ | .ctz p _ _ | .popc p _ _ | .brev p _ _ | .abs p _ _
  | .sel p _ _ _ _ | .movi p _ _ | .movhi p _ _ _ | .fmins p _ _ _ | .fmaxs p _ _ _ | .frcps p _ _
  | .xlt p _ _ | .xltw p _ _ | .xltwG p _ _ _ | .hrd p _ _ _ | .hchk p _ _ _ => p != 0
  | .bext p _ _ _ len pos | .bins p _ _ _ len pos =>
    p != 0 && len != 0 && decide (len.toNat ≤ 64) && decide (pos.toNat + len.toNat ≤ 64)
  | .cmp p cond _ _ _ | .cmpi p cond _ _ _ => p != 0 && decide (cond.toNat < 12)
  | .lix p _ d | .lcnt p _ d => p != 0 && decide (d.toNat < 6)
  | .fadds p _ _ _ r | .fsubs p _ _ _ r | .fmuls p _ _ _ r | .ffmas p _ _ _ _ r => p != 0 && sRndOk false r
  | .fcmps p cond _ _ _ => p != 0 && decide (cond.toNat < 8)
  | .fcvtis p _ _ ity r | .fcvtsi p _ _ ity _ r => p != 0 && decide (ity.toNat < 4) && sRndOk true r
  | .hinv p all h => p != 0 && (!all || h == 0)
  | .crd p _ i => p != 0 && cregListed i
  | .cwr p i _ => p != 0 && cregListed i && !cregOwnWrite i
  | .fpxWrite p _ | .basidWrite p _ | .ltbWrite p _ | .qmapWrite p _ _ | .isldWrite p _ | .egrantWrite p _ => p != 0
  | .lds m _ => m.wf 32 true true
  | .ldr m _ => m.wf 32 false true
  | .lds2 m j _ _ _ => m.wf 32 true true && m.mode == .handle && j != 0
  | .ldx m wid => m.wf 64 false false && wid != 7
  | .ldb m _ => m.wf 32 false true
  | .ldg m _ _ => m.wf 32 false true
  | .ldm m => m.wf 16 false false
  | .sts m _ => m.wf 36 true true
  | .str m _ _ => m.wf 32 false true
  | .sts2 m _ j _ _ => m.wf 36 true true && m.mode == .handle && j != 0
  | .stx m wid => m.wf 64 false false && (wid == 1 || wid == 3 || wid == 5 || wid == 6)
  | .stn m _ _ => m.wf 32 true true
  | .stsc m _ _ => m.wf 32 false true
  | .stm m => m.wf 16 false false
  | .amo m a => m.wf 64 false false && amoWidthOk a.aop.toNat a.aw.toNat && a.xr == 0 && (a.aop == 7 || a.xc == 0)
  | .amof m a => m.wf 64 false false && amoWidthOk a.aop.toNat a.aw.toNat && (a.aop == 7 || a.xc == 0)
  | .amos m _ aop aw _ _ => m.wf 32 false true && amoWidthOk aop.toNat aw.toNat && (decide (aop.toNat < 6) || aop == 8) &&
      1 ≤ aw.toNat && aw.toNat ≤ 3
  | .cmm c | .cmmp c => c.wf
  | .czro p _ lmask _ _ => p != 0 && lmask != 0
  | .cdrn c => c.wf
  | .cswp p _ n w => p != 0 && (n || w)
  | .ccur p _ _ _ | .crail p _ _ | .csplit p _ _ _ | .cfree p _ _ _ | .csusp p _ _ | .cresm p _
  | .cqry p _ _ _ _ _ => p != 0
  | .cring p _ r => p != 0 && r.wf
  | .cwait p _ f | .csig p _ f => p != 0 && f != 0 && decide (f.toNat < 4094)
  | .cpart c => c.wf
  | .cjoin p part shape m0 m1 m2 m3 _ _ => p != 0 && cjoinOk part shape m0 m1 m2 m3
  | .cpy c cadd => c.wf && (!cadd || c.cflag != 0)
  | .cpys c cadd out _ => c.wf && (!cadd || c.cflag != 0) && (out || !c.rflag) && (if out then c.noSrc else c.noDst)
  | .cpyw c cadd _ _ _ => c.wf && (!cadd || c.cflag != 0) && !c.rflag && c.dmode == .spad && c.dhnd == 0
  | .cpyr c cadd _ _ => c.wf && (!cadd || c.cflag != 0) && !c.rflag && c.noDst
  | .cpdrn p _ f => p != 0 && f != 0 && decide (f.toNat < 4094)
  | .cprd p _ _ f | .cpub p _ _ f => p != 0 && decide (f.toNat < 4094)
  | .fset p _ _ | .fclr p _ | .fwaitGe p _ _ | .faddc p _ _ _ | .fwr p _ _ _ | .post p _ _ _ | .evpop p _ _
  | .loffer p _ _ | .lacc p _ _ | .lret p _ _ _ | .frsv p _ _ | .frel p _ | .wset p _ _ | .cuns p _ _ | .crsm p _ _
  | .ckil p _ _ | .yield p | .clus p _ | .rrot p _ _ _ | .trapc p _ | .loop p _ _ _ | .loopx p _ _ _ => p != 0
  | .fwait p f => p != 0 && f != 4094
  | .fwany p f _ => p != 0 && decide (f.toNat ≤ 4032)
  | .binit p n _ | .barv p n _ _ | .bexp p n _ _ | .bwait p n _ => p != 0 && barrierOk n
  | .fence p kind _ => p != 0 && kind != 0
  | .radv p _ _ ns | .rwait p _ _ ns => p != 0 && ns != 0
  | .lrcl o | .ldisc o | .lqry o | .cseat o | .crsmAt o | .csav o | .crst o => o.path != 0
  | .lbrk _ depth => depth != 0 && depth != 7
  | i => match i.vRow with
    | some (o, r) => o.wf r
    | none => true

end Sys2Proof
end

