-- ==== Sys2Proof/Decode.lean ====
section
/-! DEFINITION. Decoding and encoding of slots, the CTL field and bundles (02_bundle R18 to R48, and the
encoding tables of the instruction chapters). A word is accepted when its fields make a well-formed
instruction whose encoding is the word itself, so a bit that an instruction does not assign must be 0 (R32). -/

namespace Sys2Proof

/-- The slots of a bundle, in slot order (02_bundle R30). -/
inductive Slot
  | s0 | s1 | v0 | v1 | v2 | ld | st | cb | cp | sy | ctl
  deriving DecidableEq, Repr

/-- The source number of a slot in `ESLOT` (16_system R368). -/
def Slot.num : Slot → Nat
  | .s0 => 0 | .s1 => 1 | .v0 => 2 | .v1 => 3 | .v2 => 4 | .ld => 5 | .st => 6 | .cb => 7 | .cp => 8 | .sy => 9
  | .ctl => 10

/-- Why bits are not an instruction (02_bundle R48). -/
inductive DecodeError
  | reservedOpcode | illegalOperands | header | unselectable | transferWithTest | portConflict | masks | sameDestination
  deriving DecidableEq, Repr

/-- One bit as a bit vector. -/
def bit (b : Bool) : BitVec 1 := if b then 1 else 0

/-- The mode code of 02_bundle R40. -/
def Mode.code : Mode → BitVec 2
  | .spad => 0 | .handle => 1 | .face => 2

def Mode.ofCode (c : BitVec 2) : Option Mode :=
  match c.toNat with
  | 0 => some .spad | 1 => some .handle | 2 => some .face | _ => none

/-- The scope code of 12_sync R291. -/
def Scope.code : Scope → BitVec 2
  | .ctx => 0 | .pkg => 1 | .pod => 2 | .sys => 3

def Scope.ofCode (c : BitVec 2) : Scope :=
  match c.toNat with
  | 0 => .ctx | 1 => .pkg | 2 => .pod | _ => .sys

/-! ## Encodings -/

/-- The S slot layout (02_bundle R33). -/
def encS (op : BitVec 8) (p : Path) (d a b : BitVec 6) (imm : BitVec 33) : BitVec 64 :=
  op ++ p ++ d ++ a ++ b ++ imm

/-- The V slot layout (02_bundle R34). -/
def encV (op : BitVec 8) (o : VOp) : BitVec 96 :=
  op ++ o.path ++ o.ty.code ++ o.vd ++ o.a ++ o.b ++ o.c ++ o.mask ++ bit o.mz ++ o.rnd.code ++ bit o.sat ++ o.xb ++ o.imm

/-- The LD and ST slot layout (02_bundle R40). -/
def encM (op : BitVec 8) (m : MemOp) (spec : BitVec 32) : BitVec 96 :=
  op ++ m.path ++ m.mode.code ++ m.reg ++ m.base ++ m.hnd ++ m.pitch ++ m.mask ++ m.ofs ++ spec

/-- The CB slot layout: opcode, path, target, the rest (02_bundle R41). -/
def encB (op : BitVec 8) (p : Path) (part : PartId) (rest : BitVec 79) : BitVec 96 :=
  op ++ p ++ part ++ rest

/-- The CP slot layout (02_bundle R43). -/
def encP (op : BitVec 8) (c : CpOp) (spec : BitVec 12) : BitVec 96 :=
  op ++ c.path ++ c.ch ++ c.layout ++ c.smode.code ++ c.shnd ++ c.sx ++ c.dmode.code ++ c.dhnd ++ c.dx ++ c.cflag ++
    bit c.rflag ++ c.bflag ++ spec

/-- The SY slot layout (02_bundle R43). -/
def encY (op : BitVec 8) (p : Path) (spec : BitVec 19) : BitVec 32 := op ++ p ++ spec

/-- The CTL layout (02_bundle R29). -/
def encC (op : BitVec 6) (p : Path) (opnd : BitVec 45) : BitVec 56 := op ++ p ++ opnd

def CmmOp.rest (c : CmmOp) : BitVec 79 :=
  c.mm1 ++ c.nm1 ++ c.k ++ c.lmask ++ c.ain ++ c.bin ++ c.fmt ++ bit c.init ++ bit c.acc ++ bit c.t ++ bit c.keepa ++
    bit c.keepb ++ c.cflag

def CdrnOp.rest (c : CdrnOp) : BitVec 79 :=
  c.mm1 ++ c.nm1 ++ c.dlay ++ bit c.east ++ c.dfmt ++ c.rnd ++ bit c.sat ++ c.shift ++ c.ring ++ 0#20 ++ bit c.acc ++
    0#3 ++ c.cflag

/-- CRING bits 78:27 (08_cube R190). -/
def RingCfg.bits (r : RingCfg) : BitVec 52 :=
  r.ring ++ r.face ++ bit r.plane ++ r.gp ++ bit r.mx ++ r.slots ++ r.sk ++ r.base ++ r.lmask

def CpartOp.rest (c : CpartOp) : BitVec 79 :=
  c.srcm ++ c.na ++ c.af ++ c.al ++ c.aq ++ bit c.bv ++ c.nb ++ c.bf ++ c.bl ++ c.bq ++ 0#17 ++ bit c.dsc ++ c.cflag

def AmoOp.spec (a : AmoOp) : BitVec 32 := a.aop ++ a.aw ++ a.ord ++ a.scp.code ++ a.xr ++ a.xc ++ 0#8

/-- The path mask of every transfer (02_bundle R29). -/
def transferPath : Path := 0b10000#5

/-- The word of an S-slot instruction (06_scalar; 10_memory R234, R235). -/
def encodeS : Instr → Option (BitVec 64)
  | .add p d a b => some (encS 0x01 p d a b 0)
  | .sub p d a b => some (encS 0x02 p d a b 0)
  | .mul p d a b => some (encS 0x04 p d a b 0)
  | .mulh p d a b => some (encS 0x05 p d a b 0)
  | .mulhu p d a b => some (encS 0x06 p d a b 0)
  | .div p d a b => some (encS 0x08 p d a b 0)
  | .divu p d a b => some (encS 0x09 p d a b 0)
  | .rem p d a b => some (encS 0x0A p d a b 0)
  | .remu p d a b => some (encS 0x0B p d a b 0)
  | .and p d a b => some (encS 0x10 p d a b 0)
  | .or p d a b => some (encS 0x11 p d a b 0)
  | .xor p d a b => some (encS 0x12 p d a b 0)
  | .andn p d a b => some (encS 0x13 p d a b 0)
  | .shl p d a b => some (encS 0x18 p d a b 0)
  | .shr p d a b => some (encS 0x19 p d a b 0)
  | .sra p d a b => some (encS 0x1A p d a b 0)
  | .ror p d a b => some (encS 0x1E p d a b 0)
  | .min p d a b => some (encS 0x28 p d a b 0)
  | .max p d a b => some (encS 0x29 p d a b 0)
  | .minu p d a b => some (encS 0x2A p d a b 0)
  | .maxu p d a b => some (encS 0x2B p d a b 0)
  | .fmins p d a b => some (encS 0x44 p d a b 0)
  | .fmaxs p d a b => some (encS 0x45 p d a b 0)
  | .addi p d a imm => some (encS 0x03 p d a 0 imm)
  | .andi p d a imm => some (encS 0x14 p d a 0 imm)
  | .ori p d a imm => some (encS 0x15 p d a 0 imm)
  | .xori p d a imm => some (encS 0x16 p d a 0 imm)
  | .shli p d a n => some (encS 0x1B p d a 0 (0#27 ++ n))
  | .shri p d a n => some (encS 0x1C p d a 0 (0#27 ++ n))
  | .srai p d a n => some (encS 0x1D p d a 0 (0#27 ++ n))
  | .rori p d a n => some (encS 0x1F p d a 0 (0#27 ++ n))
  | .clz p d a => some (encS 0x20 p d a 0 0)
  | .ctz p d a => some (encS 0x21 p d a 0 0)
  | .popc p d a => some (encS 0x22 p d a 0 0)
  | .brev p d a => some (encS 0x25 p d a 0 0)
  | .abs p d a => some (encS 0x2D p d a 0 0)
  | .frcps p d a => some (encS 0x49 p d a 0 0)
  | .madd p d a b c => some (encS 0x07 p d a b (0#27 ++ c))
  | .bext p d a sx len pos => some (encS 0x23 p d a 0 (0#19 ++ bit sx ++ len ++ pos))
  | .bins p d a b len pos => some (encS 0x24 p d a b (0#20 ++ len ++ pos))
  | .sel p d f a b => some (encS 0x2C p d a b (0#21 ++ f))
  | .movi p d imm => some (encS 0x30 p d 0 0 imm)
  | .movhi p d a imm => some (encS 0x31 p d a 0 (0#1 ++ imm))
  | .cmp p c f a b => some (encS 0x34 p 0 a b (0#17 ++ c ++ f))
  | .cmpi p c f a i => some (encS 0x35 p 0 a 0 (i ++ c ++ f))
  | .lix p d n => some (encS 0x38 p d 0 0 (0#30 ++ n))
  | .lcnt p d n => some (encS 0x39 p d 0 0 (0#30 ++ n))
  | .fadds p d a b r => some (encS 0x40 p d a b (0#30 ++ r.code))
  | .fsubs p d a b r => some (encS 0x41 p d a b (0#30 ++ r.code))
  | .fmuls p d a b r => some (encS 0x42 p d a b (0#30 ++ r.code))
  | .ffmas p d a b c r => some (encS 0x43 p d a b (0#24 ++ c ++ r.code))
  | .fcmps p c f a b => some (encS 0x46 p 0 a b (0#17 ++ c ++ f))
  | .fcvtis p d a t r => some (encS 0x47 p d a 0 (0#20 ++ t ++ 0#6 ++ r.code))
  | .fcvtsi p d a t s r => some (encS 0x48 p d a 0 (0#19 ++ bit s ++ t ++ 0#6 ++ r.code))
  | .xlt p h a => some (encS 0x50 p (0#1 ++ h) a 0 0)
  | .xltw p h a => some (encS 0x51 p (0#1 ++ h) a 0 0)
  | .xltwG p h a b => some (encS 0x51 p (0#1 ++ h) a b 1)
  | .hinv p all h => some (encS 0x52 p (0#1 ++ h) 0 0 (0#32 ++ bit all))
  | .hrd p d h part => some (encS 0x53 p d (0#1 ++ h) 0 (0#32 ++ bit part))
  | .hchk p f h c => some (encS 0x54 p 0 (0#1 ++ h) 0 (0#20 ++ bit c ++ f))
  | .crd p d i => some (encS 0x58 p d 0 0 (0#21 ++ i))
  | .cwr p i a => some (encS 0x59 p 0 a 0 (0#21 ++ i))
  | .fpxWrite p a => some (encS 0x59 p 0 a 0 0x002)
  | .basidWrite p a => some (encS 0x59 p 0 a 0 0x102)
  | .ltbWrite p a => some (encS 0x59 p 0 a 0 0x112)
  | .qmapWrite p n a => some (encS 0x59 p 0 a 0 (0x120 + (0#27 ++ n)))
  | .isldWrite p a => some (encS 0x59 p 0 a 0 0x181)
  | .egrantWrite p a => some (encS 0x59 p 0 a 0 0x190)
  | _ => none

/-- The word of a V-slot instruction (07_sheet R161). -/
def encodeV : Instr → Option (BitVec 96)
  | .vadd o => some (encV 0x01 o)
  | .vsub o => some (encV 0x02 o)
  | .vmul o => some (encV 0x03 o)
  | .vfma o => some (encV 0x04 o)
  | .vfms o => some (encV 0x05 o)
  | .vfnma o => some (encV 0x06 o)
  | .vmin o => some (encV 0x07 o)
  | .vmax o => some (encV 0x08 o)
  | .vabs o => some (encV 0x09 o)
  | .vneg o => some (encV 0x0A o)
  | .vclamp o => some (encV 0x0B o)
  | .vdot2 o => some (encV 0x0C o)
  | .vdot4 o => some (encV 0x0D o)
  | .vand o => some (encV 0x10 o)
  | .vor o => some (encV 0x11 o)
  | .vxor o => some (encV 0x12 o)
  | .vnot o => some (encV 0x13 o)
  | .vshl o => some (encV 0x14 o)
  | .vshr o => some (encV 0x15 o)
  | .vsra o => some (encV 0x16 o)
  | .vrshr o => some (encV 0x17 o)
  | .vmulh o => some (encV 0x18 o)
  | .vmov o => some (encV 0x1A o)
  | .vfill o => some (encV 0x1B o)
  | .vidx o => some (encV 0x1C o)
  | .vcmp o => some (encV 0x20 o)
  | .vsel o => some (encV 0x21 o)
  | .mset o => some (encV 0x24 o)
  | .mlog o => some (encV 0x25 o)
  | .mpopc o => some (encV 0x26 o)
  | .vcvt o => some (encV 0x30 o)
  | .vpack o => some (encV 0x31 o)
  | .vunpk o => some (encV 0x32 o)
  | .vqnt o => some (encV 0x33 o)
  | .vdqnt o => some (encV 0x34 o)
  | .vrcp o => some (encV 0x38 o)
  | .vrsq o => some (encV 0x39 o)
  | .vexp2 o => some (encV 0x3A o)
  | .vlog2 o => some (encV 0x3B o)
  | .vtanh o => some (encV 0x3C o)
  | .vredr o => some (encV 0x40 o)
  | .vredc o => some (encV 0x41 o)
  | .vscanr o => some (encV 0x42 o)
  | .vmvr o => some (encV 0x43 o)
  | .vmvc o => some (encV 0x44 o)
  | .vperm o => some (encV 0x45 o)
  | .vcswp o => some (encV 0x46 o)
  | .vtrb o => some (encV 0x47 o)
  | _ => none

/-- The word of an LD-slot instruction (10_memory R243, R245). -/
def encodeLd : Instr → Option (BitVec 96)
  | .lds m mz => some (encM 0x01 m (0#31 ++ bit mz))
  | .ldr m row => some (encM 0x02 m (0#26 ++ row))
  | .lds2 m j hb x mz => some (encM 0x03 m (0#10 ++ j ++ hb ++ x ++ 0#4 ++ bit mz))
  | .ldx m wid => some (encM 0x04 m (0#29 ++ wid))
  | .ldb m mz => some (encM 0x05 m (0#31 ++ bit mz))
  | .ldg m idx mz => some (encM 0x06 m (0#26 ++ idx ++ bit mz))
  | .ldm m => some (encM 0x07 m 0)
  | _ => none

/-- The word of an ST-slot instruction (10_memory R244, R245; 12_sync R292). -/
def encodeSt : Instr → Option (BitVec 96)
  | .sts m dp => some (encM 0x01 m (dp ++ 0#29))
  | .str m dp row => some (encM 0x02 m (dp ++ 0#23 ++ row))
  | .sts2 m dp j hb x => some (encM 0x03 m (dp ++ 0#7 ++ j ++ hb ++ x ++ 0#5))
  | .stx m wid => some (encM 0x04 m (0#29 ++ wid))
  | .stn m dp nhi => some (encM 0x05 m (dp ++ 0#28 ++ bit nhi))
  | .stsc m dp idx => some (encM 0x06 m (dp ++ 0#23 ++ idx ++ 0#1))
  | .stm m => some (encM 0x07 m 0)
  | .amo m a => some (encM 0x08 m a.spec)
  | .amof m a => some (encM 0x09 m a.spec)
  | .amos m dp aop aw scp idx => some (encM 0x0A m (dp ++ aop ++ aw ++ scp.code ++ 0#14 ++ idx ++ 0#1))
  | _ => none

/-- The word of a CB-slot instruction (08_cube, 09_partitions). -/
def encodeCb : Instr → Option (BitVec 96)
  | .cmm c => some (encB 0x01 c.path c.part c.rest)
  | .cmmp c => some (encB 0x02 c.path c.part c.rest)
  | .czro p q l a b => some (encB 0x03 p q (0#38 ++ l ++ 0#13 ++ bit a ++ bit b ++ 0#14))
  | .cdrn c => some (encB 0x04 c.path c.part c.rest)
  | .cswp p q n w => some (encB 0x05 p q (bit n ++ bit w ++ 0#77))
  | .ccur p q f c => some (encB 0x06 p q (bit f ++ c ++ 0#62))
  | .cring p q r => some (encB 0x07 p q (r.bits ++ 0#27))
  | .cwait p q f => some (encB 0x08 p q (0#67 ++ f))
  | .csig p q f => some (encB 0x09 p q (0#67 ++ f))
  | .crail p q hi => some (encB 0x0A p q (bit hi ++ 0#78))
  | .cpart c => some (encB 0x10 c.path c.part c.rest)
  | .cjoin p q s a b c d dsc f => some (encB 0x11 p q (s ++ a ++ b ++ c ++ d ++ 0#48 ++ bit dsc ++ f))
  | .csplit p q dsc f => some (encB 0x12 p q (0#66 ++ bit dsc ++ f))
  | .cfree p q dsc f => some (encB 0x13 p q (0#66 ++ bit dsc ++ f))
  | .csusp p q f => some (encB 0x14 p q (0#67 ++ f))
  | .cresm p q => some (encB 0x15 p q 0)
  | .cqry p q r a now f => some (encB 0x16 p q (r ++ a ++ bit now ++ 0#39 ++ f))
  | _ => none

/-- The operand record of CPDRN, CPRD and CPUB, whose unused fields are 0 (11_copy R262). -/
def CpOp.bare (p : Path) (ch : BitVec 4) (dx : XReg) (cflag : FlagIx) : CpOp :=
  { path := p, ch := ch, layout := 0, smode := .spad, shnd := 0, sx := 0, dmode := .spad, dhnd := 0, dx := dx,
    cflag := cflag, rflag := false, bflag := 0 }

/-- The word of a CP-slot instruction (11_copy R262). -/
def encodeCp : Instr → Option (BitVec 96)
  | .cpy c cadd => some (encP 0x01 c (bit cadd ++ 0#11))
  | .cpys c cadd out str => some (encP 0x02 c (bit cadd ++ 0#8 ++ bit out ++ str))
  | .cpyw c cadd wlay wn wp => some (encP 0x03 c (bit cadd ++ 0#2 ++ wlay ++ bit wn ++ wp))
  | .cpyr c cadd r q => some (encP 0x04 c (bit cadd ++ 0#4 ++ r ++ q))
  | .cpdrn p ch f => some (encP 0x05 (CpOp.bare p ch 0 f) 0)
  | .cprd p ch dx f => some (encP 0x06 (CpOp.bare p ch dx f) 0)
  | .cpub p ch s f => some (encP 0x07 (CpOp.bare p ch 0 f) (0#10 ++ s))
  | _ => none

/-- The word of an SY-slot instruction (12_sync R279, R284, R289, R291; 13_jobs R312; 14_fabric R339; 16_system R374). -/
def encodeSy : Instr → Option (BitVec 32)
  | .fset p f s => some (encY 0x01 p (f ++ 0#6 ++ bit s))
  | .fclr p f => some (encY 0x02 p (f ++ 0#7))
  | .fwait p f => some (encY 0x03 p (f ++ 0#7))
  | .fwaitGe p f x => some (encY 0x03 p (f ++ x ++ 1#1))
  | .fwany p f x => some (encY 0x04 p (f ++ x ++ 0#1))
  | .faddc p f x s => some (encY 0x05 p (f ++ x ++ bit s))
  | .fwr p f x s => some (encY 0x06 p (f ++ x ++ bit s))
  | .binit p f x => some (encY 0x08 p (f ++ x ++ 0#1))
  | .barv p f x s => some (encY 0x09 p (f ++ x ++ bit s))
  | .bexp p f x a => some (encY 0x0A p (f ++ x ++ bit a))
  | .bwait p f x => some (encY 0x0B p (f ++ x ++ 0#1))
  | .fence p k s => some (encY 0x0C p (0#13 ++ k ++ s.code))
  | .radv p q r n => some (encY 0x0D p (q ++ r ++ n ++ 0#4))
  | .rwait p q r n => some (encY 0x0E p (q ++ r ++ n ++ 0#4))
  | .post p q c r => some (encY 0x10 p (q ++ c ++ r ++ 0#1))
  | .evpop p a d => some (encY 0x11 p (a ++ 0#6 ++ d ++ 0#1))
  | .loffer p a d => some (encY 0x14 p (a ++ 0#6 ++ d ++ 0#1))
  | .lacc p a d => some (encY 0x15 p (a ++ 0#6 ++ d ++ 0#1))
  | .frsv p a d => some (encY 0x1C p (a ++ 0#6 ++ d ++ 0#1))
  | .wset p a d => some (encY 0x1E p (a ++ 0#6 ++ d ++ 0#1))
  | .cuns p a d => some (encY 0x21 p (a ++ 0#6 ++ d ++ 0#1))
  | .ckil p a d => some (encY 0x23 p (a ++ 0#6 ++ d ++ 0#1))
  | .lrcl o => some (encY 0x16 o.path (o.xa ++ o.xb ++ o.xd ++ 0#1))
  | .ldisc o => some (encY 0x17 o.path (o.xa ++ o.xb ++ o.xd ++ 0#1))
  | .lqry o => some (encY 0x19 o.path (o.xa ++ o.xb ++ o.xd ++ 0#1))
  | .cseat o => some (encY 0x20 o.path (o.xa ++ o.xb ++ o.xd ++ 0#1))
  | .csav o => some (encY 0x24 o.path (o.xa ++ o.xb ++ o.xd ++ 0#1))
  | .crst o => some (encY 0x25 o.path (o.xa ++ o.xb ++ o.xd ++ 0#1))
  | .lret p a d o => some (encY 0x18 p (a ++ 0#6 ++ d ++ bit o))
  | .frel p a => some (encY 0x1D p (a ++ 0#13))
  | .crsm p a d => some (encY 0x22 p (a ++ 0#6 ++ d ++ 0#1))
  | .crsmAt o => some (encY 0x22 o.path (o.xa ++ o.xb ++ o.xd ++ 1#1))
  | _ => none

/-- The word of a CTL op (04_sequencing R83). -/
def encodeCtl : Instr → Option (BitVec 56)
  | .cnop => some (encC 0x00 0 0)
  | .loop p e r n => some (encC 0x01 p (e ++ bit r ++ n ++ 0#5))
  | .loopx p e r x => some (encC 0x02 p (e ++ bit r ++ x ++ 0#22))
  | .lend => some (encC 0x03 transferPath 0)
  | .lbrk t d => some (encC 0x04 transferPath (t ++ d ++ 0#26))
  | .call t => some (encC 0x05 transferPath (t ++ 0#29))
  | .callx x => some (encC 0x06 transferPath (x ++ 0#39))
  | .ret => some (encC 0x07 transferPath 0)
  | .jmpx x => some (encC 0x08 transferPath (x ++ 0#39))
  | .ctlEnd f x => some (encC 0x09 transferPath (f ++ x ++ 0#27))
  | .yield p => some (encC 0x0A p 0)
  | .clus p c => some (encC 0x0B p (c ++ 0#41))
  | .rrot p s v m => some (encC 0x0C p (bit s ++ v ++ m ++ 0#37))
  | .trapc p t => some (encC 0x0D p (t ++ 0#29))
  | _ => none

/-- The word of a slot or CTL instruction, as a number (none for an event). -/
def encode (i : Instr) : Option Nat :=
  ((encodeS i).map (·.toNat)).or <| ((encodeV i).map (·.toNat)).or <| ((encodeLd i).map (·.toNat)).or <|
  ((encodeSt i).map (·.toNat)).or <| ((encodeCb i).map (·.toNat)).or <| ((encodeCp i).map (·.toNat)).or <|
  ((encodeSy i).map (·.toNat)).or ((encodeCtl i).map (·.toNat))

/-! ## Fields -/

namespace SWord

/-- The fields of an S-slot word (02_bundle R33). -/
def p (w : BitVec 64) : Path := w.extractLsb' 51 5
def d (w : BitVec 64) : XReg := w.extractLsb' 45 6
def a (w : BitVec 64) : XReg := w.extractLsb' 39 6
def b (w : BitVec 64) : XReg := w.extractLsb' 33 6
def imm (w : BitVec 64) : BitVec 33 := w.extractLsb' 0 33
def f (w : BitVec 64) (lo n : Nat) : BitVec n := w.extractLsb' lo n
def g (w : BitVec 64) (k : Nat) : Bool := w.getLsbD k

end SWord

/-- The instruction that a write of a control register is: the table gives some registers a row of their own. -/
def cwrOf (p : Path) (i : BitVec 12) (a : XReg) : Instr :=
  match i.toNat with
  | 0x002 => .fpxWrite p a
  | 0x102 => .basidWrite p a
  | 0x112 => .ltbWrite p a
  | 0x181 => .isldWrite p a
  | 0x190 => .egrantWrite p a
  | n => if 0x120 ≤ n ∧ n ≤ 0x15F then .qmapWrite p (BitVec.ofNat 6 (n - 0x120)) a else .cwr p i a

/-- The fields of an S-slot word by opcode (02_bundle R47). -/
def fieldsS (w : BitVec 64) : Option Instr :=
  match (w.extractLsb' 56 8).toNat with
  | 0x01 => some (.add (SWord.p w) (SWord.d w) (SWord.a w) (SWord.b w))
  | 0x02 => some (.sub (SWord.p w) (SWord.d w) (SWord.a w) (SWord.b w))
  | 0x04 => some (.mul (SWord.p w) (SWord.d w) (SWord.a w) (SWord.b w))
  | 0x05 => some (.mulh (SWord.p w) (SWord.d w) (SWord.a w) (SWord.b w))
  | 0x06 => some (.mulhu (SWord.p w) (SWord.d w) (SWord.a w) (SWord.b w))
  | 0x08 => some (.div (SWord.p w) (SWord.d w) (SWord.a w) (SWord.b w))
  | 0x09 => some (.divu (SWord.p w) (SWord.d w) (SWord.a w) (SWord.b w))
  | 0x0A => some (.rem (SWord.p w) (SWord.d w) (SWord.a w) (SWord.b w))
  | 0x0B => some (.remu (SWord.p w) (SWord.d w) (SWord.a w) (SWord.b w))
  | 0x10 => some (.and (SWord.p w) (SWord.d w) (SWord.a w) (SWord.b w))
  | 0x11 => some (.or (SWord.p w) (SWord.d w) (SWord.a w) (SWord.b w))
  | 0x12 => some (.xor (SWord.p w) (SWord.d w) (SWord.a w) (SWord.b w))
  | 0x13 => some (.andn (SWord.p w) (SWord.d w) (SWord.a w) (SWord.b w))
  | 0x18 => some (.shl (SWord.p w) (SWord.d w) (SWord.a w) (SWord.b w))
  | 0x19 => some (.shr (SWord.p w) (SWord.d w) (SWord.a w) (SWord.b w))
  | 0x1A => some (.sra (SWord.p w) (SWord.d w) (SWord.a w) (SWord.b w))
  | 0x1E => some (.ror (SWord.p w) (SWord.d w) (SWord.a w) (SWord.b w))
  | 0x28 => some (.min (SWord.p w) (SWord.d w) (SWord.a w) (SWord.b w))
  | 0x29 => some (.max (SWord.p w) (SWord.d w) (SWord.a w) (SWord.b w))
  | 0x2A => some (.minu (SWord.p w) (SWord.d w) (SWord.a w) (SWord.b w))
  | 0x2B => some (.maxu (SWord.p w) (SWord.d w) (SWord.a w) (SWord.b w))
  | 0x44 => some (.fmins (SWord.p w) (SWord.d w) (SWord.a w) (SWord.b w))
  | 0x45 => some (.fmaxs (SWord.p w) (SWord.d w) (SWord.a w) (SWord.b w))
  | 0x03 => some (.addi (SWord.p w) (SWord.d w) (SWord.a w) (SWord.imm w))
  | 0x14 => some (.andi (SWord.p w) (SWord.d w) (SWord.a w) (SWord.imm w))
  | 0x15 => some (.ori (SWord.p w) (SWord.d w) (SWord.a w) (SWord.imm w))
  | 0x16 => some (.xori (SWord.p w) (SWord.d w) (SWord.a w) (SWord.imm w))
  | 0x1B => some (.shli (SWord.p w) (SWord.d w) (SWord.a w) (SWord.f w 0 6))
  | 0x1C => some (.shri (SWord.p w) (SWord.d w) (SWord.a w) (SWord.f w 0 6))
  | 0x1D => some (.srai (SWord.p w) (SWord.d w) (SWord.a w) (SWord.f w 0 6))
  | 0x1F => some (.rori (SWord.p w) (SWord.d w) (SWord.a w) (SWord.f w 0 6))
  | 0x20 => some (.clz (SWord.p w) (SWord.d w) (SWord.a w))
  | 0x21 => some (.ctz (SWord.p w) (SWord.d w) (SWord.a w))
  | 0x22 => some (.popc (SWord.p w) (SWord.d w) (SWord.a w))
  | 0x25 => some (.brev (SWord.p w) (SWord.d w) (SWord.a w))
  | 0x2D => some (.abs (SWord.p w) (SWord.d w) (SWord.a w))
  | 0x49 => some (.frcps (SWord.p w) (SWord.d w) (SWord.a w))
  | 0x07 => some (.madd (SWord.p w) (SWord.d w) (SWord.a w) (SWord.b w) (SWord.f w 0 6))
  | 0x23 => some (.bext (SWord.p w) (SWord.d w) (SWord.a w) (SWord.g w 13) (SWord.f w 6 7) (SWord.f w 0 6))
  | 0x24 => some (.bins (SWord.p w) (SWord.d w) (SWord.a w) (SWord.b w) (SWord.f w 6 7) (SWord.f w 0 6))
  | 0x2C => some (.sel (SWord.p w) (SWord.d w) (SWord.f w 0 12) (SWord.a w) (SWord.b w))
  | 0x30 => some (.movi (SWord.p w) (SWord.d w) (SWord.imm w))
  | 0x31 => some (.movhi (SWord.p w) (SWord.d w) (SWord.a w) (SWord.f w 0 32))
  | 0x34 => some (.cmp (SWord.p w) (SWord.f w 12 4) (SWord.f w 0 12) (SWord.a w) (SWord.b w))
  | 0x35 => some (.cmpi (SWord.p w) (SWord.f w 12 4) (SWord.f w 0 12) (SWord.a w) (SWord.f w 16 17))
  | 0x38 => some (.lix (SWord.p w) (SWord.d w) (SWord.f w 0 3))
  | 0x39 => some (.lcnt (SWord.p w) (SWord.d w) (SWord.f w 0 3))
  | 0x40 => (Rnd.ofCode (SWord.f w 0 3)).map fun r => .fadds (SWord.p w) (SWord.d w) (SWord.a w) (SWord.b w) r
  | 0x41 => (Rnd.ofCode (SWord.f w 0 3)).map fun r => .fsubs (SWord.p w) (SWord.d w) (SWord.a w) (SWord.b w) r
  | 0x42 => (Rnd.ofCode (SWord.f w 0 3)).map fun r => .fmuls (SWord.p w) (SWord.d w) (SWord.a w) (SWord.b w) r
  | 0x43 => (Rnd.ofCode (SWord.f w 0 3)).map fun r => .ffmas (SWord.p w) (SWord.d w) (SWord.a w) (SWord.b w) (SWord.f w 3 6) r
  | 0x46 => some (.fcmps (SWord.p w) (SWord.f w 12 4) (SWord.f w 0 12) (SWord.a w) (SWord.b w))
  | 0x47 => (Rnd.ofCode (SWord.f w 0 3)).map fun r => .fcvtis (SWord.p w) (SWord.d w) (SWord.a w) (SWord.f w 9 4) r
  | 0x48 => (Rnd.ofCode (SWord.f w 0 3)).map fun r => .fcvtsi (SWord.p w) (SWord.d w) (SWord.a w) (SWord.f w 9 4) (SWord.g w 13) r
  | 0x52 => some (.hinv (SWord.p w) (SWord.g w 0) ((SWord.d w).setWidth 5))
  | 0x53 => some (.hrd (SWord.p w) (SWord.d w) ((SWord.a w).setWidth 5) (SWord.g w 0))
  | 0x54 => some (.hchk (SWord.p w) (SWord.f w 0 12) ((SWord.a w).setWidth 5) (SWord.g w 12))
  | 0x58 => some (.crd (SWord.p w) (SWord.d w) (SWord.f w 0 12))
  | 0x50 => some (.xlt (SWord.p w) ((SWord.d w).setWidth 5) (SWord.a w))
  | 0x51 => some (if SWord.g w 0 then .xltwG (SWord.p w) ((SWord.d w).setWidth 5) (SWord.a w) (SWord.b w)
      else .xltw (SWord.p w) ((SWord.d w).setWidth 5) (SWord.a w))
  | 0x59 => some (cwrOf (SWord.p w) (SWord.f w 0 12) (SWord.a w))
  | _ => none

/-- The operands of a V-slot word (02_bundle R34, R35). -/
def vFields (w : BitVec 96) : Option VOp :=
  match ETy.ofCode (w.extractLsb' 78 5), Rnd.ofCode (w.extractLsb' 37 3) with
  | some ty, some rnd => some
      { path := w.extractLsb' 83 5, ty := ty, vd := w.extractLsb' 72 6, a := w.extractLsb' 63 9, b := w.extractLsb' 54 9,
        c := w.extractLsb' 45 9, mask := w.extractLsb' 41 4, mz := w.getLsbD 40, rnd := rnd, sat := w.getLsbD 36,
        xb := w.extractLsb' 30 6, imm := w.extractLsb' 0 30 }
  | _, _ => none

/-- The V-slot instruction of an opcode (02_bundle R47). -/
def vOpcode (op : Nat) (o : VOp) : Option Instr :=
  match op with
  | 0x01 => some (.vadd o)
  | 0x02 => some (.vsub o)
  | 0x03 => some (.vmul o)
  | 0x04 => some (.vfma o)
  | 0x05 => some (.vfms o)
  | 0x06 => some (.vfnma o)
  | 0x07 => some (.vmin o)
  | 0x08 => some (.vmax o)
  | 0x09 => some (.vabs o)
  | 0x0A => some (.vneg o)
  | 0x0B => some (.vclamp o)
  | 0x0C => some (.vdot2 o)
  | 0x0D => some (.vdot4 o)
  | 0x10 => some (.vand o)
  | 0x11 => some (.vor o)
  | 0x12 => some (.vxor o)
  | 0x13 => some (.vnot o)
  | 0x14 => some (.vshl o)
  | 0x15 => some (.vshr o)
  | 0x16 => some (.vsra o)
  | 0x17 => some (.vrshr o)
  | 0x18 => some (.vmulh o)
  | 0x1A => some (.vmov o)
  | 0x1B => some (.vfill o)
  | 0x1C => some (.vidx o)
  | 0x20 => some (.vcmp o)
  | 0x21 => some (.vsel o)
  | 0x24 => some (.mset o)
  | 0x25 => some (.mlog o)
  | 0x26 => some (.mpopc o)
  | 0x30 => some (.vcvt o)
  | 0x31 => some (.vpack o)
  | 0x32 => some (.vunpk o)
  | 0x33 => some (.vqnt o)
  | 0x34 => some (.vdqnt o)
  | 0x38 => some (.vrcp o)
  | 0x39 => some (.vrsq o)
  | 0x3A => some (.vexp2 o)
  | 0x3B => some (.vlog2 o)
  | 0x3C => some (.vtanh o)
  | 0x40 => some (.vredr o)
  | 0x41 => some (.vredc o)
  | 0x42 => some (.vscanr o)
  | 0x43 => some (.vmvr o)
  | 0x44 => some (.vmvc o)
  | 0x45 => some (.vperm o)
  | 0x46 => some (.vcswp o)
  | 0x47 => some (.vtrb o)
  | _ => none

def fieldsV (w : BitVec 96) : Option Instr :=
  (vFields w).bind fun o => vOpcode (w.extractLsb' 88 8).toNat o

/-- The shared operands of an LD or ST word (02_bundle R40). -/
def memFields (w : BitVec 96) : Option MemOp :=
  (Mode.ofCode (w.extractLsb' 81 2)).map fun mode =>
    { path := w.extractLsb' 83 5, mode := mode, reg := w.extractLsb' 75 6, base := w.extractLsb' 69 6,
      hnd := w.extractLsb' 64 5, pitch := w.extractLsb' 58 6, mask := w.extractLsb' 54 4, ofs := w.extractLsb' 32 22 }

def amoFields (w : BitVec 96) : AmoOp :=
  { aop := w.extractLsb' 27 5, aw := w.extractLsb' 24 3, ord := w.extractLsb' 22 2,
    scp := Scope.ofCode (w.extractLsb' 20 2), xr := w.extractLsb' 14 6, xc := w.extractLsb' 8 6 }

def fieldsLd (w : BitVec 96) : Option Instr :=
  (memFields w).bind fun m => match (w.extractLsb' 88 8).toNat with
  | 0x01 => some (.lds m (w.getLsbD 0))
  | 0x02 => some (.ldr m (w.extractLsb' 0 6))
  | 0x03 => some (.lds2 m (w.extractLsb' 16 6) (w.extractLsb' 11 5) (w.extractLsb' 5 6) (w.getLsbD 0))
  | 0x04 => some (.ldx m (w.extractLsb' 0 3))
  | 0x05 => some (.ldb m (w.getLsbD 0))
  | 0x06 => some (.ldg m (w.extractLsb' 1 5) (w.getLsbD 0))
  | 0x07 => some (.ldm m)
  | _ => none

def fieldsSt (w : BitVec 96) : Option Instr :=
  (memFields w).bind fun m => match (w.extractLsb' 88 8).toNat with
  | 0x01 => some (.sts m (w.extractLsb' 29 3))
  | 0x02 => some (.str m (w.extractLsb' 29 3) (w.extractLsb' 0 6))
  | 0x03 => some (.sts2 m (w.extractLsb' 29 3) (w.extractLsb' 16 6) (w.extractLsb' 11 5) (w.extractLsb' 5 6))
  | 0x04 => some (.stx m (w.extractLsb' 0 3))
  | 0x05 => some (.stn m (w.extractLsb' 29 3) (w.getLsbD 0))
  | 0x06 => some (.stsc m (w.extractLsb' 29 3) (w.extractLsb' 1 5))
  | 0x07 => some (.stm m)
  | 0x08 => some (.amo m (amoFields w))
  | 0x09 => some (.amof m (amoFields w))
  | 0x0A => some (.amos m (w.extractLsb' 29 3) (w.extractLsb' 25 4) (w.extractLsb' 22 3) (Scope.ofCode (w.extractLsb' 20 2)) (w.extractLsb' 1 5))
  | _ => none

def cmmFields (w : BitVec 96) : CmmOp :=
  { path := w.extractLsb' 83 5, part := w.extractLsb' 79 4, mm1 := w.extractLsb' 68 11, nm1 := w.extractLsb' 57 11,
    k := w.extractLsb' 41 16, lmask := w.extractLsb' 29 12, ain := w.extractLsb' 25 4, bin := w.extractLsb' 21 4,
    fmt := w.extractLsb' 17 4, init := w.getLsbD 16, acc := w.getLsbD 15, t := w.getLsbD 14, keepa := w.getLsbD 13,
    keepb := w.getLsbD 12, cflag := w.extractLsb' 0 12 }

def cdrnFields (w : BitVec 96) : CdrnOp :=
  { path := w.extractLsb' 83 5, part := w.extractLsb' 79 4, mm1 := w.extractLsb' 68 11, nm1 := w.extractLsb' 57 11,
    dlay := w.extractLsb' 53 4, east := w.getLsbD 52, dfmt := w.extractLsb' 48 4, rnd := w.extractLsb' 45 3,
    sat := w.getLsbD 44, shift := w.extractLsb' 39 5, ring := w.extractLsb' 36 3, acc := w.getLsbD 15,
    cflag := w.extractLsb' 0 12 }

def ringFields (w : BitVec 96) : RingCfg :=
  { ring := w.extractLsb' 76 3, face := w.extractLsb' 74 2, plane := w.getLsbD 73, gp := w.extractLsb' 71 2,
    mx := w.getLsbD 70, slots := w.extractLsb' 62 8, sk := w.extractLsb' 50 12, base := w.extractLsb' 39 11,
    lmask := w.extractLsb' 27 12 }

def cpartFields (w : BitVec 96) : CpartOp :=
  { path := w.extractLsb' 83 5, part := w.extractLsb' 79 4, srcm := w.extractLsb' 63 16, na := w.extractLsb' 59 4,
    af := w.extractLsb' 55 4, al := w.extractLsb' 51 4, aq := w.extractLsb' 47 4, bv := w.getLsbD 46,
    nb := w.extractLsb' 42 4, bf := w.extractLsb' 38 4, bl := w.extractLsb' 34 4, bq := w.extractLsb' 30 4,
    dsc := w.getLsbD 12, cflag := w.extractLsb' 0 12 }

def fieldsCb (w : BitVec 96) : Option Instr :=
  let p : Path := w.extractLsb' 83 5
  let q : PartId := w.extractLsb' 79 4
  match (w.extractLsb' 88 8).toNat with
  | 0x01 => some (.cmm (cmmFields w))
  | 0x02 => some (.cmmp (cmmFields w))
  | 0x03 => some (.czro p q (w.extractLsb' 29 12) (w.getLsbD 15) (w.getLsbD 14))
  | 0x04 => some (.cdrn (cdrnFields w))
  | 0x05 => some (.cswp p q (w.getLsbD 78) (w.getLsbD 77))
  | 0x06 => some (.ccur p q (w.getLsbD 78) (w.extractLsb' 62 16))
  | 0x07 => some (.cring p q (ringFields w))
  | 0x08 => some (.cwait p q (w.extractLsb' 0 12))
  | 0x09 => some (.csig p q (w.extractLsb' 0 12))
  | 0x0A => some (.crail p q (w.getLsbD 78))
  | 0x10 => some (.cpart (cpartFields w))
  | 0x11 => some (.cjoin p q (w.extractLsb' 77 2) (w.extractLsb' 73 4) (w.extractLsb' 69 4) (w.extractLsb' 65 4)
      (w.extractLsb' 61 4) (w.getLsbD 12) (w.extractLsb' 0 12))
  | 0x12 => some (.csplit p q (w.getLsbD 12) (w.extractLsb' 0 12))
  | 0x13 => some (.cfree p q (w.getLsbD 12) (w.extractLsb' 0 12))
  | 0x14 => some (.csusp p q (w.extractLsb' 0 12))
  | 0x15 => some (.cresm p q)
  | 0x16 => some (.cqry p q (w.extractLsb' 76 3) (w.extractLsb' 52 24) (w.getLsbD 51) (w.extractLsb' 0 12))
  | _ => none

def cpFields (w : BitVec 96) : Option CpOp :=
  match Mode.ofCode (w.extractLsb' 61 2), Mode.ofCode (w.extractLsb' 48 2) with
  | some sm, some dm => some
      { path := w.extractLsb' 83 5, ch := w.extractLsb' 79 4, layout := w.extractLsb' 63 16, smode := sm,
        shnd := w.extractLsb' 56 5, sx := w.extractLsb' 50 6, dmode := dm, dhnd := w.extractLsb' 43 5,
        dx := w.extractLsb' 37 6, cflag := w.extractLsb' 25 12, rflag := w.getLsbD 24, bflag := w.extractLsb' 12 12 }
  | _, _ => none

def fieldsCp (w : BitVec 96) : Option Instr :=
  (cpFields w).bind fun c => match (w.extractLsb' 88 8).toNat with
  | 0x01 => some (.cpy c (w.getLsbD 11))
  | 0x02 => some (.cpys c (w.getLsbD 11) (w.getLsbD 2) (w.extractLsb' 0 2))
  | 0x03 => some (.cpyw c (w.getLsbD 11) (w.extractLsb' 5 4) (w.getLsbD 4) (w.extractLsb' 0 4))
  | 0x04 => some (.cpyr c (w.getLsbD 11) (w.extractLsb' 4 3) (w.extractLsb' 0 4))
  | 0x05 => some (.cpdrn c.path c.ch c.cflag)
  | 0x06 => some (.cprd c.path c.ch c.dx c.cflag)
  | 0x07 => some (.cpub c.path c.ch (w.extractLsb' 0 2) c.cflag)
  | _ => none

def fieldsSy (w : BitVec 32) : Option Instr :=
  let p : Path := w.extractLsb' 19 5
  let f : FlagIx := w.extractLsb' 7 12
  let a : XReg := w.extractLsb' 13 6
  let b : XReg := w.extractLsb' 7 6
  let x : XReg := w.extractLsb' 1 6
  let s : Bool := w.getLsbD 0
  match (w.extractLsb' 24 8).toNat with
  | 0x01 => some (.fset p f s)
  | 0x02 => some (.fclr p f)
  | 0x03 => some (if s then .fwaitGe p f x else .fwait p f)
  | 0x04 => some (.fwany p f x)
  | 0x05 => some (.faddc p f x s)
  | 0x06 => some (.fwr p f x s)
  | 0x08 => some (.binit p f x)
  | 0x09 => some (.barv p f x s)
  | 0x0A => some (.bexp p f x s)
  | 0x0B => some (.bwait p f x)
  | 0x0C => some (.fence p (w.extractLsb' 2 4) (Scope.ofCode (w.extractLsb' 0 2)))
  | 0x0D => some (.radv p (w.extractLsb' 15 4) (w.extractLsb' 12 3) (w.extractLsb' 4 8))
  | 0x0E => some (.rwait p (w.extractLsb' 15 4) (w.extractLsb' 12 3) (w.extractLsb' 4 8))
  | 0x10 => some (.post p a b x)
  | 0x11 => some (.evpop p a x)
  | 0x14 => some (.loffer p a x)
  | 0x15 => some (.lacc p a x)
  | 0x1C => some (.frsv p a x)
  | 0x1E => some (.wset p a x)
  | 0x21 => some (.cuns p a x)
  | 0x23 => some (.ckil p a x)
  | 0x16 => some (.lrcl ⟨p, a, b, x⟩)
  | 0x17 => some (.ldisc ⟨p, a, b, x⟩)
  | 0x19 => some (.lqry ⟨p, a, b, x⟩)
  | 0x20 => some (.cseat ⟨p, a, b, x⟩)
  | 0x24 => some (.csav ⟨p, a, b, x⟩)
  | 0x25 => some (.crst ⟨p, a, b, x⟩)
  | 0x18 => some (.lret p a x s)
  | 0x1D => some (.frel p a)
  | 0x22 => some (if s then .crsmAt ⟨p, a, b, x⟩ else .crsm p a x)
  | _ => none

def fieldsCtl (w : BitVec 56) : Option Instr :=
  let p : Path := w.extractLsb' 45 5
  let t : BundleNo := w.extractLsb' 29 16
  let x : XReg := w.extractLsb' 39 6
  match (w.extractLsb' 50 6).toNat with
  | 0x00 => some .cnop
  | 0x01 => some (.loop p t (w.getLsbD 28) (w.extractLsb' 5 23))
  | 0x02 => some (.loopx p t (w.getLsbD 28) (w.extractLsb' 22 6))
  | 0x03 => some .lend
  | 0x04 => some (.lbrk t (w.extractLsb' 26 3))
  | 0x05 => some (.call t)
  | 0x06 => some (.callx x)
  | 0x07 => some .ret
  | 0x08 => some (.jmpx x)
  | 0x09 => some (.ctlEnd (w.extractLsb' 33 12) (w.extractLsb' 27 6))
  | 0x0A => some (.yield p)
  | 0x0B => some (.clus p (w.extractLsb' 41 4))
  | 0x0C => some (.rrot p (w.getLsbD 44) (w.extractLsb' 40 4) (w.extractLsb' 37 3))
  | 0x0D => some (.trapc p t)
  | _ => none

/-! ## Slots -/

/-- Which slots accept an instruction (02_bundle R47). -/
def Instr.accepts (i : Instr) (s : Slot) : Bool :=
  match s with
  | .s0 => (encodeS i).isSome && match i with
      | .xlt .. | .xltw .. | .xltwG .. | .hinv .. | .hrd .. | .hchk .. | .crd .. | .cwr .. | .fpxWrite .. | .basidWrite ..
      | .ltbWrite .. | .qmapWrite .. | .isldWrite .. | .egrantWrite .. => false
      | _ => true
  | .s1 => (encodeS i).isSome
  | .v0 => (encodeV i).isSome && !v2Only i
  | .v1 => (encodeV i).isSome && !v2Only i && !v0Only i
  | .v2 => (encodeV i).isSome && !v0Only i
  | .ld => (encodeLd i).isSome
  | .st => (encodeSt i).isSome
  | .cb => (encodeCb i).isSome
  | .cp => (encodeCp i).isSome
  | .sy => (encodeSy i).isSome
  | .ctl => (encodeCtl i).isSome
where
  v0Only : Instr → Bool
    | .vcvt _ | .vpack _ | .vunpk _ | .vqnt _ | .vdqnt _ => true
    | _ => false
  v2Only : Instr → Bool
    | .vrcp _ | .vrsq _ | .vexp2 _ | .vlog2 _ | .vtanh _ | .vredr _ | .vredc _ | .vscanr _ | .vmvr _ | .vmvc _ | .vperm _
    | .vcswp _ | .vtrb _ => true
    | _ => false

/-- Accept a candidate: it is well formed, its slot accepts it, and it encodes to the word itself. -/
def accept {n : Nat} (s : Slot) (enc : Instr → Option (BitVec n)) (w : BitVec n) (c : Option Instr) :
    Except DecodeError (Option Instr) :=
  if w == 0 then .ok none
  else match c with
    | none => .error .reservedOpcode
    | some i => if i.wf && i.accepts s && enc i == some w then .ok (some i) else .error .illegalOperands

/-- The word of one slot of a bundle (02_bundle R18) and what it decodes to; an empty slot gives none. -/
def decodeSlot (b : BitVec 1024) (s : Slot) : Except DecodeError (Option Instr) :=
  match s with
  | .s0 => sSlot .s0 (b.extractLsb' 192 64)
  | .s1 => sSlot .s1 (b.extractLsb' 256 64)
  | .v0 => vSlot .v0 (b.extractLsb' 320 96)
  | .v1 => vSlot .v1 (b.extractLsb' 416 96)
  | .v2 => vSlot .v2 (b.extractLsb' 512 96)
  | .ld => let w := b.extractLsb' 608 96; accept .ld encodeLd w (fieldsLd w)
  | .st => let w := b.extractLsb' 704 96; accept .st encodeSt w (fieldsSt w)
  | .cb => let w := b.extractLsb' 800 96; accept .cb encodeCb w (fieldsCb w)
  | .cp => let w := b.extractLsb' 896 96; accept .cp encodeCp w (fieldsCp w)
  | .sy => let w := b.extractLsb' 992 32; accept .sy encodeSy w (fieldsSy w)
  | .ctl => let w := b.extractLsb' 136 56; accept .ctl encodeCtl w (fieldsCtl w)
where
  sSlot (s : Slot) (w : BitVec 64) := accept s encodeS w (fieldsS w)
  vSlot (s : Slot) (w : BitVec 96) := accept s encodeV w (fieldsV w)

/-! ## Bundles -/

/-- A branch-tree test (02_bundle R19, R21). -/
structure Test where
  valid : Bool
  pol   : Bool
  ix    : FlagIx
  deriving DecidableEq, Repr

/-- A decoded bundle (02_bundle R18, R19): the tests T0 to T3, the targets A to D, the ops in slot order. -/
structure Bundle where
  ew      : BitVec 4
  tests   : List Test
  targets : List BundleNo
  ops     : List (Slot × Instr)
  deriving DecidableEq, Repr

/-- The transfers of 02_bundle R46. -/
def Instr.isTransfer : Instr → Bool
  | .lend | .lbrk _ _ | .call _ | .callx _ | .ret | .jmpx _ | .ctlEnd _ _ => true
  | _ => false

/-- The leaves of the tree (02_bundle R23). -/
inductive Leaf
  | a | b | c | d | e
  deriving DecidableEq, Repr

def Leaf.num : Leaf → Nat
  | .a => 0 | .b => 1 | .c => 2 | .d => 3 | .e => 4

/-- A register name as 02_bundle R44 counts destinations. -/
inductive Dest
  | x (n : Nat) | v (n : Nat) | m (n : Nat) | h (n : Nat) | push (k : Nat) | creg (n : Nat) | flag (n : Nat)
  deriving DecidableEq, Repr

def dx (n : XReg) : List Dest := if n == 0 then [] else [.x n.toNat]

def vDests (o : VOp) (r : VRow) : List Dest :=
  if r.toMask then (if o.vd == 0 then [] else [.m o.vd.toNat])
  else if o.vd.toNat < 32 then [.v o.vd.toNat] else [.push (o.vd.toNat - 32)]

/-- The destination registers and immediate flag destinations of an op (02_bundle R44). -/
def Instr.dests : Instr → List Dest
  | .add _ d _ _ | .sub _ d _ _ | .mul _ d _ _ | .mulh _ d _ _ | .mulhu _ d _ _ | .div _ d _ _ | .divu _ d _ _
  | .rem _ d _ _ | .remu _ d _ _ | .and _ d _ _ | .or _ d _ _ | .xor _ d _ _ | .andn _ d _ _ | .shl _ d _ _
  | .shr _ d _ _ | .sra _ d _ _ | .ror _ d _ _ | .min _ d _ _ | .max _ d _ _ | .minu _ d _ _ | .maxu _ d _ _
  | .addi _ d _ _ | .andi _ d _ _ | .ori _ d _ _ | .xori _ d _ _ | .shli _ d _ _ | .shri _ d _ _ | .srai _ d _ _
  | .rori _ d _ _ | .madd _ d _ _ _ | .clz _ d _ | .ctz _ d _ | .popc _ d _ | .brev _ d _ | .abs _ d _
  | .sel _ d _ _ _ | .movi _ d _ | .movhi _ d _ _ | .fmins _ d _ _ | .fmaxs _ d _ _ | .frcps _ d _
  | .bext _ d _ _ _ _ | .bins _ d _ _ _ _ | .lix _ d _ | .lcnt _ d _ | .fadds _ d _ _ _ | .fsubs _ d _ _ _
  | .fmuls _ d _ _ _ | .ffmas _ d _ _ _ _ | .fcvtis _ d _ _ _ | .fcvtsi _ d _ _ _ _ | .hrd _ d _ _ | .crd _ d _ => dx d
  | .cmp _ _ f _ _ | .cmpi _ _ f _ _ | .fcmps _ _ f _ _ | .hchk _ f _ _ => [.flag f.toNat]
  | .xlt _ h _ | .xltw _ h _ | .xltwG _ h _ _ => [.h h.toNat]
  | .hinv _ all h => if all then (List.range 32).map .h else [.h h.toNat]
  | .cwr _ i _ => [.creg i.toNat]
  | .fpxWrite _ _ => [.creg 0x002]
  | .basidWrite _ _ => [.creg 0x102]
  | .ltbWrite _ _ => [.creg 0x112]
  | .qmapWrite _ n _ => [.creg (0x120 + n.toNat)]
  | .isldWrite _ _ => [.creg 0x181]
  | .egrantWrite _ _ => [.creg 0x190]
  | .lds m _ | .ldr m _ | .lds2 m _ _ _ _ | .ldb m _ | .ldg m _ _ => [.v m.reg.toNat]
  | .ldx m _ => dx m.reg
  | .ldm m => if m.reg == 0 then [] else [.m m.reg.toNat]
  | .amof _ a => dx a.xr
  | .fset _ f _ | .fclr _ f | .fwr _ f _ _ | .faddc _ f _ _ => [.flag f.toNat]
  | .binit _ f _ | .barv _ f _ _ | .bexp _ f _ _ => [.flag f.toNat, .flag (f.toNat + 1)]
  | .fwany _ _ x | .bwait _ _ x | .post _ _ _ x | .evpop _ _ x | .loffer _ _ x | .lacc _ _ x | .lret _ _ x _ | .frsv _ _ x
  | .wset _ _ x | .cuns _ _ x | .crsm _ _ x | .ckil _ _ x => dx x
  | .lrcl o | .ldisc o | .lqry o | .cseat o | .crsmAt o | .csav o | .crst o => dx o.xd
  | .call _ | .callx _ => [.x 63]
  | .ctlEnd f _ => if f == 0 then [] else [.flag f.toNat]
  | i => match i.vRow with
    | some (o, r) => vDests o r
    | none => []

def opndPort (u : Use) (x : BitVec 9) : List (Nat × Nat) :=
  let code := (x.extractLsb' 0 6).toNat
  if (u == .sheet || u == .opt) && u.used x && code < 36 then [((x.extractLsb' 6 3).toNat, code)] else []

/-- The vector read ports an op claims, with the code each carries (02_bundle R37). -/
def Instr.ports : Instr → List (Nat × Nat)
  | .sts m d | .str m d _ | .sts2 m d _ _ _ | .stn m d _ | .stsc m d _ | .amos m d _ _ _ _ => [(d.toNat, m.reg.toNat)]
  | i => match i.vRow with
    | some (o, r) => opndPort r.a o.a ++ opndPort r.b o.b ++ opndPort r.c o.c
    | none => []

def maskOpnd (u : Use) (x : BitVec 9) : List Nat := if u == .mask then [x.toNat] else []

/-- The masks other than m0 that an op reads through a mask port (02_bundle R39). -/
def Instr.masks (i : Instr) : List Nat :=
  (match i with
   | .lds m _ | .ldr m _ | .lds2 m _ _ _ _ | .ldb m _ | .ldg m _ _ | .sts m _ | .str m _ _ | .sts2 m _ _ _ _ | .stn m _ _
   | .stsc m _ _ | .amos m _ _ _ _ _ => [m.mask.toNat]
   | .stm m => [m.reg.toNat]
   | i => match i.vRow with
     | some (o, r) => o.mask.toNat :: (maskOpnd r.a o.a ++ maskOpnd r.b o.b)
     | none => []).filter (· != 0)

/-- Two uses of one port name one code, and a stream is named on one port only (02_bundle R37, R38). -/
def portsOk (ps : List (Nat × Nat)) : Bool :=
  ps.all fun p => ps.all fun q =>
    (p.1 != q.1 || p.2 == q.2) && (p.2 < 32 || p.2 != q.2 || p.1 == q.1)

def noDup [BEq α] : List α → Bool
  | [] => true
  | a :: l => !l.contains a && noDup l

/-- The test fields of a header (02_bundle R19). -/
def testAt (b : BitVec 1024) (k : Nat) : Test :=
  { valid := b.getLsbD (8 + 16 * k), pol := b.getLsbD (9 + 16 * k), ix := b.extractLsb' (10 + 16 * k) 12 }

/-- Leaf A to D can be selected (02_bundle R24). -/
def selectable (ts : List Test) (k : Nat) : Bool :=
  let v (j : Nat) := (ts[j]?.map (·.valid)).getD false
  match k with
  | 0 => v 0 && v 1
  | 1 => v 0
  | 2 => v 2
  | 3 => v 3
  | _ => true

def slotOrder : List Slot := [.s0, .s1, .v0, .v1, .v2, .ld, .st, .cb, .cp, .sy, .ctl]

/-- The ops of a bundle in slot order, or why one is not an instruction. -/
def decodeOps (b : BitVec 1024) : List Slot → Except DecodeError (List (Slot × Instr))
  | [] => .ok []
  | s :: ss =>
    match decodeSlot b s, decodeOps b ss with
    | .error e, _ => .error e
    | _, .error e => .error e
    | .ok none, .ok l => .ok l
    | .ok (some i), .ok l => .ok ((s, i) :: l)

def Bundle.ctl (b : Bundle) : Option Instr := (b.ops.find? (·.1 == .ctl)).map (·.2)

def Bundle.hasTransfer (b : Bundle) : Bool := (b.ctl.map (·.isTransfer)).getD false

/-- The cases of 02_bundle R48 that depend on more than one op, less the delay-bundle case. -/
def Bundle.check (b : Bundle) : Option DecodeError :=
  if b.tests.any fun t => !t.valid && (t.pol || t.ix != 0) then some .unselectable
  else if (List.range 4).any fun k => !selectable b.tests k && b.targets[k]? != some 0 then some .unselectable
  else if b.hasTransfer && b.tests.any (·.valid) then some .transferWithTest
  else if !portsOk (b.ops.flatMap (·.2.ports)) then some .portConflict
  else if 4 < (b.ops.flatMap (·.2.masks)).dedup.length then some .masks
  else if !noDup (b.ops.flatMap (·.2.dests)) then some .sameDestination
  else none

/-- The reserved header bits and `BK` are 0 (02_bundle R19). -/
def headerOk (b : BitVec 1024) : Bool :=
  b.extractLsb' 4 4 == 0 && b.extractLsb' 22 2 == 0 && b.extractLsb' 38 2 == 0 && b.extractLsb' 54 2 == 0 &&
  b.extractLsb' 70 2 == 0

/-- Decoding of a bundle: total, rejecting by name (02_bundle R48). -/
def decodeBundle (b : BitVec 1024) : Except DecodeError Bundle :=
  if !headerOk b then .error .header
  else match decodeOps b slotOrder with
    | .error e => .error e
    | .ok ops =>
      let r : Bundle :=
        { ew := b.extractLsb' 0 4, tests := (List.range 4).map (testAt b),
          targets := (List.range 4).map fun k => b.extractLsb' (72 + 16 * k) 16, ops := ops }
      match r.check with
      | some e => .error e
      | none => .ok r

/-- A bundle as a number from its 128 bytes, byte 0 first (02_bundle R17, 00_scope R5). -/
def bundleOfBytes (bs : List Byte) : BitVec 1024 :=
  BitVec.ofNat 1024 (bs.foldr (fun b n => b.toNat + 256 * n) 0)

/-- The bundle that holds one instruction alone, with `EW` 0 and no test. -/
def Bundle.solo (s : Slot) (i : Instr) : Bundle :=
  { ew := 0, tests := List.replicate 4 ⟨false, false, 0⟩, targets := List.replicate 4 0, ops := [(s, i)] }

/-- The slot a one-op bundle holds an instruction in: the first that accepts it. -/
def Instr.slot (i : Instr) : Option Slot := slotOrder.find? fun s => i.accepts s

/-- Where a slot's word stands in the bundle (02_bundle R18). -/
def Slot.base : Slot → Nat
  | .s0 => 192 | .s1 => 256 | .v0 => 320 | .v1 => 416 | .v2 => 512 | .ld => 608 | .st => 704 | .cb => 800 | .cp => 896
  | .sy => 992 | .ctl => 136

/-- The slot that holds a word of a given width in the opcode table: SY words have 32 bits, CTL words 56, S words 64. -/
def tableSlot (nbits : Nat) : Slot := if nbits ≤ 32 then .sy else if nbits ≤ 56 then .ctl else .s1

/-- The bundle in which every bit is 0 but the given word of the slot. -/
def tableBundle (nbits w : Nat) : BitVec 1024 := BitVec.ofNat 1024 (w <<< (tableSlot nbits).base)

/-- The instruction the decoder reads from a table word: the word is laid into an otherwise empty bundle. -/
def decodeTableWord (nbits w : Nat) : Option Instr :=
  match decodeBundle (tableBundle nbits w) with
  | .ok b => b.ops.head?.map (·.2)
  | .error _ => none

end Sys2Proof
end

