-- ==== Sys2Proof/Machine/State.lean ====
section
/-! DEFINITION. The state of one VZ-12 package as plain data, the outcomes' reasons, and the state after reset.
A register file or memory is a `Tbl`: pairs of a key and a value in rising order of keys, in which an entry equal to
the default is never listed. -/

namespace Sys2Proof.Machine

/-- Pairs of a key and a value, keys strictly rising. -/
abbrev Tbl (α : Type) := List (Nat × α)

/-- Bytes by address; an unlisted address reads `Config.memDefault`. -/
abbrev Mem := List Host.Cell

/-! ## Contexts -/

/-- A scalar with its poison mark (06_scalar R124). -/
structure XVal where
  val  : Word
  mark : Bool
  deriving DecidableEq, Repr

/-- A sheet: lanes by lane index, 0 unlisted, and one mark per row (07_sheet R152, R158). -/
structure Sheet where
  lanes : Tbl Lane
  marks : BitVec 64
  deriving DecidableEq, Repr

/-- A mask: one bit per lane index, and one mark per row (07_sheet R152). -/
structure MaskV where
  bits  : BitVec 32768
  marks : BitVec 64
  deriving DecidableEq, Repr

/-- The states of a handle (10_memory R233). -/
inductive Hst
  | empty | valid | lazy | absent
  deriving DecidableEq, Repr

/-- A handle register (10_memory R233), and the ASID it was translated in, by which a change of a PTE finds it (R236). -/
structure Handle where
  hst    : Hst
  acause : Bool
  lease  : BitVec 6
  frame  : BitVec 37
  attr   : BitVec 10
  vbase  : BitVec 57
  xw     : Bool
  tasid  : BitVec 13
  deriving DecidableEq, Repr

/-- A flag word with its poison mark (12_sync R275). -/
structure FlagW where
  val  : BitVec 32
  mark : Bool
  deriving DecidableEq, Repr

/-- A loop-stack entry (04_sequencing R84). -/
structure LoopE where
  rot   : Bool
  start : BundleNo
  idx   : BitVec 23
  rem   : BitVec 23
  deriving DecidableEq, Repr

/-- The directions of a stream binding (07_sheet R156). -/
inductive SDir
  | unbound | input | output
  deriving DecidableEq, Repr

/-- A stream register (11_copy R267): its binding, the channel and descriptor it is bound to, the sheets the binding
carries, the sheets moved by the core, and the sheets now in its buffers, oldest first. -/
structure Stream where
  dir   : SDir
  chan  : Nat
  desc  : Nat
  total : Nat
  moved : Nat
  buf   : List Sheet
  deriving DecidableEq, Repr

/-- A vector cluster (04_sequencing R93). -/
inductive Clus
  | gated | waking (until_ : Nat) | awake
  deriving DecidableEq, Repr

/-- What a pending write writes: a physical register, a flag, or a stream push. -/
inductive PDest
  | x (n : Nat) | v (n : Nat) | m (n : Nat) | h (n : Nat) | flag (n : Nat) | push (k : Nat) (desc : Nat)
  deriving DecidableEq, Repr

/-- The value of a pending write. -/
inductive PVal
  | x (v : XVal) | v (s : Sheet) | m (k : MaskV) | h (h : Handle) | flag (f : FlagW)
  deriving DecidableEq, Repr

/-- A write in flight (04_sequencing R73, R78): it lands at beat `due` with its fpx flags (05_numbers R108), or, if it crosses
from the face windows of some blocks, once their droops have cleared (17_power R384). -/
structure Pending where
  due   : Nat
  dst   : PDest
  val   : PVal
  fpx   : BitVec 5
  arith : Bool                   -- a scalar or sheet op, for which accesses to fpx wait (05_numbers R108)
  seq   : Nat                    -- place in program order, for flag writes
  blks  : List Nat               -- blocks whose face windows its data comes from
  deriving DecidableEq, Repr

/-- A register locked until the access or engine op `id` lands it (04_sequencing R79). -/
structure Lock where
  dst : PDest
  id  : Nat
  deriving DecidableEq, Repr

/-- Per channel, what CPRD and CPDRN report to a context (11_copy R272, R273). -/
structure ChStat where
  done  : BitVec 32
  bytes : BitVec 64
  lerr  : BitVec 32
  nerr  : BitVec 32
  first : BitVec 32   -- earliest failure since the last CPDRN; 0 = none
  deriving DecidableEq, Repr

/-- A fence in force: its kind, its scope, and the accesses it orders are those with a smaller `seq` (12_sync R291). -/
structure FenceE where
  kind : BitVec 4
  scp  : Scope
  seq  : Nat
  deriving DecidableEq, Repr

/-- How a context ended (04_sequencing R91, 16_system R378). -/
inductive EndKind
  | byEnd (res : BitVec 32) | killed (cause : Nat)
  deriving DecidableEq, Repr

/-- A context resident in a bank (04_sequencing R70). `uid` tells contexts apart that use one bank in turn. -/
structure Ctx where
  uid      : Nat
  pc       : BundleNo
  loops    : List LoopE          -- loop0 first
  dly      : Nat
  dtgt     : BundleNo
  x        : Tbl XVal
  h        : Tbl Handle
  v        : Tbl Sheet           -- by physical sheet
  m        : Tbl MaskV           -- by physical mask, m0 never listed
  streams  : Tbl Stream
  clusters : Tbl Clus
  fpx      : BitVec 5
  fpm      : BitVec 3
  src      : BitVec 32
  srs      : BitVec 32
  vrb      : BitVec 4
  mrb      : BitVec 3
  stb      : Tbl Word
  bcnt     : Word
  card     : Word
  prio     : BitVec 3
  queue    : BitVec 6
  priv     : Bool
  rmask    : BitVec 64
  asid     : BitVec 13
  ncnt     : BitVec 32
  last     : BitVec 8
  held     : Nat                 -- the event code that holds the context; 0 = not held
  ended    : Option EndKind
  since    : Nat                 -- bundles since the last pre-emption point (R97)
  atPoint  : Bool                -- the last bundle was a pre-emption point (R95)
  dline    : Option BundleNo     -- the bundle that reached the deadline (R97)
  waitBts  : Nat                 -- consecutive beats held by an stb2 or stb4 cause (R96)
  unseat   : Bool                -- an unseating request is pending (R95)
  noSeat   : Bool                -- unseated by CUNS (16_system R376)
  pend     : List Pending        -- oldest first
  locks    : List Lock
  chans    : Tbl ChStat
  bad      : List Nat            -- clusters that self-test has retired under the context (18_platform R400)
  fences   : List FenceE
  ilockEnd : Nat                 -- beat at which an interlocked scratchpad load is complete (10_memory R238, R253)
  begun    : Nat                 -- beat of dispatch, for the order of R307
  deriving DecidableEq, Repr

/-- A seat (04_sequencing R71). -/
inductive Seat
  | free | seating (bank until_ : Nat) | seated (bank : Nat) | unseating (bank until_ : Nat)
  deriving DecidableEq, Repr

/-! ## Memory accesses -/

/-- Where an access takes effect (15_ordering R344). -/
inductive Home
  | here | peer (pkg : Nat) | host
  deriving DecidableEq, Repr

/-- One contiguous piece of a load: which row or lane it feeds and at which of its bytes, where it is read, the latency
class of the handle or window it is read through (10_memory R237), its bytes and mark once known, and the beat in which
they arrived. A piece from another package lies in one 128-byte block. -/
structure RdPiece where
  ix   : Nat
  ofs  : Nat
  home : Home
  addr : Nat
  len  : Nat
  lc   : Nat
  got  : Option (List Byte × Bool)
  at_  : Nat
  deriving DecidableEq, Repr

/-- One piece of a store: runs of bytes by address, one mark for all, and the peer window it goes through. A piece for
another package is one cell (14_fabric R324). -/
structure WrPiece where
  home : Home
  win  : Option Nat
  fall : Option Int               -- mirror mode: how far the fallback's addresses lie above the home's (14_fabric R332)
  runs : List (Nat × List Byte)
  poi  : Bool
  done : Bool
  deriving DecidableEq, Repr

/-- How the data of a load becomes its result (10_memory R246, 12_sync R294). -/
inductive LDest
  | none
  | x (n wid : Nat)
  | mask (n : Nat)
  | rows (n : Nat) (old : Sheet) (mk : MaskV) (masked mz : Bool) (bcast : Bool)
  | row (n r : Nat) (old : Sheet) (mk : MaskV) (masked mz : Bool)
  | gather (n : Nat) (old : Sheet) (mk : MaskV) (masked mz : Bool)
  deriving DecidableEq, Repr

inductive AccKind
  | load | store | amo
  deriving DecidableEq, Repr

/-- An access in flight: issued and not yet performed, or performed and not yet landed (15_ordering R346). -/
structure Access where
  id     : Nat
  bank   : Nat
  uid    : Nat
  seq    : Nat
  asid   : BitVec 13
  kind   : AccKind
  ilock  : Bool                   -- through the interlocked queue (R238)
  issued : Nat
  rd     : List RdPiece
  dest   : LDest
  wr     : List WrPiece
  amo    : Option AtomicArg
  acq    : Bool                   -- an atomic with .acq (12_sync R294)
  rel    : Option Scope           -- the scope at which earlier accesses must have performed first
  bad    : Bool                   -- refused or lost: it lands zeros with every mark (14_fabric R326, R327)
  sent   : Bool                   -- its cells have been sent
  hsent  : Bool                   -- its requests to the host have been handed to the link
  deriving DecidableEq, Repr

/-- A row of an AMOS that has not been applied (12_sync R295): the beat of its updates, its context and place in
program order, and for each lane the scratchpad address, the data and its mark, in lane order. -/
structure AmosRow where
  due   : Nat
  uid   : Nat
  seq   : Nat
  aop   : BitVec 5
  aw    : BitVec 3
  lanes : List (Nat × Word × Bool)
  deriving DecidableEq, Repr

/-- A release's flag write that waits for the accesses it orders (12_sync R280). -/
inductive FlagUpd
  | set (v : FlagW) | add (v : FlagW) | count | two (v w : FlagW) | bar (d a : Nat) (err : Bool)
  deriving DecidableEq, Repr

structure Release where
  id   : Nat
  bank : Nat
  uid  : Nat
  seq  : Nat
  due  : Nat
  late : Bool                     -- it waited past its first beat: it lands during a beat, not at its start (02_bundle R22)
  scp  : Scope
  ix   : Nat
  upd  : FlagUpd
  deriving DecidableEq, Repr

/-- A cached leaf (10_memory R230, R231). -/
structure TlbE where
  asid : BitVec 13
  page : Nat                      -- virtual address of the page's first byte
  big  : Bool                     -- 1 GB
  pte  : Word
  addr : Nat                      -- where the leaf lies in local HBM
  deriving DecidableEq, Repr

/-- What a translation in progress is for. -/
inductive WalkFor
  | xlt (id : Nat) (h : Nat) (xw : Bool)
  | lazy (h : Nat)
  deriving DecidableEq, Repr

/-- A translation in progress (10_memory R234, R236). -/
structure Walk where
  bank : Nat
  uid  : Nat
  asid : BitVec 13
  va   : BitVec 57
  why  : WalkFor
  deriving DecidableEq, Repr

/-- A host-shared page: asked for by the device, or by the host, and the beat of its last flip to the device
(10_memory R239, 18_platform R395). -/
structure FlipE where
  asid    : BitVec 13
  page    : Nat
  asked   : Bool
  refused : Bool
  hostReq : Bool
  back    : Bool                  -- `H` is set for the host's request, which waits for the device's accesses (18_platform R395)
  last    : Option Nat
  deriving DecidableEq, Repr

/-! ## The cube -/

inductive PKind
  | none | part | chain
  deriving DecidableEq, Repr

/-- A claim of a slot of an input ring (08_cube R191, 11_copy R270): by a copy or a RADV, and whether it is filled. -/
structure ClaimE where
  desc : Nat
  done : Bool
  deriving DecidableEq, Repr

/-- A ring (08_cube R189). `counted` is how many fills have been counted since configuration. -/
structure Ring where
  cfg     : RingCfg
  gen     : Nat
  fill    : Nat
  head    : Nat
  tail    : Nat
  rptr    : Nat
  counted : Nat
  claims  : List ClaimE
  deriving DecidableEq, Repr

/-- An entry of an op queue (08_cube R185) with its progress. -/
structure QEntry where
  gid     : Nat                   -- the op; one op of a chain or a reshape stands in several queues
  op      : Instr                 -- with the layers of the member in whose queue it stands
  bank    : Nat
  uid     : Nat
  seq     : Nat
  org     : Nat × Nat             -- logical position of the north-west cell of the member's footprint
  started : Bool
  steps   : Nat                   -- steps entered
  lastAt  : Nat                   -- cube cycle in which its last step entered
  rpA     : Nat
  rpB     : Nat
  curA    : Nat
  curB    : Nat
  halfs   : List (Nat × Nat)      -- active half of each block and face at its start
  srs     : BitVec 32
  src     : BitVec 32
  begun   : Nat                   -- cube cycle of its start
  deriving DecidableEq, Repr

/-- A CSUSP whose flag is to be set once some started ops, named by queue and op, have completed (09_partitions R223). -/
structure QuietFlag where
  flag : Nat
  bank : Nat
  uid  : Nat
  seq  : Nat
  ops  : List (Nat × Nat)
  deriving DecidableEq, Repr

/-- A partition or chain id (09_partitions R208, R209). -/
structure Part where
  kind    : PKind
  bank    : Nat
  uid     : Nat
  first   : Nat
  last    : Nat
  quads   : BitVec 4
  members : List Nat
  shape   : BitVec 2
  chain   : Option Nat
  queue   : List QEntry
  rings   : Tbl Ring
  curW    : Nat
  curN    : Nat
  issW    : Nat
  issN    : Nat
  tkW     : Nat
  tkN     : Nat
  susp    : Bool
  sflags  : List QuietFlag        -- flags of CSUSP that wait
  err     : Bool
  railHi  : Bool
  skip    : BitVec 32
  cyc     : Nat                   -- cube cycles it has run
  budget  : Nat                   -- cube cycles it may still run in this period
  step    : Nat                   -- the step applied in this period
  hop     : Option Nat            -- beat at which a hop ends
  hopHi   : Bool                  -- the rail the hop goes to
  hopWho  : Option Nat            -- the CRAIL whose hop it is
  heldLow : Option Nat            -- beat at which a hold ends (17_power R383)
  deriving DecidableEq, Repr

/-- What an id will be once every queued op has taken effect (08_cube R186). -/
structure TailP where
  kind    : PKind
  uid     : Nat
  first   : Nat
  last    : Nat
  quads   : BitVec 4
  members : List Nat
  shape   : BitVec 2
  chain   : Option Nat
  rings   : Tbl (Nat × RingCfg)   -- the configuration, and the op that makes it
  issW    : Nat
  issN    : Nat
  undr    : List Nat              -- 2 × layer + accumulator
  err     : Bool                  -- in the error state
  deriving DecidableEq, Repr

/-- A reshape op that has not yet taken effect (09_partitions R217). -/
structure Reshape where
  gid  : Nat
  op   : Instr
  uid  : Nat
  bank : Nat
  seq  : Nat
  ids  : List Nat
  met  : Option Nat               -- beat at which its last condition was met
  low  : List Nat                 -- blocks whose droop began during its hop (17_power R383)
  deriving DecidableEq, Repr

/-- A CQRY that reports at once (09_partitions R224). -/
structure QryE where
  gid  : Nat
  part : Nat
  op   : Instr
  bank : Nat
  uid  : Nat
  seq  : Nat
  due  : Nat
  seen : Option (List Byte)       -- the record, while its writing waits for older accesses (15_ordering R351)
  deriving DecidableEq, Repr

/-- A RADV that has issued and not yet acted on its rings (12_sync R290). Its claims bear its `id`. -/
structure RadvE where
  id      : Nat
  bank    : Nat
  uid     : Nat
  seq     : Nat
  ids     : List Nat
  ring    : Nat
  ns      : Nat
  claimed : Bool
  deriving DecidableEq, Repr

/-! ## The copy engine -/

/-- A layout record (11_copy R258): counts, strides, and sizes in bytes. -/
structure LRec where
  cnt   : List Nat
  sstr  : List Int
  dstr  : List Int
  valid : Bool
  asid  : BitVec 13
  resv  : Bool                    -- a reserved bit or value is set
  apr   : Bool
  trans : Nat
  sat   : Bool
  rnd   : Nat
  conv  : Nat
  ssz   : Nat
  abase : Word
  adst  : Word
  deriving DecidableEq, Repr

/-- A side of a copy (11_copy R261): a scratchpad-space address, a virtual address, a stream, or what CPYW and CPYR
write. -/
inductive Side
  | none
  | spad (a : Nat)
  | virt (va : Nat)
  | stream (k : Nat)
  | bank (part layer : Nat) (north : Bool) (ofs : Nat)
  | slot (part ring : Nat)
  deriving DecidableEq, Repr

inductive CopyKind
  | copy | sIn | sOut | weights | ring | drain | report | unbind
  deriving DecidableEq, Repr

/-- A descriptor in a channel's queue (11_copy R254). -/
structure Desc where
  id      : Nat
  kind    : CopyKind
  bank    : Nat
  uid     : Nat
  seq     : Nat
  asid    : BitVec 13
  rmask   : BitVec 64
  rec_    : LRec
  src     : Side
  dst     : Side
  cflag   : Nat
  cadd    : Bool
  rflag   : Bool
  bflag   : Nat
  str     : Nat
  srs     : BitVec 32
  srcC    : BitVec 32
  swaps   : List (Nat × Nat)      -- per member, the issued-swap count taken at issue
  places  : List (List Nat)       -- per member, where each quadrant's part of the bank it writes begins, as checked at issue
  gens    : List (Nat × Nat)      -- per member, the ring configuration checked against
  started : Bool
  claimed : Bool
  begun   : Nat
  pushed  : List Sheet            -- output binding that CPUB ended: sheets not yet written
  prev    : Sheet                 -- output binding: the sheet written last
  written : Nat                   -- stream sheets written or made poppable
  closed  : Option Nat            -- ended by CPUB with this many sheets
  bytes   : Nat                   -- destination bytes moved
  sent    : Bool                  -- everything is written, and what goes to other packages is sent
  home    : Option Home           -- of the first destination byte, once known
  got     : List (Nat × Byte)     -- bytes read from other packages, by pod physical address
  gotPoi  : List Nat
  moved   : Nat                   -- elements moved, of the copy or of the sheet that a binding moves
  part    : List (Nat × Byte × Bool) -- input binding: the bytes of that sheet, by stream offset, with their marks
  old     : List (Nat × Byte × Bool) -- local source bytes that the copy has overwritten, as they stood (11_copy R260)
  hostAsk : List Nat              -- host addresses asked for and not answered
  hostWr  : List Nat              -- host addresses written and not acknowledged
  ended   : Bool                  -- it has ended, and its flag at another package is not acknowledged (11_copy R255)
  err     : Option Nat            -- the error it has met
  deriving DecidableEq, Repr

/-- A cached layout record (11_copy R259). -/
structure LayE where
  asid : BitVec 13
  id   : Nat
  rec_ : LRec
  deriving DecidableEq, Repr

/-- An aperture start that waits for its record or for a place in the queue (11_copy R274): the data word, the ASID
of the record, and who wrote it. -/
structure ApStart where
  id   : Nat
  chan : Nat
  data : BitVec 32
  asid : BitVec 13
  bank : Option Nat
  uid  : Nat
  rmask : BitVec 64
  reply : Option (Nat × Nat)      -- package and tag to acknowledge
  deriving DecidableEq, Repr

/-! ## Jobs -/

/-- A card accepted and not yet ended (13_jobs R301 to R309). -/
structure Job where
  qmap   : Nat
  qaddr  : Nat
  idx    : Word
  card   : List Byte
  bank   : Option Nat
  uid    : Option Nat
  disp   : Option Nat             -- beat of dispatch
  acc    : Nat                    -- beat of acceptance
  resid  : Bool                   -- its context is resident
  chans  : Tbl ChStat             -- while it is not: its channel reports, and the notices it has received
  notes  : Nat
  last   : BitVec 8
  held   : Nat                    -- while its context is in memory: the code that holds it, 0 for none
  fences : List FenceE            -- and its fences in force (12_sync R291)
  final  : Option EndKind
  deriving DecidableEq, Repr

/-- A POST in progress (13_jobs R313). -/
structure PostE where
  id    : Nat
  bank  : Nat
  uid   : Nat
  seq   : Nat
  pkg   : Nat
  qaddr : Nat
  asid  : BitVec 13
  priv  : Bool
  card  : List Byte
  sent  : Bool
  deriving DecidableEq, Repr

/-! ## The fabric -/

/-- A port (14_fabric R317 to R320). Class totals are by class, 0 unlisted. -/
structure Port where
  up      : Bool
  lanes   : Nat
  txSeq   : BitVec 16
  rxSeq   : BitVec 16
  unack   : List Frame
  again   : List Frame            -- of those, the ones to be sent again, oldest first
  wire    : Option Frame          -- the frame sent last
  sent    : Tbl (BitVec 32)       -- cells this end has sent
  freed   : Tbl (BitVec 32)       -- buffers the other end has freed, as last received
  rxFreed : Tbl (BitVec 32)       -- buffers this end has freed
  rxSent  : Tbl (BitVec 32)       -- cells the other end has sent, as last received
  deriving DecidableEq, Repr

/-- A cell waiting to be sent, with the port its flow uses (14_fabric R319) and the request it is for. -/
structure TxCell where
  port : Nat
  cell : Cell
  req  : Option Nat
  deriving DecidableEq, Repr

/-- A cell received and not yet acted on; a grant covered it when it arrived (14_fabric R340). -/
structure RxCell where
  port  : Nat
  cell  : Cell
  grant : Bool
  deriving DecidableEq, Repr

/-- What an outstanding request is for (14_fabric R325). -/
inductive ReqFor
  | load (acc piece : Nat)
  | write (acc piece : Nat)
  | atomic (acc : Nat)
  | copyRead (desc chan : Nat)
  | copyWrite (desc chan : Nat) (mirror : List (Nat × Byte))
  | post (id : Nat)
  | flag (desc : Nat)
  | move (entry granule : Nat)
  | ask (m : LeaseMsg)
  | resv (id : Nat)
  deriving DecidableEq, Repr

/-- An outstanding request or posted cell (14_fabric R325, R327), with the tag its cell bears once it has one. -/
structure Req where
  id   : Nat
  tag  : Option (BitVec 12)
  dst  : Nat
  addr : Nat
  len  : Nat
  sent : Nat
  why  : ReqFor
  deriving DecidableEq, Repr

/-- A peer window (14_fabric R322, 06_scalar R146). -/
structure Window where
  cfg   : Bool
  pbase : BitVec 7
  peer  : BitVec 10
  wasid : BitVec 13
  ackd  : BitVec 32
  fail  : Bool
  out   : Nat
  lim   : Nat
  deriving DecidableEq, Repr

/-- A grant-table entry (14_fabric R326, R340). -/
structure Grant where
  any   : Bool
  pkg   : BitVec 10
  asid  : BitVec 13
  rd    : Bool
  wr    : Bool
  at_   : Bool
  ap    : Bool
  base  : Nat
  size  : Nat
  local_ : Bool
  deriving DecidableEq, Repr

/-- A reservation (14_fabric R321). -/
structure Resv where
  dst   : BitVec 10
  cls   : BitVec 2
  slots : Nat
  port  : Nat
  held  : Bool                    -- granted by every hop
  deriving DecidableEq, Repr

/-- The states of a lease entry (14_fabric R328). -/
inductive Lst
  | free | offered | active | recalling | returned | dead
  deriving DecidableEq, Repr

/-- A lease entry (14_fabric R328 to R343). Granules are named by their offset in the lease. -/
structure Lease where
  lst     : Lst
  mir     : Bool
  peer    : BitVec 10
  gcnt    : Nat
  pidx    : BitVec 7
  base    : Nat                   -- local address of the lent range at the lender
  fbase   : Nat
  vbase   : Nat
  asid    : BitVec 13
  lost    : List Nat              -- granules LOST
  disc    : List Nat              -- discarded granules, as the lender knows them
  moved   : List Nat              -- granules moved to the fallback
  part    : Tbl Nat               -- by granule that is moving: how many of its blocks have arrived
  discSet : Bool                  -- the discard set has been received or sent
  reason  : Nat
  start   : Nat                   -- beat the recall began
  since   : Nat                   -- beat from which its deadline counts (14_fabric R335)
  dline   : Option Nat
  flag    : Nat
  rbeats  : Nat
  who     : Option Nat            -- uid of the context whose LRCL this is
  whoBank : Nat
  zLender : Bool                  -- acceptance: the lender has zeroed the range
  zFall   : Bool                  -- acceptance: the fallback is zeroed
  dzero   : List Nat              -- discarded granules being zeroed, with the stage each has reached
  bflag   : Nat
  accept  : Bool                  -- LACC accepted it and waits for the zeroing
  deriving DecidableEq, Repr

/-- An op of the lease agent or the reservation and window logic that has not landed (14_fabric R339). -/
structure AgentOp where
  id   : Nat
  bank : Nat
  uid  : Nat
  op   : Instr
  xa   : Word
  xb   : Word
  blk  : List Byte
  asid : BitVec 13
  issued : Nat                    -- beat of issue
  ent  : Nat                      -- the entry or id it acts on, once known
  began : Bool
  deriving DecidableEq, Repr

/-- An EVPOP in progress and the beat it lands in (16_system R375), or an op of the context-control unit (R374) and,
once begun, the context it acts on. -/
structure CtlOp where
  id   : Nat
  bank : Nat                      -- the issuing bank
  uid  : Nat
  seq  : Nat
  op   : Instr
  xa   : Word
  xb   : Word
  due  : Nat
  who  : Nat
  began : Bool
  deriving DecidableEq, Repr

/-- An event whose record the vent has not yet pushed (16_system R366, R368). -/
structure VentE where
  at_   : Nat
  code  : Nat
  slot  : Nat
  half  : Bool
  held  : Bool
  bank  : Option Nat
  epc   : BundleNo
  eres  : BundleNo
  info1 : Word
  info2 : Word
  card  : BitVec 32
  stew  : Bool                    -- a fault of the steward
  deriving DecidableEq, Repr

/-! ## Power and platform -/

/-- A cone (17_power R387, R388): its previous code, since when it is unchanged, and whether it is substituted. -/
structure Cone where
  code  : BitVec 12
  since : Nat
  hist  : List (Nat × BitVec 12)  -- beats and codes of its changes, newest first, back to 2^20 beats ago
  seen  : Bool
  subst : Bool
  used  : BitVec 12
  deriving DecidableEq, Repr

/-- A self-test that an error has asked for (18_platform R400). That of a block begins at its partition's next op boundary, and
that of lanes in the next retraining; once begun, a block's has run `done` thirteenths of a cycle by `start`. -/
structure TestE where
  unit  : PartUnit
  begun : Bool
  start : Nat
  done  : Nat
  deriving DecidableEq, Repr

/-- An instruction-store load in progress (18_platform R405). -/
structure IsLoad where
  src   : Nat
  first : Nat
  count : Nat
  lflag : Nat
  uid   : Nat
  seq   : Nat
  began : Nat
  deriving DecidableEq, Repr

/-- Why a steward image is refused (18_platform R406): its container, its signature, the parameter types of the signature, or
its security version. -/
inductive ImageFault
  | container | signature | types | version
  deriving DecidableEq, Repr

/-- An answer or request the package has handed to the host adapter. -/
inductive HostMsg
  | data (bytes : List Byte) (poi : Bool)
  | done
  | error
  | load (acc addr len : Nat)
  | store (acc addr : Nat) (bytes : List Byte)
  | atomic (acc addr : Nat) (arg : AtomicArg)
  | flip (asid page : Nat)
  | flipBack (asid page : Nat)
  | report (bytes : List Byte)
  | refusedImage (cause : ImageFault)
  deriving DecidableEq, Repr

/-- A link frame that the package sends (18_platform R393): its number, the acknowledgement of frames received, its payload,
which holds whole messages and parts of them, each with its bytes here, and its CRC. -/
structure OutFrame where
  seq  : BitVec 16
  ackd : BitVec 16
  parts : List (HostMsg × List Byte)
  msgs : List HostMsg             -- the messages whose last byte it holds
  crc  : BitVec 32
  deriving DecidableEq, Repr

/-- The core: seats, issue selector and energy window (04_sequencing R71 to R77, 17_power R385). -/
structure Core where
  beat    : Nat
  seats   : Tbl Seat              -- by seat 0-3; unlisted: free
  want    : Tbl Nat               -- the bank CSEAT asked a seat for
  running : Fin 4
  runCtr  : Nat
  yielded : Bool                  -- the running context has given up the issue width by YIELD or LEND (R75)
  adrift  : Bool                  -- it has given it up and no context has taken it (R75)
  window  : List (Nat × Nat)      -- beat and EW of each bundle issued in the last 63 beats, newest first
  ins     : BitVec 32
  banks   : Tbl Ctx
  ctlOps  : List CtlOp
  evpops  : List CtlOp
  bsel    : BitVec 4
  asel    : BitVec 13
  lsel    : BitVec 7
  deriving DecidableEq, Repr

/-- Memory and translation. -/
structure MemSys where
  mem    : Mem                    -- by local address (10_memory R232)
  poison : List Nat               -- marked lines, by local address / 64
  istore : Mem                    -- by byte address of the instruction store
  flags  : Tbl FlagW
  flagSeq : Tbl Nat               -- by flag: the number after the newest write its word shows (12_sync R277)
  touched : List (Nat × List Nat) -- regions of the hearth scratchpad that the core touched, by beat, back to the last (10_memory R227)
  flagsWas : Tbl (FlagW × List Nat) -- words changed at the start of this beat, as they stood before it, and by which contexts (12_sync R281)
  ptb    : Tbl Word
  ltb    : Tbl Word
  tlb    : List TlbE
  walks  : List Walk
  flips  : List FlipE
  flight : List Access            -- in program order
  amos   : List AmosRow           -- oldest first
  amosEnd : Option Nat            -- beat at which the AMOS in progress ends, whatever has become of its context (12_sync R295)
  rels   : List Release
  pmiss  : Tbl Word
  laycache : List LayE
  laymiss : List (Nat × Nat)      -- ASID and id of records being read
  hostLost : Bool
  deriving DecidableEq, Repr

/-- The cube. -/
structure Cube where
  parts   : Tbl Part
  tails   : Tbl TailP
  resh    : List Reshape
  qrys    : List QryE
  radvs   : List RadvE            -- oldest first
  acc     : Tbl Lane              -- by 65,536 × (2 × block + accumulator) + 256 × row + column
  accMark : List Nat              -- by 256 × (2 × block + accumulator) + row
  undr    : List Nat              -- by 2 × block + accumulator
  wbank   : Mem                   -- by 6 MB × (2 × (2 × block + face) + half) + offset in the block's part
  wpoison : List Nat              -- 64-byte lines of wbank
  foreign : List Nat              -- 64 KB segments of wbank
  half    : Tbl Nat               -- the active half, by 2 × block + face
  halfT   : Tbl Nat               -- the half that will be active once every queued CSWP has taken effect (08_cube R194)
  errNext : Tbl (Nat × Nat × Nat) -- ids in error that are still to be made (09_partitions R218): uid, bank, discarded reshape
  owner   : Tbl Nat               -- ASID + 1 that last held each block
  deriving DecidableEq, Repr

/-- The copy engine. -/
structure Copy where
  queues : Tbl (List Desc)
  apert  : List ApStart
  busy   : Tbl (Nat × Nat)        -- by channel: the beat it last moved in, and the bytes moved in it (11_copy R256)
  deriving DecidableEq, Repr

/-- The scheduler and the vent. -/
structure Sched where
  qmap     : Tbl Word
  qbad     : List Nat             -- qmap numbers treated as empty
  jobs     : List Job
  toMap    : List (Nat × Bool)    -- qmap numbers whose descriptor or records wait for their units, and whether still to be mapped (R399)
  seen     : Tbl (Nat × Nat)      -- by qmap: the index first seen below TAIL, and when
  pendAt   : Tbl Nat              -- by qmap: since when its next card has been pending (R304)
  lastQ    : Tbl Nat              -- by priority
  lastDisp : Option Nat
  idle     : Option Nat           -- since when no mapped queue has had a runnable next card (R311)
  regions  : Tbl Nat              -- owner uid of a held region
  posts    : List PostE
  ventQ    : List VentE
  vhead    : BitVec 32
  vtail    : BitVec 32
  vdrop    : BitVec 32
  unpopped : List (Option Nat × Bool)  -- records in the vent, oldest first: the bank named, and whether of a steward fault
  deriving DecidableEq, Repr

/-- The fabric, windows and leases. -/
structure Fabric where
  ports   : Tbl Port
  txq     : List TxCell
  inbox   : List RxCell
  reqs    : List Req
  nextTag : Nat
  windows : Tbl Window
  grants  : Tbl Grant
  lost    : List Nat
  resv    : Tbl Resv
  leases  : Tbl Lease
  agent   : List AgentOp
  deriving DecidableEq, Repr

/-- Power. -/
structure Power where
  lowBlk  : List Nat              -- blocks on the low rail
  droop   : Tbl Nat               -- blocks in a droop, with the beat since when its cycles are to be counted
  held    : Tbl Nat               -- blocks held low outside a partition, with the beat at which the hold ends (R383)
  slump   : Tbl (BitVec 32)
  ccap    : BitVec 12
  grant   : BitVec 10
  steps   : Tbl Nat               -- by logical layer
  cones   : Tbl Cone
  lastSample : Option Nat
  lastDamp : Option Nat
  emerg   : Bool
  deriving DecidableEq, Repr

/-- Start-up, repair, host link and security (18_platform). -/
structure Plat where
  pkg     : BitVec 10             -- this package's id in the pod (06_scalar R149): nothing in the model writes it
  rport   : List Nat
  rrgn    : List Nat
  rblk    : List Nat
  rch     : List Nat
  rhbm    : List Nat
  rcxl    : List Nat
  rlay    : List Nat
  spare   : Bool
  darkSet : Bool
  lanes   : Nat
  rspc    : List Nat
  rwrm    : BitVec 32
  rtrn    : BitVec 32
  rpint   : Tbl Nat               -- log2 of the refresh interval; unlisted: 26
  xrgn    : List Nat              -- retired regions
  xblk    : List Nat
  xch     : List Nat
  xhbm    : List Nat
  xcxl    : List Nat
  xclus   : List Nat              -- bank clusters absent, 4 × bank + cluster
  xlane   : Tbl Nat               -- lanes retired, by fabric port; 64: of the Gradric link
  failedL : List Nat              -- failed physical layers
  xlay    : List Nat              -- physical layers that hold a retired block, or are retired themselves (18_platform R404)
  dark    : List Nat              -- dark logical layers
  tests   : List TestE
  isrc    : BitVec 41
  isldFirst : BitVec 16
  isldCnt : BitVec 16
  isldFlag : BitVec 12
  isBusy  : Bool
  isErr   : Bool
  isDone  : BitVec 17
  load    : Option IsLoad
  hTx     : BitVec 16
  hRx     : BitVec 16
  hUnack  : List OutFrame
  hAgain  : List OutFrame         -- of those, the ones to be sent again
  hWire   : Option OutFrame       -- the frame sent last
  hOfs    : Nat                   -- bytes already sent of the first message of hostOut
  hDown   : Option Nat            -- beat since when the link has been down
  hostIn  : List (HostReq × Option Grant) -- with the grant that covered it when it arrived
  hostOut : List HostMsg
  patCnt  : Tbl Nat               -- corrected lines of the interval, by layer
  patQuiet : Tbl Nat
  patAt   : Tbl Nat
  stewHash : List Byte
  stewVer : BitVec 32
  stewEntry : BundleNo
  stewLen : Nat                   -- bundles of the steward's text
  leaf    : Nat
  started : Bool
  deriving DecidableEq, Repr

/-- The whole package. `agenda` is the schedule of happenings that nothing in the package decides, `arg` the operand
of the one taking place, `free` counts the free values used, and `ids` and `seq` number accesses and queue entries in
program order: all five are the model's own (log 1, log 8). -/
structure State where
  core   : Core
  ms     : MemSys
  cube   : Cube
  copy   : Copy
  sched  : Sched
  fab    : Fabric
  pow    : Power
  plat   : Plat
  agenda : List (Instr × Arg)
  arg    : Arg
  free   : Nat
  ids    : Nat
  seq    : Nat
  deriving DecidableEq, Repr

/-- Why the machine stops: never, since the spec gives every happening an effect. -/
inductive Fault
  deriving DecidableEq, Repr

/-- Why an instruction has no meaning. -/
inductive Refusal
  /-- Raised by an arm of `exec` whose instruction is not modelled. Safe: nothing is claimed of it. -/
  | notModelled (mnemonic : String)
  deriving DecidableEq, Repr

/-! ## Reset -/

/-- A context with every register 0 and nothing pending (04_sequencing R74, 05_numbers R110, 10_memory R233). -/
def Ctx.zero : Ctx :=
  { uid := 0, pc := 0, loops := [], dly := 0, dtgt := 0, x := [], h := [], v := [], m := [], streams := [],
    clusters := [], fpx := 0, fpm := 0, src := 0, srs := 0, vrb := 0, mrb := 0, stb := [], bcnt := 0, card := 0,
    prio := 0, queue := 0, priv := false, rmask := 0, asid := 0, ncnt := 0, last := 0, held := 0,
    ended := none, since := 0, atPoint := false, dline := none, waitBts := 0, unseat := false, noSeat := false,
    pend := [], locks := [], chans := [], bad := [], fences := [], ilockEnd := 0, begun := 0 }

/-- The address of the readiness block, which x1 holds at the start (18_platform R397, R398). -/
def readyBlock : Nat := 0x0FFF7E80

/-- The steward as started by 18_platform R397 step 4. Its clusters are awake (log 5). -/
def Ctx.steward (entry : BundleNo) : Ctx :=
  { Ctx.zero with
    pc := entry, x := [(1, ⟨BitVec.ofNat 64 readyBlock, false⟩)],
    clusters := [(0, .awake), (1, .awake), (2, .awake), (3, .awake)], priv := true, rmask := BitVec.allOnes 64 }

def Core.reset : Core :=
  { beat := 0, seats := [(0, .seated 15)], want := [], running := 0, runCtr := 0, yielded := false, adrift := false, window := [],
    ins := 0, banks := [(15, Ctx.steward 0)], ctlOps := [], evpops := [], bsel := 15, asel := 0, lsel := 0 }

def MemSys.reset : MemSys :=
  { mem := [], poison := [], istore := [], flags := [], flagSeq := [], touched := [], flagsWas := [], ptb := [], ltb := [], tlb := [], walks := [],
    flips := [], flight := [], amos := [], amosEnd := none, rels := [], pmiss := [], laycache := [], laymiss := [], hostLost := false }

def Cube.reset : Cube :=
  { parts := [], tails := [], resh := [], qrys := [], radvs := [], acc := [], accMark := [], undr := [], wbank := [], wpoison := [],
    foreign := [], half := [], halfT := [], errNext := [], owner := [] }

def Copy.reset : Copy := { queues := [], apert := [], busy := [] }

def Sched.reset : Sched :=
  { qmap := [], qbad := [], toMap := [], jobs := [], seen := [], pendAt := [], lastQ := [], lastDisp := none, idle := some 0,
    regions := [], posts := [], ventQ := [], vhead := 0, vtail := 0, vdrop := 0, unpopped := [] }

def Fabric.reset : Fabric :=
  { ports := [], txq := [], inbox := [], reqs := [], nextTag := 1, windows := [], grants := [], lost := [], resv := [],
    leases := [], agent := [] }

def Power.reset : Power :=
  { lowBlk := [], droop := [], held := [], slump := [], ccap := 0xFFF, grant := 1023, steps := [], cones := [], lastSample := none,
    lastDamp := none, emerg := false }

/-- Step 1 of 18_platform R397 has found no region, channel or cluster failing (log 2), so the regions and channels are
ready. That the package is number 0 is a DESIGN CHOICE (06_scalar R149 gives none, log 6): nothing rests on the number, and
it never changes. -/
def Plat.reset : Plat :=
  { pkg := 0, rport := [], rrgn := List.range 64, rblk := [], rch := List.range 16, rhbm := [], rcxl := [], rlay := [],
    spare := false, darkSet := false, lanes := 0, rspc := [], rwrm := 0, rtrn := 0, rpint := [], xrgn := [], xblk := [],
    xch := [], xhbm := [], xcxl := [], xclus := [], xlane := [], failedL := [], xlay := [], dark := [], tests := [],
    isrc := 0, isldFirst := 0, isldCnt := 0, isldFlag := 0, isBusy := false, isErr := false, isDone := 0, load := none,
    hTx := 0, hRx := 0, hUnack := [], hAgain := [], hWire := none, hOfs := 0, hDown := some 0, hostIn := [], hostOut := [], patCnt := [], patQuiet := [],
    patAt := [], stewHash := [], stewVer := 0, stewEntry := 0, stewLen := 0, leaf := 0, started := true }

/-- The machine right after the start of 18_platform R397 step 4 (log 2). -/
def State.reset : State :=
  { core := Core.reset, ms := MemSys.reset, cube := Cube.reset, copy := Copy.reset, sched := Sched.reset,
    fab := Fabric.reset, pow := Power.reset, plat := Plat.reset, agenda := [], arg := .none, free := 0, ids := 1,
    seq := 0 }

end Sys2Proof.Machine
end

