-- ==== Sys2Proof/Machine/Ops.lean ====
section
/-! DEFINITION. The named operations over tables, memory, registers, flags and seats, the pushing of event records,
taking an exception, and the return from one. -/

namespace Sys2Proof.Machine

/-! ## Tables -/

/-- The value of a key, if listed. -/
def tfind {α : Type} (t : Tbl α) (k : Nat) : Option α := (t.find? fun e => e.1 == k).map (·.2)

/-- The value of a key, or the default. -/
def tget {α : Type} (t : Tbl α) (k : Nat) (d : α) : α := (tfind t k).getD d

/-- Remove a key. -/
def tdel {α : Type} (t : Tbl α) (k : Nat) : Tbl α := t.filter fun e => e.1 != k

/-- Set a key, keeping keys in rising order. -/
def tins {α : Type} (t : Tbl α) (k : Nat) (v : α) : Tbl α :=
  (t.filter fun e => decide (e.1 < k)) ++ (k, v) :: t.filter fun e => decide (k < e.1)

/-- Set a key; an entry equal to the default is not listed. -/
def tput {α : Type} [DecidableEq α] (t : Tbl α) (k : Nat) (v d : α) : Tbl α := if v = d then tdel t k else tins t k v

/-- Add to a rising list of numbers. -/
def sadd (l : List Nat) (n : Nat) : List Nat := l.filter (fun m => decide (m < n)) ++ n :: l.filter fun m => decide (n < m)

/-- Remove from a list of numbers. -/
def sdel (l : List Nat) (n : Nat) : List Nat := l.filter (· != n)

/-- Add or remove. -/
def sset (l : List Nat) (n : Nat) (b : Bool) : List Nat := if b then sadd l n else sdel l n

/-! ## Bytes -/

/-- The little-endian number of some bytes (00_scope R5). -/
def leNat (bs : List Byte) : Nat := bs.foldr (fun b n => b.toNat + 256 * n) 0

/-- The `n` little-endian bytes of a number. -/
def leBytes (n v : Nat) : List Byte := (List.range n).map fun i => BitVec.ofNat 8 (v >>> (8 * i))

/-- Bits `hi..lo` of a number, `len` of them. -/
def bitsOf (v lo len : Nat) : Nat := (v >>> lo) % 2 ^ len

/-! ## Plain memories -/

def memByte (m : Mem) (a : Nat) : Byte := tget m a Config.memDefault

/-- `n` bytes from address `a` upward. -/
def memRead (m : Mem) (a n : Nat) : List Byte := (List.range n).map fun i => memByte m (a + i)

/-- The cells of some bytes from address `a`, those that differ from the default. -/
def memCells (a : Nat) : List Byte → Mem
  | [] => []
  | b :: bs => if b = Config.memDefault then memCells (a + 1) bs else (a, b) :: memCells (a + 1) bs

/-- Replace the bytes from address `a` upward. -/
def memWrite (m : Mem) (a : Nat) (bs : List Byte) : Mem :=
  (m.filter fun e => decide (e.1 < a)) ++ memCells a bs ++ m.filter fun e => decide (a + bs.length ≤ e.1)

/-- The canonical form of a memory: addresses strictly rising, no entry equal to the default. -/
abbrev Memory.wf (m : Mem) : Prop :=
  (m.map (·.1)).Pairwise (· < ·) ∧ ∀ e ∈ m, e.2 ≠ Config.memDefault

/-! ## The address space (10_memory R225, R232) -/

/-- The local address of scratchpad-space address 0 (10_memory R232). -/
def spadBase : Nat := 0xF00000000000

/-- A range lies in local HBM. -/
def inHbm (a n : Nat) : Bool := decide (a + n ≤ 0x8000000000)

/-- A range lies in the present part of one CXL port's window. -/
def inTier2 (a n : Nat) : Bool :=
  decide (0x100000000000 ≤ a) && decide (a < 0x200000000000) && decide (a % 0x20000000000 + n ≤ 0x18000000000)

/-- A range lies in the scratchpad alias. -/
def inAlias (a n : Nat) : Bool := decide (spadBase ≤ a) && decide (a + n ≤ spadBase + 0x100000000)

/-- A range is present at this package (10_memory R232). -/
def present (a n : Nat) : Bool := inHbm a n || inTier2 a n || inAlias a n

/-- The areas of the scratchpad space (10_memory R225). -/
inductive Area
  | hearth | face | flags | aperture | window (w : Nat) | reserved
  deriving DecidableEq, Repr

def area (a : Nat) : Area :=
  if a < 0x10000000 then .hearth
  else if a < 0x1C000000 then .face
  else if a < 0x1C004000 then .flags
  else if decide (0x1C010000 ≤ a) && decide (a < 0x1C010400) then .aperture
  else if decide (0x20000000 ≤ a) && decide (a < 0x40000000) then .window ((a - 0x20000000) / 0x2000000)
  else .reserved

/-- The flag whose word holds a scratchpad-space address of the flag array. -/
def flagOf (a : Nat) : Nat := (a - 0x1C000000) / 4

/-! ## Flags (02_bundle R21, 12_sync R275) -/

/-- The word of a flag: f4094 reads 0 and f4095 reads 1. -/
def State.flag (s : State) (n : Nat) : FlagW :=
  if n = 4094 then ⟨0, false⟩ else if n = 4095 then ⟨1, false⟩ else tget s.ms.flags n ⟨0, false⟩

/-- A write of a flag word, with its place in the order of the word's writes; one to f4094 or f4095 is discarded. -/
def State.putFlag (s : State) (n : Nat) (v : FlagW) (seq : Nat) : State :=
  if 4094 ≤ n then s
  else { s with ms := { s.ms with flags := tput s.ms.flags n v ⟨0, false⟩, flagSeq := tput s.ms.flagSeq n seq 0 } }

/-- A write of a flag word that performs now: it follows every write of the word so far (12_sync R277). -/
def State.setFlag (s : State) (n : Nat) (v : FlagW) : State := s.putFlag n v s.seq

/-- What a word held is kept for the waits of a beat at whose start it changes (12_sync R281). -/
def State.noteFlag (s : State) (uid n : Nat) : State :=
  let was := (tfind s.ms.flagsWas n).getD (s.flag n, [])
  { s with ms := { s.ms with flagsWas := tins s.ms.flagsWas n (was.1, uid :: was.2) } }

/-- A write that lands at the start of a beat. -/
def State.landFlag (s : State) (uid n : Nat) (v : FlagW) : State := (s.noteFlag uid n).setFlag n v

/-- A flag write of a compare that landed later than a write issued after it changes nothing: the writes of a word
follow the order of their issue (15_ordering R349), and a test sees a compare's write from its landing on
(02_bundle R22; DEDUCED, log 35). -/
def State.landCompare (s : State) (uid n seq : Nat) (v : FlagW) : State :=
  if tget s.ms.flagSeq n 0 ≤ seq then (s.noteFlag uid n).putFlag n v (seq + 1) else s

/-- This package's id in the pod (06_scalar R149). -/
def State.pkg (s : State) : Nat := s.plat.pkg.toNat

/-! ## Contexts, seats and registers -/

/-- The context of a bank; an empty bank holds the zero context. -/
def State.ctx (s : State) (b : Nat) : Ctx := tget s.core.banks b Ctx.zero

/-- A bank holds a context. -/
def State.hasCtx (s : State) (b : Nat) : Bool := (tfind s.core.banks b).isSome

def State.setCtx (s : State) (b : Nat) (c : Ctx) : State :=
  { s with core := { s.core with banks := tins s.core.banks b c } }

/-- Change the context of a bank, if there is one. -/
def State.modCtx (s : State) (b : Nat) (f : Ctx → Ctx) : State :=
  match tfind s.core.banks b with
  | some c => s.setCtx b (f c)
  | none => s

/-- The seat `k`. -/
def State.seat (s : State) (k : Nat) : Seat := tget s.core.seats k .free

def State.setSeat (s : State) (k : Nat) (v : Seat) : State :=
  { s with core := { s.core with seats := tput s.core.seats k v .free } }

/-- The bank seated in a seat, past the beats of seating. -/
def State.seated (s : State) (k : Nat) : Option Nat :=
  match s.seat k with
  | .seated b => some b
  | _ => none

/-- The seat a bank holds or is being seated in. -/
def State.seatOf (s : State) (b : Nat) : Option Nat :=
  (List.range 4).find? fun k => match s.seat k with
    | .seated b' => b' == b
    | .seating b' _ => b' == b
    | _ => false

/-- The bank of the running context. -/
def State.cur (s : State) : Nat := (s.seated s.core.running).getD 0

/-- A scalar; x0 reads 0 (06_scalar R124). -/
def Ctx.xv (c : Ctx) (n : Nat) : XVal := if n = 0 then ⟨0, false⟩ else tget c.x n ⟨0, false⟩

def Ctx.xw (c : Ctx) (n : XReg) : Word := (c.xv n.toNat).val

def Ctx.xm (c : Ctx) (n : XReg) : Bool := (c.xv n.toNat).mark

/-- A write to a scalar; one to x0 is discarded. -/
def Ctx.setX (c : Ctx) (n : Nat) (v : XVal) : Ctx := if n = 0 then c else { c with x := tput c.x n v ⟨0, false⟩ }

def Handle.zero : Handle := ⟨.empty, false, 0, 0, 0, 0, false, 0⟩

def Ctx.hv (c : Ctx) (n : Nat) : Handle := tget c.h n Handle.zero

def Ctx.setH (c : Ctx) (n : Nat) (v : Handle) : Ctx := { c with h := tput c.h n v Handle.zero }

def Sheet.zero : Sheet := ⟨[], 0⟩

def MaskV.zero : MaskV := ⟨0, 0⟩

def MaskV.ones : MaskV := ⟨BitVec.allOnes 32768, 0⟩

/-- A physical sheet; every row of a retired cluster's is marked (18_platform R400). -/
def Ctx.vv (c : Ctx) (p : Nat) : Sheet :=
  if c.bad.contains (p / 8) then { tget c.v p Sheet.zero with marks := BitVec.allOnes 64 } else tget c.v p Sheet.zero

/-- The cluster of a physical sheet (04_sequencing R93). -/
def Ctx.clus (c : Ctx) (k : Nat) : Clus := tget c.clusters k .gated

/-- A write to a sheet; a gated cluster holds nothing (04_sequencing R93). -/
def Ctx.setV (c : Ctx) (p : Nat) (v : Sheet) : Ctx :=
  if c.clus (p / 8) = .gated then c else { c with v := tput c.v p v Sheet.zero }

/-- A physical mask; m0 reads all ones (02_bundle R34). -/
def Ctx.mv (c : Ctx) (p : Nat) : MaskV := if p = 0 then MaskV.ones else tget c.m p MaskV.zero

/-- A write to a mask; one to m0 is discarded. -/
def Ctx.setM (c : Ctx) (p : Nat) (v : MaskV) : Ctx := if p = 0 then c else { c with m := tput c.m p v MaskV.zero }

/-- The physical sheet of a name (04_sequencing R85). -/
def Ctx.physV (c : Ctx) (n : Nat) : Nat := if n < 16 then n else 16 + (n - 16 + c.vrb.toNat) % 16

/-- The physical mask of a name (04_sequencing R85). -/
def Ctx.physM (c : Ctx) (n : Nat) : Nat := if n < 8 then n else 8 + (n - 8 + c.mrb.toNat) % 8

def Stream.none : Stream := ⟨.unbound, 0, 0, 0, 0, []⟩

def Ctx.strm (c : Ctx) (k : Nat) : Stream := tget c.streams k Stream.none

def Ctx.setStrm (c : Ctx) (k : Nat) (v : Stream) : Ctx := { c with streams := tput c.streams k v Stream.none }

def ChStat.zero : ChStat := ⟨0, 0, 0, 0, 0⟩

def Ctx.chst (c : Ctx) (k : Nat) : ChStat := tget c.chans k ChStat.zero

def Ctx.setChst (c : Ctx) (k : Nat) (v : ChStat) : Ctx := { c with chans := tput c.chans k v ChStat.zero }

def Ctx.stall (c : Ctx) (k : Nat) : Word := tget c.stb k 0

def Ctx.setStall (c : Ctx) (k : Nat) (v : Word) : Ctx := { c with stb := tput c.stb k v 0 }

/-- The bank of a context by its uid, if it is still resident: the one it was last known in, or the one it has since been
restored to. -/
def State.bankOf (s : State) (uid bank : Nat) : Option Nat :=
  if s.hasCtx bank && (s.ctx bank).uid == uid then some bank
  else (s.core.banks.find? fun e => e.2.uid == uid).map (·.1)

/-- The flag writes of compares that have not landed, with their place in program order. -/
def Ctx.comparing (c : Ctx) (n : Nat) : List (Nat × FlagW) :=
  c.pend.filterMap fun p => match p.dst, p.val with
    | .flag k, .flag v => if k = n then some (p.seq, v) else none
    | _, _ => none

/-- The newest write of a flag word, which every read but a test, a SEL and a wait returns (12_sync R277): that of a
compare takes its place at issue (15_ordering R349). -/
def State.flagNow (s : State) (n : Nat) : FlagW :=
  if 4094 ≤ n then s.flag n
  else (((List.range 16).flatMap fun b => (s.ctx b).comparing n).foldl (fun b w => if b.1 ≤ w.1 then (w.1 + 1, w.2) else b)
    (tget s.ms.flagSeq n 0, s.flag n)).2

/-- A fresh name for an access, descriptor, queue entry or context. -/
def State.fresh (s : State) : State := { s with ids := s.ids + 1 }

/-! ## Bytes that the device keeps -/

def bitsNat (l : List Nat) : Nat := l.foldl (fun n k => n + 2 ^ k) 0

/-- Banks with a held context (16_system R366). -/
def State.heldMask (s : State) : Nat := bitsNat ((List.range 16).filter fun b => (s.ctx b).held != 0)

/-- The status block (16_system R366). -/
def State.statusBytes (s : State) : List Byte :=
  leBytes 4 s.sched.vhead.toNat ++ leBytes 4 s.sched.vtail.toNat ++ leBytes 4 s.sched.vdrop.toNat ++
  leBytes 2 s.heldMask ++ leBytes 2 0 ++
  ((List.range 3).flatMap fun k => leBytes 8 (tget s.ms.pmiss k 0).toNat) ++ leBytes 88 0

/-- The readiness block (18_platform R398). -/
def State.readyBytes (s : State) : List Byte :=
  let p := s.plat
  let up (k : Nat) : Bool := match tfind s.fab.ports k with
    | some q => q.up
    | none => false
  leBytes 8 (bitsNat (p.rport.filter up)) ++ leBytes 8 (bitsNat p.rrgn) ++ leBytes 8 (bitsNat p.rblk) ++ leBytes 2 (bitsNat p.rch) ++
  leBytes 1 (bitsNat p.rhbm) ++ leBytes 1 (bitsNat p.rcxl) ++
  leBytes 2 (bitsNat p.rlay + (if p.spare then 4096 else 0) + (if p.darkSet then 8192 else 0)) ++
  leBytes 1 (p.lanes + if p.lanes = 0 then 0 else 128) ++ leBytes 1 (bitsNat p.rspc) ++
  leBytes 8 (bitsNat ((List.range 64).filter fun k => !p.xclus.contains k)) ++
  leBytes 4 p.rwrm.toNat ++ leBytes 4 p.rtrn.toNat ++
  ((List.range 12).flatMap fun l => leBytes 1 (tget p.rpint l 26)) ++ leBytes 68 0

def Cone.none : Cone :=
  { code := 0, since := 0, hist := [], seen := false, subst := false, used := 0 }

def Part.none : Part :=
  { kind := .none, bank := 0, uid := 0, first := 0, last := 0, quads := 0, members := [], shape := 0, chain := Option.none,
    queue := [], rings := [], curW := 0, curN := 0, issW := 0, issN := 0, tkW := 0, tkN := 0, susp := false, sflags := [],
    err := false, railHi := true, skip := 0, cyc := 0, budget := 0, step := 0, hop := Option.none,
    hopHi := true, hopWho := Option.none, heldLow := Option.none }

def State.part (s : State) (p : Nat) : Part := tget s.cube.parts p Part.none

def State.setPart (s : State) (p : Nat) (v : Part) : State :=
  { s with cube := { s.cube with parts := tput s.cube.parts p v Part.none } }

def State.modPart (s : State) (p : Nat) (f : Part → Part) : State := s.setPart p (f (s.part p))

/-- The quadrants of a set, ascending. -/
def quadList (q : BitVec 4) : List Nat := (List.range 4).filter fun i => q.getLsbD i

/-- The blocks of a box (09_partitions R208). -/
def blocksOf (first last : Nat) (q : BitVec 4) : List Nat :=
  (List.range (last + 1 - first)).flatMap fun i => (quadList q).map fun j => 4 * (first + i) + j

def Part.blocks (p : Part) : List Nat := if p.kind = .part ∧ p.quads ≠ 0 then blocksOf p.first p.last p.quads else []

/-- The partition that holds a block. -/
def State.partOfBlock (s : State) (b : Nat) : Option Nat :=
  (List.range 16).find? fun p => (s.part p).blocks.contains b

/-! ## Ports of the scratchpad regions (10_memory R227) -/

/-- The core touches some ranges of the hearth scratchpad in this beat. -/
def State.touch (s : State) (rs : List (Nat × Nat)) : State :=
  if rs = [] then s
  else
    let of (r : Nat × Nat) : List Nat := (List.range ((r.1 + r.2 - 1) / 2 ^ 22 + 1 - r.1 / 2 ^ 22)).map fun i => r.1 / 2 ^ 22 + i
    { s with ms := { s.ms with
      touched := (s.ms.touched.filter fun e => decide (s.core.beat ≤ e.1 + 1)) ++ [(s.core.beat, (rs.flatMap of).dedup)] } }

/-- The core touched a region in the beat that has just passed, to which the events before the next issue belong (log 1). -/
def State.touchedNow (s : State) (g : Nat) : Bool := s.ms.touched.any fun e => e.1 + 1 == s.core.beat && e.2.contains g

/-! ## Droops (17_power R381, R382) -/

/-- A block is in a droop. -/
def State.droops (s : State) (b : Nat) : Bool := s.pow.droop.any fun e => e.1 == b

/-- The cycles of its own clock that a block begins in `n` beats of a droop, when no partition counts them: one in two,
as each is followed by a stretched one (17_power R381, R382; DEDUCED, log 44). -/
def State.idleCycles (s : State) (b n : Nat) : Nat := (if s.pow.lowBlk.contains b then n * 9 / 13 else n) / 2

/-- The stretched cycles of a block that its slump count does not hold yet: those of a block that no partition has, or whose
partition hops, since its count was last brought up to date. -/
def State.uncounted (s : State) (b : Nat) : Nat :=
  match tfind s.pow.droop b with
  | some t =>
    let idle := match s.partOfBlock b with
      | some p => (s.part p).hop.isSome
      | none => true
    if idle then s.idleCycles b (s.core.beat - t) else 0
  | none => 0

/-- A block is held low: its hold lasts 4,096 beats, and begins as its hop ends (17_power R383, R392). -/
def State.holdsLow (s : State) (b : Nat) : Bool :=
  match s.partOfBlock b with
  | some p => match (s.part p).heldLow with
    | some t => decide (t ≤ s.core.beat + 4096)
    | none => false
  | none => (tfind s.pow.held b).isSome

/-- The power status block (17_power R392). -/
def State.powerBytes (s : State) : List Byte :=
  ((List.range 192).flatMap fun k =>
    let c := tget s.pow.cones k Cone.none
    leBytes 2 (c.used.toNat + if c.subst then 32768 else 0)) ++
  ((List.range 48).flatMap fun b => leBytes 4 ((tget s.pow.slump b 0).toNat + s.uncounted b)) ++
  leBytes 8 (bitsNat ((List.range 48).filter s.holdsLow)) ++
  leBytes 2 (bitsNat ((List.range 12).filter fun l =>
    (List.range 16).any fun g => (tget s.pow.cones (16 * l + g) Cone.none).subst)) ++
  leBytes 1 (if s.pow.emerg then 1 else 0) ++ leBytes 53 0

/-- A byte of the blocks in region 63 that the device alone writes (16_system R366, 17_power R392, 18_platform R398). -/
def State.deviceByte (s : State) (a : Nat) : Option Byte :=
  if decide (0x0FFF7F80 ≤ a) && decide (a < 0x0FFF8000) then s.statusBytes[a - 0x0FFF7F80]?
  else if decide (0x0FFF7E80 ≤ a) && decide (a < 0x0FFF7F00) then s.readyBytes[a - 0x0FFF7E80]?
  else if decide (0x0FFF7C00 ≤ a) && decide (a < 0x0FFF7E80) then s.powerBytes[a - 0x0FFF7C00]?
  else none

/-! ## Local memory (10_memory R225, R232, R251) -/

/-- The byte at a local address: a flag word's byte in the flag array, a device byte in the device's blocks. -/
def State.locByte (s : State) (a : Nat) : Byte :=
  if a < spadBase then memByte s.ms.mem a
  else
    let x := a - spadBase
    if area x = .flags then BitVec.ofNat 8 ((s.flagNow (flagOf x)).val.toNat >>> (8 * (x % 4)))
    else (s.deviceByte x).getD (memByte s.ms.mem a)

def State.locRead (s : State) (a n : Nat) : List Byte :=
  if a + n ≤ spadBase then memRead s.ms.mem a n else (List.range n).map fun i => s.locByte (a + i)

/-- Whether a byte's line, or its flag word, is marked. -/
def State.locPoi (s : State) (a n : Nat) : Bool :=
  if decide (spadBase ≤ a) && area (a - spadBase) = .flags then (s.flagNow (flagOf (a - spadBase))).mark
  else s.ms.poison.any fun l => decide (a / 64 ≤ l) && decide (64 * l < a + n)

/-- Marks after a write of `n` bytes at `a`: a marked write marks every line it touches, an unmarked one clears the
lines it covers whole (10_memory R251). -/
def markLines (l : List Nat) (a n : Nat) (poi : Bool) : List Nat :=
  if n = 0 then l
  else if poi then (List.range ((a + n - 1) / 64 + 1 - a / 64)).foldl (fun l i => sadd l (a / 64 + i)) l
  else l.filter fun x => !(decide (a ≤ 64 * x) && decide (64 * x + 64 ≤ a + n))

/-- The words of flags that a write of bytes at scratchpad-space address `x` changes. -/
def State.writeFlagBytes (s : State) (x : Nat) (bs : List Byte) (poi : Bool) : State :=
  (List.range ((bs.length + 3) / 4)).foldl (fun s i =>
    s.setFlag (flagOf x + i) ⟨BitVec.ofNat 32 (leNat ((bs.drop (4 * i)).take 4)), poi⟩) s

/-- A write of bytes at a local address. -/
def State.locWrite (s : State) (a : Nat) (bs : List Byte) (poi : Bool) : State :=
  if decide (spadBase ≤ a) && area (a - spadBase) = .flags then s.writeFlagBytes (a - spadBase) bs poi
  else { s with ms := { s.ms with mem := memWrite s.ms.mem a bs, poison := markLines s.ms.poison a bs.length poi } }

/-- Little-endian numbers of local memory. -/
def State.rd (s : State) (n a : Nat) : Nat := leNat (s.locRead a n)

def State.wr (s : State) (n a v : Nat) : State := s.locWrite a (leBytes n v) false

/-! ## The vent (16_system R366 to R368) -/

/-- The local address of the record with sequence number `n`. -/
def recordAddr (n : BitVec 32) : Nat := 0x0FFF8000 + 32 * (n.toNat % 1024)

/-- The 32 bytes of a record (16_system R368). -/
def VentE.bytes (e : VentE) (seq : BitVec 32) : List Byte :=
  leBytes 1 e.code ++ leBytes 1 (e.slot + (if e.half then 16 else 0) + if e.held then 32 else 0) ++
  leBytes 1 (match e.bank with | some b => b + 128 | none => 0) ++ leBytes 1 0 ++
  leBytes 2 e.epc.toNat ++ leBytes 2 e.eres.toNat ++ leBytes 8 e.info1.toNat ++ leBytes 8 e.info2.toNat ++
  leBytes 4 e.card.toNat ++ leBytes 4 seq.toNat

/-- The records in the vent (16_system R366). -/
def State.ventCount (s : State) : Nat := (s.sched.vhead - s.sched.vtail).toNat

/-- A record is dropped under 16_system R367. -/
def State.ventDrops (s : State) (e : VentE) : Bool :=
  let free := 1024 - s.ventCount
  !e.held && decide (free ≤ 16) && !(e.stew && decide (0 < free) && s.sched.unpopped.all fun r => !r.2)

/-- Push a record, or drop it, and set f0. The second part is the record's address if it was pushed. -/
def State.pushRecord (s : State) (e : VentE) : State × Option Nat :=
  if s.ventDrops e then
    ({ s with sched := { s.sched with vdrop := s.sched.vdrop + 1 } }, none)
  else
    let a := recordAddr s.sched.vhead
    let s1 := s.locWrite (spadBase + a) (e.bytes s.sched.vhead) false
    let s2 := { s1 with sched := { s1.sched with
      vhead := s1.sched.vhead + 1,
      unpopped := s1.sched.unpopped ++ [(e.bank, e.stew)] } }
    (s2.setFlag 0 ⟨BitVec.ofNat 32 s2.ventCount, false⟩, some a)

/-- Push every record that waits, in the order of their causes. -/
def State.flushVent (s : State) : State :=
  s.sched.ventQ.foldl (fun s e => (s.pushRecord e).1) { s with sched := { s.sched with ventQ := [] } }

/-- Queue a record; it is pushed within 16 beats (16_system R366). -/
def State.ventAdd (s : State) (e : VentE) : State :=
  { s with sched := { s.sched with ventQ := s.sched.ventQ ++ [e] } }

/-- Queue a record that holds nothing and names no bundle. -/
def State.ventNote (s : State) (code : Nat) (bank : Option Nat) (info1 info2 : Nat) : State :=
  s.ventAdd
    { at_ := s.core.beat, code := code, slot := 15, half := false, held := false, bank := bank, epc := 0, eres := 0,
      info1 := BitVec.ofNat 64 info1, info2 := BitVec.ofNat 64 info2,
      card := match bank with
        | some b => (s.ctx b).card.setWidth 32
        | none => 0,
      stew := false }

/-! ## Units that hold memory (18_platform R399) -/

/-- The HBM stacks of a range (10_memory R232). -/
def stacksOf (a n : Nat) : List Nat := ((List.range (min 8 ((a + n - 1) / 256 + 1 - a / 256))).map fun i => (a / 256 + i) % 8)

/-- The CXL port of a second-tier address. -/
def cxlOf (a : Nat) : Nat := (a - 0x100000000000) / 0x20000000000

/-- No unit that holds a range is still not ready: an access to it is not held at a controller. -/
def State.unitsReady (s : State) (a n : Nat) : Bool :=
  if inHbm a n then (stacksOf a n).all fun k => s.plat.rhbm.contains k || s.plat.xhbm.contains k
  else if inTier2 a n then s.plat.rcxl.contains (cxlOf a) || s.plat.xcxl.contains (cxlOf a)
  else true

/-- A unit that holds part of a range has been retired: loads return poison and stores are dropped. -/
def State.unitsGone (s : State) (a n : Nat) : Bool :=
  if inHbm a n then (stacksOf a n).any fun k => s.plat.xhbm.contains k
  else inTier2 a n && s.plat.xcxl.contains (cxlOf a)

/-- A read returns poison. -/
def State.readPoi (s : State) (a n : Nat) : Bool := s.locPoi a n || s.unitsGone a n

/-- The record of an access to a retired unit, with the line's pod physical address (16_system R370). -/
def State.noteGone (s : State) (a : Nat) : State :=
  s.ventNote 0x21 none (s.pkg * 2 ^ 48 + a / 64 * 64) (if inHbm a 1 then 0 else 1)

/-- The parts of a range of bytes that lie in one 256-byte granule each, as an address and a length (10_memory R232). -/
def granules (a n : Nat) : List (Nat × Nat) :=
  (List.range ((a + n + 255) / 256 - a / 256)).map fun i =>
    let lo := max a (256 * (a / 256 + i))
    (lo, min (a + n) (256 * (a / 256 + i) + 256) - lo)

/-- A write of local memory, of which the parts in a retired unit are dropped. -/
def State.memStore (s : State) (a : Nat) (bs : List Byte) (poi : Bool) : State :=
  if s.unitsGone a bs.length then
    let gs := granules a bs.length
    let t := (gs.filter fun g => !s.unitsGone g.1 g.2).foldl
      (fun (t : State) g => t.locWrite g.1 ((bs.drop (g.1 - a)).take g.2) poi) s
    t.noteGone (((gs.find? fun g => s.unitsGone g.1 g.2).map (·.1)).getD a)
  else s.locWrite a bs poi

/-- Bytes as a controller returns them: those of a retired unit are 0, with their mark (`State.readPoi`). -/
def State.memLoad (s : State) (a n : Nat) : List Byte :=
  if s.unitsGone a n then (granules a n).flatMap fun g => if s.unitsGone g.1 g.2 then List.replicate g.2 0 else s.locRead g.1 g.2
  else s.locRead a n

/-- The record of a read, if it meets a retired unit. -/
def State.noteLoad (s : State) (a n : Nat) : State :=
  match (granules a n).find? fun g => s.unitsGone g.1 g.2 with
  | some g => s.noteGone g.1
  | none => s

/-! ## Leaving a seat -/

/-- A context leaves its seat at once; the seat issues nothing for 8 beats (04_sequencing R71). -/
def State.leaveSeat (s : State) (b : Nat) : State :=
  let s1 := match s.seatOf b with
    | some k => s.setSeat k (.unseating b (s.core.beat + 8))
    | none => s
  s1.modCtx b fun c => { c with unseat := false, waitBts := 0, atPoint := false }

/-! ## Taking an exception -/

/-- A cause a bundle raises (02_bundle R49, 16_system R370): code, `EINFO1`, `EINFO2`, and whether the second half of
LDS2 or STS2 raised it. -/
structure Ev where
  code  : Nat
  info1 : Nat := 0
  info2 : Nat := 0
  half  : Bool := false
  deriving DecidableEq, Repr

/-- The record of an event of a bundle. -/
def State.eventRecord (s : State) (b : Nat) (e : Ev) (slot : Nat) (epc eres : BundleNo) : VentE :=
  { at_ := s.core.beat, code := e.code, slot := slot, half := e.half, held := b != 15, bank := some b, epc := epc,
    eres := eres, info1 := BitVec.ofNat 64 e.info1, info2 := BitVec.ofNat 64 e.info2, card := (s.ctx b).card.setWidth 32,
    stew := b == 15 }

/-- The steward after a fault of its own: bundle 0, no loops, no delay state, and x1 naming the record
(16_system R364). -/
def Ctx.restart (c : Ctx) (record : Option Nat) : Ctx :=
  { c with pc := 0, loops := [], dly := 0, dtgt := 0 }.setX 1
    ⟨match record with | some a => BitVec.ofNat 64 a | none => BitVec.allOnes 64, false⟩

/-- Taking an exception (16_system R364, R366, R369): a fault or trap of the context in bank `b` at bundle `epc`, to be
resumed at `eres`. A job's context is held at `eres` with its delay state and leaves its seat, and its record is queued to
the vent. The steward is not held: its record is pushed, after those that wait, and it continues at bundle 0; that a trap of
the steward's goes the same way is a DESIGN CHOICE (log 42). -/
def State.takeException (s : State) (b : Nat) (e : Ev) (slot : Nat) (epc eres : BundleNo) : State :=
  let r := s.eventRecord b e slot epc eres
  if b = 15 then
    let p := s.flushVent.pushRecord r
    p.1.modCtx 15 fun c => c.restart p.2
  else
    ((s.ventAdd r).modCtx b fun c => { c with held := e.code, pc := eres }).leaveSeat b

/-! ## The return from an exception -/

/-- A held context made ready again (16_system R377): its held bit is cleared and its count restarts. With an entry its
position becomes the entry, its loop stack and delay state are cleared, and x1 receives the given value. -/
def Ctx.resume (c : Ctx) (entry : Option (BundleNo × Word)) : Ctx :=
  let c1 := { c with held := 0, since := 0, noSeat := false, dline := none }
  match entry with
  | none => c1
  | some (pc, x1) => { c1 with pc := pc, loops := [], dly := 0, dtgt := 0 }.setX 1 ⟨x1, false⟩

/-! ## Notices (13_jobs R310) -/

/-- The fields of a queue descriptor (13_jobs R296) in this package's HBM. -/
structure QDesc where
  tail  : Nat
  acc   : Nat
  done  : Nat
  cbase : Nat
  rbase : Nat
  nbase : Nat
  next  : Nat
  nhead : Nat
  clog  : Nat
  nlog  : Nat
  qasid : Nat
  qpri  : Nat
  prv   : Bool
  clim  : Nat
  stat  : Nat
  resv  : Bool
  deriving DecidableEq, Repr

def State.qdesc (s : State) (a : Nat) : QDesc :=
  { tail := s.rd 8 a, acc := s.rd 8 (a + 8), done := s.rd 8 (a + 16), cbase := s.rd 8 (a + 24), rbase := s.rd 8 (a + 32),
    nbase := s.rd 8 (a + 40), next := s.rd 8 (a + 48), nhead := s.rd 4 (a + 56), clog := s.rd 1 (a + 60),
    nlog := s.rd 1 (a + 61), qasid := s.rd 2 (a + 62) % 8192, qpri := s.rd 1 (a + 64) % 8,
    prv := decide (128 ≤ s.rd 1 (a + 64)), clim := s.rd 1 (a + 65), stat := s.rd 1 (a + 66),
    resv := decide (8192 ≤ s.rd 2 (a + 62)) || s.rd 1 (a + 64) / 8 % 16 != 0 || decide (4 ≤ s.rd 1 (a + 66)) ||
      s.rd 61 (a + 67) != 0 }

/-- Fields of a job card (13_jobs R299). -/
def cardNat (card : List Byte) (ofs n : Nat) : Nat := leNat ((card.drop ofs).take n)

/-- Write a notice for a job: an entry of its notice ring, `NHEAD`, the notice flag and the notice register. -/
def State.notify (s : State) (j : Job) (code : Nat) (detail : List Byte) : State :=
  let q := s.qdesc j.qaddr
  let s1 := s.memStore (q.nbase + 16 * (q.nhead % 2 ^ q.nlog)) (leBytes 8 j.idx.toNat ++ leBytes 1 code ++ detail) false
  let s2 := if s.unitsGone j.qaddr 128 then s.noteGone j.qaddr else s1.memStore (j.qaddr + 56) (leBytes 4 (q.nhead + 1)) false
  let nfl := cardNat j.card 46 2 % 4096
  let s3 := if nfl = 0 then s2 else s2.setFlag nfl ⟨(s2.flagNow nfl).val + 1, false⟩
  match j.uid with
  | some u =>
    match s3.bankOf u (j.bank.getD 16) with
    | some b' => s3.modCtx b' fun c => { c with ncnt := c.ncnt + 1, last := BitVec.ofNat 8 code }
    | none =>
      let note (k : Job) : Job := if k.uid = some u then { k with notes := k.notes + 1, last := BitVec.ofNat 8 code } else k
      { s3 with sched := { s3.sched with jobs := s3.sched.jobs.map note } }
  | none => s3

/-! ## Outcomes -/

/-- The outcome of every modelled happening. -/
abbrev Res := Host.Outcome State Fault Refusal

/-- An asynchronous event changes the state, or, where it is not enabled, nothing. -/
def State.event (s : State) (f : Option State) : Res := .next (f.getD s)

/-- The identity an event names. -/
def argId : Arg → Option Nat
  | .id n => some n
  | _ => none

end Sys2Proof.Machine
end

