-- ==== Sys2Proof/Machine/Numbers.lean ====
section
/-! DEFINITION. Number formats and arithmetic (05_numbers): values of encodings, rounding, exact sums and products,
conversions, comparisons and the special functions. -/

namespace Sys2Proof.Machine

/-- A floating-point format (05_numbers R99, R101). `maxM` × 2^`maxE` is its largest finite value. -/
structure Fmt where
  w    : Nat
  mb   : Nat
  bias : Nat
  emin : Int
  maxM : Nat
  maxE : Int
  inf  : Bool
  nan  : Bool
  snan : Bool
  deriving DecidableEq, Repr

def fF32 : Fmt := ⟨32, 23, 127, -126, 2 ^ 24 - 1, 104, true, true, true⟩
def fBF16 : Fmt := ⟨16, 7, 127, -126, 255, 120, true, true, true⟩
def fF16 : Fmt := ⟨16, 10, 15, -14, 2047, 5, true, true, true⟩
def fE4M3 : Fmt := ⟨8, 3, 7, -6, 14, 5, false, true, false⟩
def fE5M2 : Fmt := ⟨8, 2, 15, -14, 7, 13, true, true, true⟩
def fE2M1 : Fmt := ⟨4, 1, 1, 0, 3, 1, false, false, false⟩

/-- The format of a floating-point element type. -/
def fmtOf : ETy → Option Fmt
  | .f32 => some fF32 | .bf16 => some fBF16 | .f16 => some fF16 | .e4m3 => some fE4M3 | .e5m2 => some fE5M2
  | .e2m1 => some fE2M1 | _ => none

/-- An exact value: a NaN (signalling or not), an infinity, a signed zero, or ± `m` × 2^`e`; with `st` the magnitude lies
strictly between `m` × 2^`e` and (`m` + 1) × 2^`e`. -/
inductive XR
  | nan (sig : Bool)
  | inf (neg : Bool)
  | zero (neg : Bool)
  | fin (neg : Bool) (m : Nat) (e : Int) (st : Bool)
  deriving DecidableEq, Repr

/-- The exception flags of 05_numbers R107, as R108 numbers them. -/
abbrev Fx := BitVec 5

def fxNV : Fx := 1
def fxDZ : Fx := 2
def fxOF : Fx := 4
def fxUF : Fx := 8
def fxNX : Fx := 16

def nvIf (b : Bool) : Fx := if b then fxNV else 0

/-- A finite value from a significand that may be 0. -/
def XR.mk (neg : Bool) (m : Nat) (e : Int) : XR := if m = 0 then .zero neg else .fin neg m e false

/-- The value of an encoding (05_numbers R100, R101). -/
def Fmt.val (f : Fmt) (n : Nat) : XR :=
  let neg := n / 2 ^ (f.w - 1) % 2 == 1
  let em := n / 2 ^ f.mb % 2 ^ (f.w - 1 - f.mb)
  let fr := n % 2 ^ f.mb
  let top := 2 ^ (f.w - 1 - f.mb) - 1
  if em = 0 then XR.mk neg fr (1 - (f.bias : Int) - f.mb)
  else if f.inf && em == top then
    if fr = 0 then .inf neg else .nan (f.snan && decide (fr < 2 ^ (f.mb - 1)))
  else if f.nan && !f.inf && em == top && fr == 2 ^ f.mb - 1 then .nan false
  else .fin neg (2 ^ f.mb + fr) ((em : Int) - f.bias - f.mb) false

/-- The canonical NaN (05_numbers R101); +0 in the format without one. -/
def Fmt.canonNaN (f : Fmt) : Nat :=
  if !f.nan then 0
  else if f.inf then (2 ^ (f.w - f.mb) / 2 - 1) * 2 ^ f.mb + 2 ^ (f.mb - 1)
  else 2 ^ (f.w - 1) - 1

def Fmt.signBit (f : Fmt) (neg : Bool) : Nat := if neg then 2 ^ (f.w - 1) else 0

/-- The encoding of infinity. -/
def Fmt.infEnc (f : Fmt) (neg : Bool) : Nat := f.signBit neg + (2 ^ (f.w - f.mb) / 2 - 1) * 2 ^ f.mb

/-- The encoding of ± `n` × 2^`q`, `n` at most 2^p, `q` the spacing of `n`. -/
def Fmt.enc (f : Fmt) (neg : Bool) (n : Nat) (q : Int) : Nat :=
  if n < 2 ^ f.mb then f.signBit neg + n
  else
    let e := if n < 2 ^ (f.mb + 1) then q else q + 1
    let fr := if n < 2 ^ (f.mb + 1) then n - 2 ^ f.mb else 0
    f.signBit neg + (e + f.mb + f.bias).toNat * 2 ^ f.mb + fr

/-- The encoding of the largest finite value. -/
def Fmt.maxEnc (f : Fmt) (neg : Bool) : Nat := f.enc neg f.maxM f.maxE

/-- a × 2^x > b × 2^y. -/
def gtScaled (a : Nat) (x : Int) (b : Nat) (y : Int) : Bool :=
  if y ≤ x then decide (b < a * 2 ^ (x - y).toNat) else decide (b * 2 ^ (y - x).toNat < a)

/-- Whether a discarded fraction `rem` / 2^`sh`, with `st` something more, rounds up (05_numbers R105). -/
def roundsUp (mode : Rnd) (neg odd : Bool) (rem sh : Nat) (st : Bool) (draw : Nat) : Bool :=
  let half := if sh = 0 then 0 else 2 ^ (sh - 1)
  let pos := rem != 0 || st
  match mode with
  | .rne | .dyn => sh != 0 && (decide (half < rem) || (rem == half && (st || odd)))
  | .rtz => false
  | .rup => pos && !neg
  | .rdn => pos && neg
  | .sr => decide (65536 ≤ rem * 65536 / 2 ^ sh + draw)

/-- Round (05_numbers R105): the encoding and the flags set. -/
def Fmt.round (f : Fmt) (x : XR) (mode : Rnd) (sat : Bool) (draw : Nat) : Nat × Fx :=
  match x with
  | .nan sig => (f.canonNaN, nvIf (sig || !f.nan))
  | .inf neg =>
    if f.inf && !sat then (f.infEnc neg, 0)
    else if f.nan && !sat then (f.canonNaN, fxNV)
    else (f.maxEnc neg, 0)
  | .zero neg => (f.signBit neg, 0)
  | .fin neg m e st =>
    let q := max ((m.log2 : Int) + e) f.emin - f.mb
    let sh := (q - e).toNat
    let n := if e ≤ q then m / 2 ^ sh else m * 2 ^ (e - q).toNat
    let rem := if e ≤ q then m % 2 ^ sh else 0
    let pos := rem != 0 || st
    let k := if roundsUp mode neg (n % 2 == 1) rem sh st draw then n + 1 else n
    let fl : Fx := if pos then fxNX ||| (if (m.log2 : Int) + e < f.emin then fxUF else 0) else 0
    if gtScaled k q f.maxM f.maxE then
      (if sat || !f.nan || mode == .rtz || (mode == .rup && neg) || (mode == .rdn && !neg) then f.maxEnc neg
       else if f.inf then f.infEnc neg else f.canonNaN, fl ||| fxOF ||| fxNX)
    else (f.enc neg k q, fl)

/-! ## Exact arithmetic (05_numbers R104, R114, R119) -/

def XR.isNan : XR → Bool
  | .nan _ => true
  | _ => false

def XR.isSig : XR → Bool
  | .nan s => s
  | _ => false

/-- A finite value as an integer multiple of 2^`q`, `q` at most its exponent. -/
def XR.at (x : XR) (q : Int) : Int :=
  match x with
  | .fin neg m e _ => let v : Int := m * 2 ^ (e - q).toNat; if neg then -v else v
  | _ => 0

def XR.exp : XR → Int
  | .fin _ _ e _ => e
  | _ => 0

def XR.neg : XR → Bool
  | .nan _ => false
  | .inf n | .zero n | .fin n _ _ _ => n

def XR.flip : XR → XR
  | .nan s => .nan s
  | .inf n => .inf (!n)
  | .zero n => .zero (!n)
  | .fin n m e t => .fin (!n) m e t

def XR.isZero : XR → Bool
  | .zero _ => true
  | _ => false

/-- An integer times a power of two. -/
def XR.ofInt (v : Int) (q : Int) (zneg : Bool) : XR :=
  if v = 0 then .zero zneg else .fin (decide (v < 0)) v.natAbs q false

/-- The exact sum, and whether it is invalid. -/
def XR.add (mode : Rnd) (a b : XR) : XR × Bool :=
  match a, b with
  | .nan s, y => (.nan false, s || y.isSig)
  | _, .nan s => (.nan false, s)
  | .inf x, .inf y => if x == y then (.inf x, false) else (.nan false, true)
  | .inf x, _ => (.inf x, false)
  | _, .inf y => (.inf y, false)
  | .zero x, .zero y => (.zero (if x == y then x else mode == .rdn), false)
  | .zero _, y => (y, false)
  | x, .zero _ => (x, false)
  | x, y => let q := min x.exp y.exp; (XR.ofInt (x.at q + y.at q) q (mode == .rdn), false)

/-- The exact product, and whether it is invalid. -/
def XR.mul (a b : XR) : XR × Bool :=
  let n := a.neg != b.neg
  match a, b with
  | .nan s, y => (.nan false, s || y.isSig)
  | _, .nan s => (.nan false, s)
  | .inf _, .zero _ => (.nan false, true)
  | .zero _, .inf _ => (.nan false, true)
  | .inf _, _ => (.inf n, false)
  | _, .inf _ => (.inf n, false)
  | .zero _, _ => (.zero n, false)
  | _, .zero _ => (.zero n, false)
  | .fin _ m e _, .fin _ k g _ => (.fin n (m * k) (e + g) false, false)

/-- a × b + c, exactly: ∞ × 0 is invalid even when c is a NaN (05_numbers R107). -/
def XR.fma (mode : Rnd) (a b c : XR) : XR × Bool :=
  let p := XR.mul a b
  let r := XR.add mode p.1 c
  (r.1, p.2 || r.2)

/-- The exact sum of a list, in its order: opposite infinities are invalid even beside a NaN (05_numbers R107). -/
def XR.sum (mode : Rnd) (l : List (XR × Bool)) : XR × Bool :=
  match l with
  | [] => (.zero false, false)
  | x :: xs =>
    let r := xs.foldl (fun a b => let r := XR.add mode a.1 b.1; (r.1, a.2 || b.2 || r.2)) x
    (r.1, r.2 || ((l.any fun y => y.1 == .inf false) && l.any fun y => y.1 == .inf true))

/-- Scaling by a power of two. -/
def XR.scale (x : XR) (k : Int) : XR :=
  match x with
  | .fin n m e t => .fin n m (e + k) t
  | y => y

/-- -1, 0 or 1 as a is below, equal to or above b; neither is a NaN. -0 equals +0. -/
def XR.cmp (a b : XR) : Int :=
  let key : XR → Int × XR := fun x => match x with
    | .inf true => (-1, .zero false)
    | .inf false => (1, .zero false)
    | y => (0, y)
  let x := key a
  let y := key b
  if x.1 != y.1 then (if x.1 < y.1 then -1 else 1)
  else if x.1 != 0 then 0
  else
    let q := min x.2.exp y.2.exp
    let d := x.2.at q - y.2.at q
    if d < 0 then -1 else if d = 0 then 0 else 1

/-- Smaller or larger of two encodings' values (05_numbers R115): NaN if either is; -0 below +0. -/
def XR.pick (larger : Bool) (a b : XR) : XR × Bool :=
  if a.isNan || b.isNan then (.nan false, a.isSig || b.isSig)
  else
    let c := XR.cmp a b
    let aLow := if c = 0 then a.neg && !b.neg else decide (c < 0)
    let bLow := if c = 0 then b.neg && !a.neg else decide (0 < c)
    (if larger then (if aLow then b else a) else (if bLow then b else a), false)

/-! ## Rounding modes and draws (02_bundle R35, 05_numbers R106) -/

/-- The effective mode of an op: `dyn` is the mode of fpm; SR becomes RNE where the op does not accept it. A
mode of 5 to 7, which a restored image can put into fpm, is RNE (05_numbers R109; DESIGN CHOICE, log 120). -/
def effMode (r : Rnd) (fpm : BitVec 3) (acceptsSR : Bool) : Rnd :=
  let m := match r with
    | .dyn => match fpm.toNat with
      | 1 => Rnd.rtz
      | 2 => .rup
      | 3 => .rdn
      | 4 => .sr
      | _ => .rne
    | m => m
  if m = .sr && !acceptsSR then .rne else m

/-- SRbits of 05_numbers R106. -/
def srBits (srs src : BitVec 32) (l e : Nat) : Nat :=
  let h := srs ^^^ (src * 0x85EBCA6B) ^^^ (BitVec.ofNat 32 l * 0x9E3779B9) ^^^ (BitVec.ofNat 32 e * 0xC2B2AE35)
  let h := (h ^^^ (h >>> 16)) * 0x7FEB352D
  let h := (h ^^^ (h >>> 15)) * 0x846CA68B
  let h := h ^^^ (h >>> 16)
  (h >>> 16).toNat

/-! ## Integers (05_numbers R103, R116) -/

/-- The signedness of an integer type. -/
def signedTy : ETy → Bool
  | .i32 | .i16 | .i8 => true
  | _ => false

/-- The value of an element's bits as the type reads them. -/
def intVal (signed : Bool) (w n : Nat) : Int :=
  if signed && decide (2 ^ (w - 1) ≤ n % 2 ^ w) then (n % 2 ^ w : Nat) - (2 ^ w : Nat) else ((n % 2 ^ w : Nat) : Int)

/-- Wrap (05_numbers R123). -/
def wrapInt (v : Int) (w : Nat) : Nat := (v % (2 ^ w : Nat)).toNat

def intMin (signed : Bool) (w : Nat) : Int := if signed then -((2 ^ (w - 1) : Nat) : Int) else 0

def intMax (signed : Bool) (w : Nat) : Int := if signed then ((2 ^ (w - 1) : Nat) : Int) - 1 else ((2 ^ w : Nat) : Int) - 1

/-- Sat (05_numbers R123). -/
def satInt (v : Int) (signed : Bool) (w : Nat) : Nat := wrapInt (max (intMin signed w) (min (intMax signed w) v)) w

/-- Wrap, or Sat where the op saturates (05_numbers R116). -/
def narrow (v : Int) (signed : Bool) (w : Nat) (sat : Bool) : Nat := if sat then satInt v signed w else wrapInt v w

/-! ## Conversions (05_numbers R111 to R113) -/

/-- The integer a finite value rounds to, and whether it is inexact. -/
def roundInt (neg : Bool) (m : Nat) (e : Int) (st : Bool) (mode : Rnd) (draw : Nat) : Int × Bool :=
  let sh := (-e).toNat
  let n := if e ≤ 0 then m / 2 ^ sh else m * 2 ^ e.toNat
  let rem := if e ≤ 0 then m % 2 ^ sh else 0
  let k : Nat := if roundsUp mode neg (n % 2 == 1) rem sh st draw then n + 1 else n
  (if neg then -(k : Int) else (k : Int), rem != 0 || st)

/-- A floating-point value converted to an integer type (05_numbers R112). -/
def toInt (x : XR) (signed : Bool) (w : Nat) (mode : Rnd) (sat : Bool) (draw : Nat) : Nat × Fx :=
  let indef := if signed then 2 ^ (w - 1) else 2 ^ w - 1
  match x with
  | .nan _ => (if sat then 0 else indef, fxNV)
  | .inf neg => (if sat then wrapInt (if neg then intMin signed w else intMax signed w) w else indef, fxNV)
  | .zero _ => (0, 0)
  | .fin neg m e st =>
    let r := roundInt neg m e st mode draw
    if intMax signed w < r.1 then (if sat then wrapInt (intMax signed w) w else indef, fxNV)
    else if r.1 < intMin signed w then (if sat then wrapInt (intMin signed w) w else indef, fxNV)
    else (wrapInt r.1 w, if r.2 then fxNX else 0)

/-- An element converted from one type to another (05_numbers R111 to R113). -/
def convert (src dst : ETy) (n : Nat) (mode : Rnd) (sat : Bool) (draw : Nat) : Nat × Fx :=
  match fmtOf src, fmtOf dst with
  | some f, some g => g.round (f.val n) mode sat draw
  | some f, none => toInt (f.val n) (signedTy dst) dst.width mode sat draw
  | none, some g => g.round (XR.ofInt (intVal (signedTy src) src.width n) 0 false) mode sat draw
  | none, none => (narrow (intVal (signedTy src) src.width n) (signedTy dst) dst.width sat, 0)

/-! ## Special functions (05_numbers R121, R122) -/

/-- The integer square root, by bits from 2^`k` down. -/
def isqrtFrom (n : Nat) : Nat → Nat → Nat
  | 0, r => r
  | k + 1, r => isqrtFrom n k (if (r + 2 ^ k) * (r + 2 ^ k) ≤ n then r + 2 ^ k else r)

def isqrt (n : Nat) : Nat := isqrtFrom n (n.log2 / 2 + 1) 0

/-- Reciprocal. -/
def fnRcp (x : XR) : XR × Fx :=
  match x with
  | .nan s => (.nan false, nvIf s)
  | .inf n => (.zero n, 0)
  | .zero n => (.inf n, fxDZ)
  | .fin n m e _ =>
    let k := m.log2 + 96
    (.fin n (2 ^ k / m) (-e - k) (2 ^ k % m != 0), 0)

/-- Reciprocal square root. -/
def fnRsq (x : XR) : XR × Fx :=
  match x with
  | .nan s => (.nan false, nvIf s)
  | .inf true => (.nan false, fxNV)
  | .inf false => (.zero false, 0)
  | .zero n => (.inf n, fxDZ)
  | .fin true _ _ _ => (.nan false, fxNV)
  | .fin false m e _ =>
    let m' := if e % 2 = 0 then m else 2 * m
    let e' := if e % 2 = 0 then e else e - 1
    let k := m'.log2 + 96
    let r := isqrt (2 ^ (2 * k) / m')
    (.fin false r (-(k : Int) - e' / 2) (r * r * m' != 2 ^ (2 * k)), 0)

/-- Fraction bits of the fixed-point evaluations below. -/
def fxB : Nat := 512

/-- floor(ln 2 × 2^512). -/
def ln2Fix : Nat :=
  0xB17217F7D1CF79ABC9E3B39803F2F6AF40F343267298B62D8A0D175B8BAAFA2BE7B876206DEBAC98559552FB4AFA1B10ED2EAE35C138214427573B291169B825

/-- Terms of the exponential series at `y` / 2^512, summed. -/
def expSeries (y : Nat) : Nat → Nat → Nat → Nat → Nat
  | 0, _, _, acc => acc
  | fuel + 1, k, t, acc =>
    let t' := t * y / (2 ^ fxB * k)
    expSeries y fuel (k + 1) t' (acc + t')

/-- 2^(f / 2^512) × 2^512 rounded down to within a few units of its last 500 bits; f < 2^512 (DEDUCED, log 15). -/
def exp2Fix (f : Nat) : Nat := expSeries (f * ln2Fix / 2 ^ fxB) 110 1 (2 ^ fxB) (2 ^ fxB)

/-- A finite value as floor(value × 2^512), clamped, and whether that is exact. -/
def toFix (neg : Bool) (m : Nat) (e : Int) : Int × Bool :=
  let sh := e + fxB
  let v : Nat := if 0 ≤ sh then m * 2 ^ (min sh.toNat 1100) else m / 2 ^ (-sh).toNat
  let ex := decide (0 ≤ sh) || m % 2 ^ (-sh).toNat == 0
  (if neg then (if ex then -(v : Int) else -(v : Int) - 1) else (v : Int), ex)

/-- Base-2 exponential. -/
def fnExp2 (x : XR) : XR × Fx :=
  match x with
  | .nan s => (.nan false, nvIf s)
  | .inf true => (.zero false, 0)
  | .inf false => (.inf false, 0)
  | .zero _ => (.fin false 1 0 false, 0)
  | .fin neg m e _ =>
    let v := (toFix neg m e).1
    let n := max (-2000) (min 2000 (v / (2 ^ fxB : Nat)))
    let f := (v % (2 ^ fxB : Nat)).toNat
    if f = 0 ∧ (toFix neg m e).2 then (.fin false 1 n false, 0)
    else (.fin false (exp2Fix f) (n - fxB) true, 0)

/-- Terms of the inverse hyperbolic tangent series. -/
def atanhSeries (t2 : Nat) : Nat → Nat → Nat → Nat → Nat
  | 0, _, _, acc => acc
  | fuel + 1, k, p, acc =>
    let p' := p * t2 / 2 ^ fxB
    atanhSeries t2 fuel (k + 2) p' (acc + p' / k)

/-- Base-2 logarithm. -/
def fnLog2 (x : XR) : XR × Fx :=
  match x with
  | .nan s => (.nan false, nvIf s)
  | .inf true => (.nan false, fxNV)
  | .inf false => (.inf false, 0)
  | .zero _ => (.inf true, fxDZ)
  | .fin true _ _ _ => (.nan false, fxNV)
  | .fin false m e _ =>
    let l := m.log2
    let n : Int := e + l
    if m = 2 ^ l then (XR.ofInt n 0 false, 0)
    else
      let t := (m - 2 ^ l) * 2 ^ fxB / (m + 2 ^ l)
      let ln := 2 * atanhSeries (t * t / 2 ^ fxB) 180 3 t t
      let v : Int := n * (2 ^ fxB : Nat) + (ln * 2 ^ fxB / ln2Fix : Nat)
      if 0 ≤ v then (.fin false v.natAbs (-(fxB : Int)) true, 0) else (.fin true (v.natAbs - 1) (-(fxB : Int)) true, 0)

/-- Hyperbolic tangent. -/
def fnTanh (x : XR) : XR × Fx :=
  match x with
  | .nan s => (.nan false, nvIf s)
  | .inf n => (.fin n 1 0 false, 0)
  | .zero n => (.zero n, 0)
  | .fin neg m e _ =>
    if (m.log2 : Int) + e < -64 then
      -- below x by less than x³: nearer to x than any rounding can tell
      (.fin neg (m * 2 ^ 100 - 1) (e - 100) true, 0)
    else if 6 < (m.log2 : Int) + e then (.fin neg (2 ^ fxB - 1) (-(fxB : Int)) true, 0)
    else
      let a := (toFix false m e).1.toNat
      let w := 2 * a * 2 ^ fxB / ln2Fix
      let n := w / 2 ^ fxB
      let u := exp2Fix (2 ^ fxB - 1 - w % 2 ^ fxB) / 2 ^ (n + 1)
      (.fin neg ((2 ^ fxB - u) * 2 ^ fxB / (2 ^ fxB + u)) (-(fxB : Int)) true, 0)

/-- A special function's result rounded once, under RNE (05_numbers R121). -/
def fnRound (f : Fmt) (r : XR × Fx) : Nat × Fx :=
  let o := f.round r.1 .rne false 0
  (o.1, o.2 ||| r.2)

/-! ## Bit patterns of lanes (07_sheet R153) -/

/-- Element `e` of a lane of elements of width `w`. -/
def laneElem (l : Lane) (w e : Nat) : Nat := l.toNat / 2 ^ (w * e) % 2 ^ w

/-- A lane from its elements, element 0 lowest. -/
def laneOf (w : Nat) (es : List Nat) : Lane := BitVec.ofNat 32 (es.foldr (fun x n => x % 2 ^ w + 2 ^ w * n) 0)

end Sys2Proof.Machine
end

