-- ==== Sys2Proof/Machine/Flags.lean ====
section
/-! DEFINITION. Every flag computation: compare conditions, the thresholds of counting flags, transaction barriers, the
landing of flag writes, the fpx flags, and the tests of a branch tree. -/

namespace Sys2Proof.Machine

/-! ## Compare conditions -/

/-- The conditions of CMP and CMPI (06_scalar R134). -/
def condInt (cond : BitVec 4) (a b : Word) : Bool :=
  match cond.toNat with
  | 0 => a == b
  | 1 => a != b
  | 2 => a.slt b
  | 3 => !a.slt b
  | 4 => a.ult b
  | 5 => !a.ult b
  | 6 => b.slt a
  | 7 => !b.slt a
  | 8 => b.ult a
  | 9 => !b.ult a
  | 10 => a &&& b != 0
  | _ => a &&& b == 0

/-- The conditions of FCMPS (06_scalar R139). -/
def condFp (cond : BitVec 4) (a b : XR) : Bool :=
  let un := a.isNan || b.isNan
  let c := XR.cmp a b
  match cond.toNat with
  | 0 => !un && c == 0
  | 1 => un || c != 0
  | 2 => !un && decide (c < 0)
  | 3 => !un && decide (c ≤ 0)
  | 4 => !un && decide (0 < c)
  | 5 => !un && decide (0 ≤ c)
  | 6 => un
  | _ => !un

/-- A compare sets NV for a signalling NaN only (05_numbers R115). -/
def cmpFx (a b : XR) : Fx := nvIf (a.isSig || b.isSig)

/-! ## Flag words -/

/-- A counting flag has reached a threshold (12_sync R276). -/
def reached (v t : BitVec 32) : Bool := decide ((v - t).toNat < 2 ^ 31)

/-- The two words of an armed barrier (12_sync R285). -/
def barrierArm (xs : Word) : BitVec 32 × BitVec 32 :=
  let pend : BitVec 28 := xs.extractLsb' 0 28
  (pend.setWidth 32, (if pend = 0 then (0 : BitVec 32) else 0x10000) ||| (xs.extractLsb' 32 16).setWidth 32)

/-- One barrier update (12_sync R286): `d` bytes added, `a` arrivals, `err` for a copy in error. -/
def barrierUpdate (w0 w1 : BitVec 32) (d : BitVec 28) (a : Nat) (err : Bool) : BitVec 32 × BitVec 32 :=
  if w1 = 0 then
    (if d != 0 || a != 0 || err then w0 ||| 0x80000000 else w0, w1)
  else
    let pend : BitVec 28 := w0.extractLsb' 0 28 + d
    let arr := w1.toNat % 65536
    let e := w0.getLsbD 31 || err || decide (arr < a)
    let arr' := arr - a
    ((if e then (0x80000000 : BitVec 32) else 0) ||| (w0 &&& 0x70000000) ||| pend.setWidth 32,
     (w1 &&& 0xFFFE0000) ||| (if pend = 0 then (0 : BitVec 32) else 0x10000) ||| BitVec.ofNat 32 arr')

/-- The words a flag update writes, index 0 for word n and 1 for word n + 1. FADDC keeps the word's mark; an engine's
count clears it (12_sync R278). -/
def FlagUpd.apply (s : State) (n : Nat) (u : FlagUpd) : List (Nat × FlagW) :=
  match u with
  | .set v => [(n, v)]
  | .add v => [(n, ⟨(s.flagNow n).val + v.val, (s.flagNow n).mark || v.mark⟩)]
  | .count => [(n, ⟨(s.flagNow n).val + 1, false⟩)]
  | .two v w => [(n, v), (n + 1, w)]
  | .bar d a err =>
    let r := barrierUpdate (s.flagNow n).val (s.flagNow (n + 1)).val (BitVec.ofNat 28 d) a err
    [(n, ⟨r.1, false⟩), (n + 1, ⟨r.2, false⟩)]

/-- The flag words an update writes. -/
def FlagUpd.words (n : Nat) (u : FlagUpd) : List Nat :=
  match u with
  | .bar .. => [n, n + 1]
  | .two _ _ => [n, n + 1]
  | _ => [n]

/-- A flag update that lands during a beat. -/
def State.updFlag (s : State) (n : Nat) (u : FlagUpd) : State :=
  (u.apply s n).foldl (fun s w => s.setFlag w.1 w.2) s

/-- A flag update that lands at the start of a beat. -/
def State.updFlagStart (s : State) (uid n : Nat) (u : FlagUpd) : State :=
  (u.apply s n).foldl (fun s w => s.landFlag uid w.1 w.2) s

/-- An engine's write of 1 to its completion flag; index 0 names none. -/
def State.completeFlag (s : State) (n : Nat) : State := if n = 0 then s else s.setFlag n ⟨1, false⟩

/-- The values of a word that a wait of context `uid` tests (12_sync R281): the word as it stood before the beat, and,
for the context's own writes, as it stands (15_ordering R347; DEDUCED, log 16). -/
def State.waitWords (s : State) (uid n : Nat) : List FlagW :=
  match tfind s.ms.flagsWas n with
  | some w => if w.2.contains uid then [w.1, s.flag n] else [w.1]
  | none => [s.flag n]

/-! ## Branch trees (02_bundle R21 to R26) -/

def State.test (s : State) (t : Test) : Bool := t.valid && (((s.flag t.ix.toNat).val != 0) == t.pol)

/-- The leaf a bundle's tree selects (02_bundle R23). -/
def State.leaf (s : State) (bd : Bundle) : Leaf :=
  let t (k : Nat) := match bd.tests[k]? with
    | some x => s.test x
    | none => false
  if t 0 then (if t 1 then .a else .b) else if t 2 then .c else if t 3 then .d else .e

/-- An op executes when the leaf is in its path mask (02_bundle R27). -/
def executes (p : Path) (l : Leaf) : Bool := p.getLsbD l.num

/-- The first valid test that names a marked word (02_bundle R26). -/
def State.markedTest (s : State) (bd : Bundle) : Option Nat :=
  (bd.tests.find? fun t => t.valid && (s.flag t.ix.toNat).mark).map (·.ix.toNat)

/-! ## Atomic updates (12_sync R293, R294) -/

/-- Bytes of an atomic of width code `aw`. -/
def amoBytes (aw : BitVec 3) : Nat := if aw = 0 then 1 else if aw.toNat < 4 then 4 else 8

/-- The form of a scalar load whose extension the old value of an atomic takes. -/
def amoWid (aw : BitVec 3) : Nat :=
  match aw.toNat with
  | 0 => 1
  | 1 => 4
  | 2 | 3 => 5
  | _ => 6

/-- The new value of an atomic: `old` and `v` as naturals of the width (12_sync R293). -/
def amoNew (aop : BitVec 5) (aw : BitVec 3) (old v c : Nat) : Nat :=
  let w := 8 * amoBytes aw
  let old := old % 2 ^ w
  let v := v % 2 ^ w
  let c := c % 2 ^ w
  let sg := aw == 1 || aw == 4
  let lt (x y : Nat) : Bool := decide (intVal sg w x < intVal sg w y)
  match aop.toNat with
  | 0 => (old + v) % 2 ^ w
  | 1 => old &&& v
  | 2 => old ||| v
  | 3 => old ^^^ v
  | 4 => if aw = 3 then (fF32.round (XR.pick false (fF32.val old) (fF32.val v)).1 .rne false 0).1 else if lt v old then v else old
  | 5 => if aw = 3 then (fF32.round (XR.pick true (fF32.val old) (fF32.val v)).1 .rne false 0).1 else if lt old v then v else old
  | 6 => v
  | 7 => if old = c then v else old
  | _ => (fF32.round (XR.add .rne (fF32.val old) (fF32.val v)).1 .rne false 0).1

/-- An indivisible update of local memory at a local address: the state after it, the old bytes and their mark. -/
def State.amoAt (s : State) (a : Nat) (g : AtomicArg) (poi : Bool) : State × List Byte × Bool :=
  let n := amoBytes g.aw
  let old := s.locRead a n
  let op := s.locPoi a n
  (s.locWrite a (leBytes n (amoNew g.aop g.aw (leNat old) g.v.toNat g.c.toNat)) (op || poi), old, op)

/-- The updates of one row of an AMOS, in lane order (12_sync R295). -/
def State.amosRow (s : State) (r : AmosRow) : State :=
  r.lanes.foldl (fun s l => (s.amoAt (spadBase + l.1) ⟨r.aop, r.aw, l.2.1, 0⟩ l.2.2).1) s

/-- The rows of every AMOS that are due. -/
def State.amosTick (s : State) : State :=
  let d := s.ms.amos.filter fun r => decide (r.due ≤ s.core.beat)
  let t := s.touch (d.flatMap fun r => r.lanes.map fun l => (l.1, 4))
  d.foldl State.amosRow { t with ms := { t.ms with amos := t.ms.amos.filter fun r => decide (s.core.beat < r.due) } }

/-- Every row of every AMOS that has not performed performs, oldest first: what follows an AMOS in the order of the local
scratchpad space follows the whole of it (15_ordering R349, R352; DEDUCED, log 74). -/
def State.amosFlush (s : State) : State :=
  s.ms.amos.foldl State.amosRow { s with ms := { s.ms with amos := [] } }

/-! ## Ordering of flag writes (12_sync R280, 15_ordering R347) -/

/-- A flag write of context `uid` to word `n`, older than `seq`, has not landed. -/
def State.olderFlagWrite (s : State) (c : Ctx) (n seq : Nat) : Bool :=
  (s.ms.rels.any fun r => r.uid == c.uid && decide (r.seq < seq) && (r.upd.words r.ix).contains n) ||
  c.pend.any fun p => p.dst == .flag n && decide (p.seq < seq)

/-- A flag write of the context `uid` older than `seq` has not landed. -/
def State.flagInFlight (s : State) (uid seq : Nat) : Bool :=
  (s.ms.rels.any fun r => r.uid == uid && decide (r.seq < seq)) ||
  s.core.banks.any fun e => e.2.uid == uid && e.2.pend.any fun p => decide (p.seq < seq) && match p.dst with
    | .flag _ => true
    | _ => false

/-- Every memory access of the context older than `seq` has performed, and every row of its AMOS. -/
def State.memPerformed (s : State) (uid seq : Nat) : Bool :=
  !(s.ms.amos.any fun r => r.uid == uid && decide (r.seq < seq)) &&
  !(s.ms.flight.any fun a => a.uid == uid && decide (a.seq < seq))

/-- A POST of the context older than `seq` has not reached its queue. One of another package, which stands under bank 16, is
no context's. -/
def State.posting (s : State) (uid seq : Nat) : Bool :=
  s.sched.posts.any fun p => p.bank != 16 && p.uid == uid && decide (p.seq < seq)

/-- An EVPOP or a CRST of the context older than `seq`, which reads, writes and acquires as it lands, has not landed
(16_system R375, R380). -/
def State.acquirePending (s : State) (uid seq : Nat) : Bool :=
  let before (o : CtlOp) : Bool := o.uid == uid && decide (o.seq < seq)
  s.core.evpops.any before || s.core.ctlOps.any fun o => before o && match o.op with
    | .crst _ => true
    | _ => false

/-- Every access of the context older than `seq` has performed: loads, stores, atomics, flag writes, POSTs, and those of EVPOP
and CRST (15_ordering R353). -/
def State.allPerformed (s : State) (uid seq : Nat) : Bool :=
  s.memPerformed uid seq && !s.flagInFlight uid seq && !s.posting uid seq && !s.acquirePending uid seq

/-- An older flag write of the context waits to land in a word of a waiting one. -/
def State.olderRelease (s : State) (uid seq : Nat) (words : List Nat) : Bool :=
  s.ms.rels.any fun q => q.uid == uid && decide (q.seq < seq) && (q.upd.words q.ix).any words.contains

/-- A waiting flag write may land: its beat has come, and a release follows every older access of its context, a
relaxed write the older releases to its words (12_sync R280). -/
def State.relReady (s : State) (r : Release) : Bool :=
  decide (r.due ≤ s.core.beat) &&
  if r.scp = .ctx then !s.olderRelease r.uid r.seq (r.upd.words r.ix) else s.allPerformed r.uid r.seq

/-- A relaxed write takes its place in its beat of issue, behind every AMOS before it (15_ordering R349); a release waits for
them. -/
def State.inPlace (s : State) (scp : Scope) : State := if scp = .ctx then s.amosFlush else s

/-- Queue a flag write of the context in bank `b`: relaxed with scope .ctx, else a release at its scope. It lands no
earlier than `lat` beats after issue. -/
def State.queueFlagAt (s0 : State) (b lat : Nat) (scp : Scope) (n : Nat) (u : FlagUpd) : State :=
  let s := s0.inPlace scp
  { s with
    ids := s.ids + 1, seq := s.seq + 1,
    ms := { s.ms with rels := s.ms.rels ++
      [{ id := s.ids, bank := b, uid := (s.ctx b).uid, seq := s.seq, due := s.core.beat + lat, late := false, scp := scp, ix := n, upd := u }] } }

/-- A release of an engine for the context `uid`: it sets flag `n` at .pkg scope, now, or once every access of the
context older than `seq` has performed (15_ordering R353); index 0 names no flag. -/
def State.releaseFlag (s : State) (uid bank seq n : Nat) : State :=
  if n = 0 ∨ s.allPerformed uid seq then s.completeFlag n
  else { s with
    ids := s.ids + 1
    ms := { s.ms with rels := s.ms.rels ++
      [{ id := s.ids, bank := bank, uid := uid, seq := seq, due := s.core.beat, late := true, scp := .pkg, ix := n, upd := .set ⟨1, false⟩ }] } }

/-- The flag write of an SY op (12_sync R280). -/
def State.queueFlag (s : State) (b : Nat) (scp : Scope) (n : Nat) (u : FlagUpd) : State := s.queueFlagAt b 1 scp n u

end Sys2Proof.Machine
end

