-- ==== Sys2Proof/Machine/Operands.lean ====
section
/-! DEFINITION. Operand forms: sheet operands and masks, the writing of results, the addresses of loads and stores, and
the handles they name. -/

namespace Sys2Proof.Machine

/-! ## Sheets, masks and lanes (07_sheet R152 to R158) -/

/-- Lanes of a sheet. -/
def nLanes : Nat := 32768

def Sheet.lane (v : Sheet) (l : Nat) : Lane := tget v.lanes l 0

def Sheet.mark (v : Sheet) (r : Nat) : Bool := v.marks.getLsbD r

/-- The sheet with the given lanes and row marks. -/
def Sheet.make (f : Nat → Lane) (m : Nat → Bool) : Sheet :=
  { lanes := (List.range nLanes).filterMap fun l => if f l = 0 then none else some (l, f l),
    marks := BitVec.ofNat 64 (bitsNat ((List.range 64).filter m)) }

/-- The mask with the given bits and row marks. -/
def MaskV.make (f : Nat → Bool) (m : Nat → Bool) : MaskV :=
  { bits := BitVec.ofNat 32768 (bitsNat ((List.range nLanes).filter f)),
    marks := BitVec.ofNat 64 (bitsNat ((List.range 64).filter m)) }

/-- Row `r` of a mask is all ones. -/
def MaskV.fullRow (m : MaskV) (r : Nat) : Bool := (m.bits.extractLsb' (512 * r) 512) == BitVec.allOnes 512

/-- A value that an op reads as a sheet: a sheet, or a broadcast scalar (02_bundle R36, 07_sheet R155). -/
inductive SVal
  | sheet (v : Sheet)
  | bcast (l : Lane) (mark : Bool)
  deriving DecidableEq, Repr

def SVal.lane (o : SVal) (l : Nat) : Lane :=
  match o with
  | .sheet v => v.lane l
  | .bcast x _ => x

def SVal.mark (o : SVal) (r : Nat) : Bool :=
  match o with
  | .sheet v => v.mark r
  | .bcast _ m => m

/-- Code and port of a 9-bit sheet operand (02_bundle R36). -/
def opCode (x : BitVec 9) : Nat := x.toNat % 64

/-- The value of a sheet operand: a named sheet after rotation, the sheet at the head of a stream, or the broadcast
scalar. -/
def Ctx.opnd (c : Ctx) (x : BitVec 9) (xb : XReg) : SVal :=
  let n := opCode x
  if n < 32 then .sheet (c.vv (c.physV n))
  else if n < 36 then .sheet ((c.strm (n - 32)).buf.head?.getD Sheet.zero)
  else .bcast ((c.xw xb).setWidth 32) (c.xm xb)

/-- The registers and streams a sheet operand reads. -/
def Ctx.opndReads (c : Ctx) (x : BitVec 9) (xb : XReg) : List PDest :=
  let n := opCode x
  if n < 32 then [.v (c.physV n)] else if n < 36 then [] else [.x xb.toNat]

def opndPops (x : BitVec 9) : List Nat :=
  let n := opCode x
  if 32 ≤ n ∧ n < 36 then [n - 32] else []

/-- The lane mask of an op. -/
def Ctx.maskOf (c : Ctx) (n : Nat) : MaskV := c.mv (c.physM n)

/-- Merge of a result with its destination's old value (07_sheet R157, R158). -/
def mergeSheet (old : Sheet) (mk : MaskV) (masked mz : Bool) (f : Nat → Lane) (m : Nat → Bool) : Sheet :=
  Sheet.make
    (fun l => if !masked || mk.bits.getLsbD l then f l else if mz then 0 else old.lane l)
    (fun r => m r || (masked && mk.marks.getLsbD r) || (masked && !mz && !mk.fullRow r && old.mark r))

/-- The same for masks. -/
def mergeMask (old : MaskV) (mk : MaskV) (masked mz : Bool) (f : Nat → Bool) (m : Nat → Bool) : MaskV :=
  MaskV.make
    (fun l => if !masked || mk.bits.getLsbD l then f l else if mz then false else old.bits.getLsbD l)
    (fun r => m r || (masked && mk.marks.getLsbD r) || (masked && !mz && !mk.fullRow r && old.marks.getLsbD r))

/-! ## Landing (02_bundle R50, 04_sequencing R78) -/

/-- Add a write in flight to the context of bank `b`, its data crossing from the face windows of some blocks. -/
def State.landFrom (s : State) (blks : List Nat) (b due : Nat) (dst : PDest) (val : PVal) (fpx : Fx) (arith : Bool) : State :=
  (s.modCtx b fun c => { c with pend := c.pend ++ [⟨due, dst, val, fpx, arith, s.seq, blks⟩] })

/-- Add a write in flight to the context of bank `b`. -/
def State.landAt (s : State) (b due : Nat) (dst : PDest) (val : PVal) (fpx : Fx) (arith : Bool) : State :=
  s.landFrom [] b due dst val fpx arith

/-- Land a scalar `lat` beats after issue. -/
def State.landX (s : State) (b : Nat) (d : XReg) (v : Word) (mark : Bool) (lat : Nat) : State :=
  s.landAt b (s.core.beat + lat) (.x d.toNat) (.x ⟨v, mark⟩) 0 true

/-- Lock a register until the access or op named `id` lands it. -/
def State.lockReg (s : State) (b : Nat) (dst : PDest) (id : Nat) : State :=
  s.modCtx b fun c => { c with locks := c.locks ++ [⟨dst, id⟩] }

/-- Write a register. -/
def Ctx.write (c : Ctx) (dst : PDest) (val : PVal) : Ctx :=
  match dst, val with
  | .x n, .x v => c.setX n v
  | .v n, .v v => c.setV n v
  | .m n, .m v => c.setM n v
  | .h n, .h v => c.setH n v
  | .push k d, .v v =>
    let st := c.strm k
    if st.dir = .output ∧ st.desc = d then c.setStrm k { st with buf := st.buf ++ [v] } else c
  | _, _ => c

/-- A result without a beat of its own lands now, or in the beat after the earlier writes still pending to its register
(04_sequencing R79: the later-issued write lands last). -/
def Ctx.landNext (c : Ctx) (dst : PDest) (val : PVal) : Ctx :=
  match (c.pend.filter fun p => p.dst == dst).map (·.due) with
  | [] => c.write dst val
  | ds => { c with pend := c.pend ++ [⟨ds.foldl max 0 + 1, dst, val, 0, false, 0, []⟩] }

/-- Land what is locked under `id` in the context `uid`, with the given value, and unlock it. -/
def State.unlock (s : State) (uid bank id : Nat) (val : PVal) : State :=
  match s.bankOf uid bank with
  | none => s
  | some b => s.modCtx b fun c =>
    let ds := (c.locks.filter fun l => l.id == id).map (·.dst)
    ds.foldl (fun c d => c.landNext d val) { c with locks := c.locks.filter fun l => l.id != id }

/-- Land a scalar result of an engine op. -/
def State.answer (s : State) (uid bank id : Nat) (v : Word) : State := s.unlock uid bank id (.x ⟨v, false⟩)

/-- The failure word of 14_fabric R339 and 16_system R374. -/
def statusWord (st : Nat) : Word := 0x8000000000000000 + BitVec.ofNat 64 st

/-! ## Causes -/

/-- Poison consumption by a scalar (16_system R424). -/
def poisonX (n : XReg) : Ev := { code := 0x20, info1 := 1, info2 := n.toNat }

/-- Poison consumption by a test or a wait. -/
def poisonFlag (n : Nat) : Ev := { code := 0x20, info1 := 0, info2 := n }

/-- Protection at an address (16_system R370). -/
def protAt (c : Ctx) (a : Nat) : Ev := { code := 0x10, info1 := a, info2 := c.asid.toNat }

/-- The first poisoned scalar of a list raises poison consumption. -/
def poisonedX (c : Ctx) (l : List XReg) : Option Ev := (l.find? fun n => c.xm n).map poisonX

/-- A compare or SY op of an unprivileged context that writes f0 (12_sync R275). -/
def f0Fault (c : Ctx) (n : Nat) : Option Ev := if n = 0 ∧ !c.priv then some (protAt c 0x1C000000) else none

/-! ## The scratchpad space (10_memory R225, R226) -/

/-- The region of a hearth address. -/
def regionOf (a : Nat) : Nat := a / 2 ^ 22 % 64

/-- A range of the hearth scratchpad lies in ready, unretired regions of the mask. -/
def State.regionsOk (s : State) (mask : BitVec 64) (a n : Nat) : Bool :=
  (List.range (regionOf (a + n - 1) + 1 - regionOf a)).all fun i =>
    mask.getLsbD (regionOf a + i) && s.plat.rrgn.contains (regionOf a + i) && !s.plat.xrgn.contains (regionOf a + i)

/-- A range lies in the hearth scratchpad, in regions of the context's mask. -/
def State.hearthOk (s : State) (c : Ctx) (a n : Nat) : Bool :=
  decide (a + n ≤ 0x10000000) && s.regionsOk c.rmask a n

/-! ## Handles (10_memory R233) -/

namespace Handle

def pteBit (h : Handle) (k : Nat) : Bool := h.attr.getLsbD k

def lc (h : Handle) : Nat := (h.attr.extractLsb' 3 2).toNat

/-- The page's size: 1 GB with `L`. -/
def size (h : Handle) : Nat := if h.attr.getLsbD 8 then 2 ^ 30 else 2 ^ 21

/-- The package of the frame. -/
def pkg (h : Handle) : Nat := h.frame.toNat / 2 ^ 27

/-- The local address of the page. -/
def base (h : Handle) : Nat := h.frame.toNat % 2 ^ 27 * 2 ^ 21

/-- Offset of the base in its page. -/
def ofs (h : Handle) : Nat := h.vbase.toNat % h.size

end Handle

/-- The page that the handle's base lies in, as a virtual address. -/
def handlePage (h : Handle) : Nat := h.vbase.toNat / h.size * h.size

/-- The home of a frame, named by its pod physical address: its package, whatever its class (10_memory R231). A page
of host memory is one of class 3 that lies nowhere in the local map and that the platform maps to the host (DESIGN
CHOICE, log 17). -/
def State.homeOf (s : State) (pa lc : Nat) : Home :=
  if pa / 2 ^ 48 != s.pkg then .peer (pa / 2 ^ 48)
  else if lc = 3 ∧ !present (pa % 2 ^ 48) 1 ∧ Config.hostFrame (pa / 2 ^ 21) then .host
  else .here

/-- The home of a valid handle's page. -/
def State.home (s : State) (h : Handle) : Home := s.homeOf (h.frame.toNat * 2 ^ 21) h.lc

/-- An offset added to an address that may leave its range. -/
def addOfs (a : Nat) (d : Int) : Int := (a : Int) + d

/-! ## Element access sizes -/

/-- Bytes of a scalar form (10_memory R245). -/
def widBytes (wid : Nat) : Nat := if wid < 2 then 1 else if wid < 4 then 2 else if wid < 6 then 4 else 8

/-- Loaded bytes extended to 64 bits (10_memory R246). -/
def widExtend (wid v : Nat) : Word :=
  match wid with
  | 0 => (BitVec.ofNat 8 v).signExtend 64
  | 2 => (BitVec.ofNat 16 v).signExtend 64
  | 4 => (BitVec.ofNat 32 v).signExtend 64
  | _ => BitVec.ofNat 64 v

end Sys2Proof.Machine
end

