-- ==== Sys2Proof/Machine/Issue.lean ====
section
/-! DEFINITION. How a bundle issues (02_bundle R49 to R51, 04_sequencing R72 to R82, 17_power R385): interlocks, waits,
the order of causes, the effects in slot order, the next bundle, and the beat. -/

namespace Sys2Proof.Machine

/-- What one op does, as the issue of a bundle needs it. `reads` and `writes` name physical registers; a write has its
latency, or none if it locks its register. `hold` and `wait` answer the stall counter that counts while the op cannot issue:
an op with a cause of its own waits under `hold` alone (`OpSem.stall`). `fault` is its first cause, `ask` what it asks of
the translation unit or the layout cache while it waits, and `act` its effect: the first state is the one before the bundle,
whose registers it reads. `check` is a cause that it finds behind the effects of earlier slots. `late` is an effect that
holds for later bundles alone, after every `act`. `chans` names the copy channels to whose queues it appends a descriptor. -/
structure OpSem where
  path   : Path
  priv   : Bool := false
  reads  : State → Nat → List PDest := fun _ _ => []
  writes : State → Nat → List (PDest × Option Nat) := fun _ _ => []
  pops   : List Nat := []
  pushes : List Nat := []
  chans  : State → Nat → List Nat := fun _ _ => []
  hold   : State → Nat → Option Nat := fun _ _ => none
  wait   : State → Nat → Option Nat := fun _ _ => none
  fault  : State → Nat → Option Ev := fun _ _ => none
  check  : State → Nat → State → Option Ev := fun _ _ _ => none
  ask    : State → Nat → State → State := fun _ _ s => s
  act    : State → Nat → State → State := fun _ _ s => s
  late   : State → Nat → State → State := fun _ _ s => s

/-- A bundle with the meanings of its ops. -/
structure Issuing where
  bundle : Bundle
  ops    : List (Slot × OpSem)

/-- What stands at a context's position: an illegal encoding with its `EW`, or a bundle. -/
inductive Fetched
  | illegal (ew : Nat)
  | legal (i : Issuing)

def Fetched.ew : Fetched → Nat
  | .illegal n => n
  | .legal i => i.bundle.ew.toNat

/-! ## Interlocks and waits -/

/-- The registers of a list that interlock: x0 and m0 never do. -/
def realReg : PDest → Bool
  | .x n => n != 0
  | .m n => n != 0
  | _ => true

/-- A register interlock holds the op (04_sequencing R79): a lock, be it of a long load or of an op whose result locks its
register until it lands (16_system R374), holds whatever latency the op has. -/
def OpSem.interlocked (o : OpSem) (s : State) (b : Nat) : Bool :=
  let c := s.ctx b
  ((o.reads s b).any fun r => realReg r && ((c.pend.any fun p => p.dst == r) || c.locks.any fun l => l.dst == r)) ||
  ((o.writes s b).any fun w => realReg w.1 && ((c.locks.any fun l => l.dst == w.1) ||
    c.pend.any fun p => p.dst == w.1 && match w.2 with
      | some lat => decide (s.core.beat + lat ≤ p.due)
      | none => false))

/-- The sheets an op reads or writes, in the order it names them. -/
def OpSem.sheets (o : OpSem) (s : State) (b : Nat) : List Nat :=
  ((o.reads s b) ++ (o.writes s b).map (·.1)).filterMap fun
    | .v p => some p
    | _ => none

/-- Cold cluster (04_sequencing R93). -/
def OpSem.cold (o : OpSem) (s : State) (b : Nat) : Option Ev :=
  ((o.sheets s b).find? fun p => (s.ctx b).clus (p / 8) == .gated).map fun p => { code := 0x03, info2 := p }

/-- Stream misuse (07_sheet R156). -/
def OpSem.misuse (o : OpSem) (s : State) (b : Nat) : Option Ev :=
  match o.pops.find? fun k => ((s.ctx b).strm k).dir != .input with
  | some k => some { code := 0x31, info2 := k }
  | none => (o.pushes.find? fun k => ((s.ctx b).strm k).dir != .output).map fun k => { code := 0x31, info2 := k }

/-- The first cause of an op that executes (02_bundle R49). -/
def OpSem.cause (o : OpSem) (s : State) (b : Nat) : Option Ev :=
  (o.cold s b).orElse fun _ => (o.misuse s b).orElse fun _ => o.fault s b

/-- Pushes to a stream that have not landed. -/
def Ctx.pushing (c : Ctx) (k : Nat) : Nat :=
  (c.pend.filter fun p => match p.dst with
    | .push j _ => j == k
    | _ => false).length

/-- A stream register holds the op: it is empty on a pop, or both its buffers are full on a push (07_sheet R155, R156,
11_copy R267). A push still in flight has its buffer already (DESIGN CHOICE, log 50). -/
def OpSem.streamHeld (o : OpSem) (s : State) (b : Nat) : Bool :=
  let c := s.ctx b
  (o.pops.any fun k => (c.strm k).dir == .input && (c.strm k).buf.isEmpty) ||
  o.pushes.any fun k => (c.strm k).dir == .output && decide (2 ≤ (c.strm k).buf.length + c.pushing k)

/-- A waking cluster holds the op (04_sequencing R93). -/
def OpSem.waking (o : OpSem) (s : State) (b : Nat) : Bool :=
  (o.sheets s b).any fun p => match (s.ctx b).clus (p / 8) with
    | .waking _ => true
    | _ => false

/-- The lower of two stall counters. -/
def lowest : Option Nat → Option Nat → Option Nat
  | none, x => x
  | x, none => x
  | some a, some b => some (min a b)

/-- The stall counter of one op that executes, its registers being ready (04_sequencing R77). An op with a cause of its
own raises it at the first beat in which the bundle would otherwise issue; only a condition that the cause leaves
without meaning, or that comes after it in the op's own order, does not hold it (DEDUCED, log 36). -/
def OpSem.stall (o : OpSem) (s : State) (b : Nat) : Option Nat :=
  lowest (if o.streamHeld s b then some 1 else none)
    (lowest (if o.waking s b then some 6 else none)
      (lowest (o.hold s b) (if (o.cause s b).isSome then none else o.wait s b)))

/-- The ops of a bundle that execute. -/
def Issuing.live (i : Issuing) (s : State) : List (Slot × OpSem) :=
  i.ops.filter fun o => executes o.2.path (s.leaf i.bundle)

/-- The depth of a channel's queue (11_copy R254). -/
def chanDepth : Nat := 32

/-- The descriptors in a channel's queue, with the aperture starts that wait for it. -/
def State.chanUsed (s : State) (ch : Nat) : Nat :=
  (tget s.copy.queues ch []).length + (s.copy.apert.filter fun a => a.chan == ch).length

/-- The queue of one of some channels has no place for all the descriptors that a bundle appends to it: a copy and an aperture
store may name one channel (11_copy R254, R274). -/
def State.chansOver (s : State) (chs : List Nat) : Bool := chs.any fun ch => decide (chanDepth < s.chanUsed ch + chs.count ch)

/-- The lowest-numbered cause that keeps a bundle from issuing (04_sequencing R77); an illegal bundle waits for
nothing (02_bundle R48). -/
def Fetched.held (f : Fetched) (s : State) (b : Nat) : Option Nat :=
  match f with
  | .illegal _ => none
  | .legal i =>
    let l := i.live s
    if l.any fun o => o.2.interlocked s b then some 0
    else l.foldl (fun r o => lowest r (o.2.stall s b)) (if s.chansOver (l.flatMap fun o => o.2.chans s b) then some 3 else none)

/-- What the ops of a held bundle ask for. -/
def Fetched.ask (f : Fetched) (s : State) (b : Nat) (t : State) : State :=
  match f with
  | .illegal _ => t
  | .legal i =>
    let l := i.live s
    if l.any fun o => o.2.interlocked s b then t
    else l.foldl (fun t o => o.2.ask s b t) t

/-! ## Causes of a bundle (02_bundle R49) -/

/-- The first cause of the ops of a bundle in slot order, `t` being the state behind the ops before them. -/
def firstOp (s : State) (b : Nat) : State → List (Slot × OpSem) → Option (Ev × Nat)
  | _, [] => none
  | t, o :: l =>
    match (o.2.cause s b).orElse fun _ => o.2.check s b t with
    | some e => some (e, o.1.num)
    | none => firstOp s b (o.2.act s b t) l

/-- The event a bundle raises, with its source (16_system R425). -/
def Fetched.event (f : Fetched) (s : State) (b : Nat) : Option (Ev × Nat) :=
  match f with
  | .illegal _ => some ({ code := 0x01 }, 15)
  | .legal i =>
    let l := i.live s
    match l.find? fun o => o.2.priv && !(s.ctx b).priv with
    | some o => some ({ code := 0x02 }, o.1.num)
    | none =>
      match s.markedTest i.bundle with
      | some n => some (poisonFlag n, 11)
      | none => firstOp s b s l

/-! ## The beat -/

/-- Pop one sheet of each stream that an executing op names (02_bundle R38, 11_copy R267). -/
def Ctx.popStream (c : Ctx) (k : Nat) : Ctx :=
  let st := c.strm k
  let st' := { st with buf := st.buf.tail, moved := st.moved + 1 }
  c.setStrm k (if st'.total ≤ st'.moved then Stream.none else st')

/-- A push in progress counts against its binding. -/
def Ctx.notePush (c : Ctx) (k : Nat) : Ctx :=
  let st := c.strm k
  if st.dir = .output then c.setStrm k { st with moved := st.moved + 1 } else c

/-- The position after a bundle that holds no transfer of its own (02_bundle R23, 04_sequencing R81). -/
def Ctx.advance (c : Ctx) (bd : Bundle) (l : Leaf) : Ctx :=
  if c.dly = 0 then
    { c with pc := match l with
        | .a => bd.targets.getD 0 0
        | .b => bd.targets.getD 1 0
        | .c => bd.targets.getD 2 0
        | .d => bd.targets.getD 3 0
        | .e => c.pc + 1 }
  else if c.dly = 1 then { c with pc := c.dtgt, dly := 0, dtgt := 0 }
  else { c with pc := c.pc + 1, dly := c.dly - 1 }

/-- The bundles a context has issued: bcnt and the count toward the deadline (04_sequencing R77, R97). -/
def Ctx.count (c : Ctx) (b : Nat) : Ctx :=
  { c with bcnt := c.bcnt + 1, since := if b = 15 then 0 else c.since + 1, atPoint := false, waitBts := 0 }

/-- A bundle takes effect (02_bundle R51): its ops in slot order, each reading the state `pre` before it. -/
def Issuing.effect (i : Issuing) (pre s : State) (b : Nat) : State :=
  let l := i.live pre
  let s1 := s.modCtx b fun c => (c.count b).advance i.bundle (pre.leaf i.bundle)
  let s2 := l.foldl (fun t o => o.2.act pre b t) s1
  let s3 := (l.flatMap (·.2.pops)).dedup.foldl (fun t k => t.modCtx b (·.popStream k)) s2
  let s4 := (l.flatMap (·.2.pushes)).foldl (fun t k => t.modCtx b (·.notePush k)) s3
  l.foldl (fun t o => o.2.late pre b t) s4

/-- S of 17_power R385. -/
def State.windowSum (s : State) : Nat :=
  (s.core.window.filter fun w => decide (s.core.beat < w.1 + 64)).foldl (fun n w => n + w.2) 0

/-- The energy test (17_power R385). -/
def State.energyOk (s : State) (ew : Nat) : Bool :=
  s.windowSum == 0 || decide (s.windowSum + ew ≤ s.pow.grant.toNat)

/-- The end of a beat: stalls are counted against the given causes by seat (04_sequencing R77), a context that did not
issue is no longer at a pre-emption point, the beat advances, and the rows of an AMOS that are due are applied. A beat that
counts another stall counter than stb2 and stb4 breaks the row of beats of R96 (DESIGN CHOICE, log 96). -/
def State.endBeat (s : State) (causes : List (Nat × Option Nat)) : State :=
  let s1 := causes.foldl (fun t e => t.modCtx e.1 fun c =>
    let c1 := match e.2 with
      | some k => c.setStall k (c.stall k + 1)
      | none => c
    { c1 with
      waitBts := if e.2 = some 2 ∨ e.2 = some 4 then c1.waitBts + 1 else 0,
      atPoint := false }) s
  State.amosTick { s1 with
    core := { s1.core with
      beat := s1.core.beat + 1, window := s1.core.window.filter fun w => decide (s1.core.beat + 1 < w.1 + 64) },
    ms := { s1.ms with flagsWas := [] } }

/-- Record that a bundle of weight `ew` issues in this beat, and that its context keeps the issue width. -/
def State.noteIssue (s : State) (ew : Nat) : State :=
  { s with core := { s.core with
    window := (s.core.beat, ew) :: s.core.window, runCtr := s.core.runCtr + 1, yielded := false, adrift := false } }

/-- Forget a refusal: the access that met it has raised its fault. -/
def State.clearRefusal (s : State) (asid : BitVec 13) (page : Nat) : State :=
  { s with ms := { s.ms with flips := s.ms.flips.map fun e =>
      if e.asid == asid && e.page == page then { e with refused := false } else e } }

/-- The refusal that an ownership-flip fault reports is used up by it. -/
def State.usedRefusal (s : State) (b : Nat) (e : Ev) : State :=
  if e.code = 0x14 then
    let h := (s.ctx b).hv (e.info2 / 2 ^ 16 % 32)
    s.clearRefusal h.tasid (handlePage h)
  else s

/-- The context in bank `b` issues the bundle `f` in this beat; the other seated contexts stall for the given causes.
An event replaces every effect (02_bundle R49). -/
def State.issueNow (s : State) (b : Nat) (f : Fetched) (others : List (Nat × Option Nat)) : State :=
  let n := (s.ctx b).pc
  match f.event s b with
  | some (e, slot) => (((s.noteIssue f.ew).endBeat others).usedRefusal b e).takeException b e slot n n
  | none =>
    match f with
    | .illegal _ => s
    | .legal i =>
      let s1 := (i.effect s (s.noteIssue f.ew) b).endBeat others
      -- a trap holds the context once the whole bundle has taken effect (04_sequencing R94)
      match (i.live s).findSome? fun o => trapCode i.bundle o.1 with
      | some tc => s1.takeException b { code := 0x07, info1 := tc } 10 n (s1.ctx b).pc
      | none =>
        if (s1.ctx b).ended.isSome then s1.leaveSeat b
        else s1.modCtx b fun c => if c.since = 65536 then { c with dline := some n } else c
where
  trapCode (bd : Bundle) (sl : Slot) : Option Nat :=
    if sl = .ctl then
      match bd.ctl with
      | some (.trapc _ tc) => some tc.toNat
      | _ => none
    else none

/-- The causes of the seated contexts. -/
def State.causes (s : State) (fetch : Nat → Fetched) : List (Nat × Option Nat) :=
  ((List.range 4).filterMap s.seated).map fun k => (k, (fetch k).held s k)

/-- The causes of the seated contexts other than bank `b`. -/
def State.otherCauses (s : State) (b : Nat) (fetch : Nat → Fetched) : List (Nat × Option Nat) :=
  (s.causes fetch).filter fun e => e.1 != b

/-- The resident contexts that have a bundle to issue. -/
def State.awaiting (s : State) : List Nat := (s.core.banks.filter fun e => e.2.ended.isNone && e.2.held == 0).map (·.1)

/-- What the resident contexts whose bundles are held ask for in this beat (10_memory R236, 11_copy R259; that a context
without a seat asks too is DEDUCED, log 37). -/
def State.asks (s : State) (fetch : Nat → Fetched) : State :=
  s.awaiting.foldl (fun t k => if ((fetch k).held s k).isSome then (fetch k).ask s k t else t) s

/-- A beat in which no bundle issues for want of a ready context: the running context has given up the issue width. -/
def State.idleBeat (s : State) (fetch : Nat → Fetched) : State :=
  ({ s with core := { s.core with yielded := false, adrift := true } } : State).endBeat (s.causes fetch)

/-- One beat of the running context in bank `b` with bundle `f`: it issues if it is ready, or the energy test inserts a
stall beat, in which a context with a lower-numbered cause of its own counts that (17_power R385); or the beat
passes. -/
def State.beatOf (s0 : State) (b : Nat) (f : Fetched) (fetch : Nat → Fetched) : State :=
  let g : Nat → Fetched := fun k => if k = b then f else fetch k
  let s := s0.asks g
  if (f.held s0 b).isSome then s.idleBeat g
  else if s.energyOk f.ew then s.issueNow b f (s.otherCauses b g)
  else
    let s1 := s.endBeat ((s.causes g).map fun e => (e.1, lowest e.2 (some 5)))
    { s1 with core := { s1.core with ins := s1.core.ins + 1 } }

end Sys2Proof.Machine
end

