-- ==== Sys2Proof/Machine/Scalar.lean ====
section
/-! DEFINITION. What each integer op of the S slots does (06_scalar R124 to R136). -/

namespace Sys2Proof.Machine

/-! ## Shared operations -/

/-- An op of one source and one destination scalar: the result lands `lat` beats after issue with the source's mark. -/
def alu1 (p : Path) (xd xa : XReg) (lat : Nat) (f : Word → Word) : OpSem :=
  { path := p
    reads := fun _ _ => [.x xa.toNat]
    writes := fun _ _ => [(.x xd.toNat, some lat)]
    act := fun pre b s => let c := pre.ctx b; s.landX b xd (f (c.xw xa)) (c.xm xa) lat }

/-- An op of two source scalars: the result's mark is the OR of theirs (06_scalar R126). -/
def alu2 (p : Path) (xd xa xb : XReg) (lat : Nat) (f : Word → Word → Word) : OpSem :=
  { path := p
    reads := fun _ _ => [.x xa.toNat, .x xb.toNat]
    writes := fun _ _ => [(.x xd.toNat, some lat)]
    act := fun pre b s => let c := pre.ctx b
      s.landX b xd (f (c.xw xa) (c.xw xb)) (c.xm xa || c.xm xb) lat }

/-- Upper half of the signed product. -/
def mulHigh (a b : Word) : Word := BitVec.ofInt 64 (a.toInt * b.toInt / (2 ^ 64 : Nat))

/-- Upper half of the natural product. -/
def mulHighU (a b : Word) : Word := BitVec.ofNat 64 (a.toNat * b.toNat / 2 ^ 64)

/-- Division rounds toward zero; a zero divisor gives all ones (05_numbers R116). -/
def divS (a b : Word) : Word := if b = 0 then BitVec.allOnes 64 else a.sdiv b

def divU (a b : Word) : Word := if b = 0 then BitVec.allOnes 64 else a.udiv b

/-- The remainder has the dividend's sign; a zero divisor gives the dividend (05_numbers R116). -/
def remS (a b : Word) : Word := if b = 0 then a else a.srem b

def remU (a b : Word) : Word := if b = 0 then a else a.umod b

/-- Shifts by an amount without limit (06_scalar R127). -/
def shlW (a : Word) (n : Nat) : Word := if 64 ≤ n then 0 else a <<< n

def shrW (a : Word) (n : Nat) : Word := if 64 ≤ n then 0 else a >>> n

def sraW (a : Word) (n : Nat) : Word := a.sshiftRight (min n 64)

def popW (a : Word) : Nat := ((List.range 64).filter fun k => a.getLsbD k).length

/-- Zero bits above the highest set bit. -/
def clzW (a : Word) : Nat := ((List.range 64).takeWhile fun k => !a.getLsbD (63 - k)).length

/-- Zero bits below the lowest set bit. -/
def ctzW (a : Word) : Nat := ((List.range 64).takeWhile fun k => !a.getLsbD k).length

/-- A flag write of a fixed latency (06_scalar R135): tests see it `lat` beats after issue, and its place among the
writes of the word is that of its issue. Behind a release to the same word that has not landed it lands after it
(12_sync R280). -/
def State.landFlagAt (s : State) (b lat n : Nat) (v : Bool) (mark : Bool) (fx : Fx) : State :=
  let w : FlagW := ⟨if v then 1 else 0, mark⟩
  if s.olderRelease (s.ctx b).uid s.seq [n] then
    (s.landAt b (s.core.beat + lat) (.x 0) (.x ⟨0, false⟩) fx true).queueFlagAt b lat .ctx n (.set w)
  else
    let s1 := s.amosFlush.landAt b (s.core.beat + lat) (.flag n) (.flag w) fx true
    { s1 with seq := s1.seq + 1 }

/-- A long load or remote atomic of the context has neither arrived nor failed (15_ordering R349, R351): a core write to
the local scratchpad space waits for it on stb7. -/
def State.longWait (s : State) (b : Nat) : Option Nat :=
  if s.ms.flight.any fun a => a.uid == (s.ctx b).uid && (a.kind == .load || (a.kind == .amo && a.dest != .none) ||
    (a.kind == .amo && a.rd.any fun r => r.home != .here)) then some 7 else none

/-- An access of the context older than `seq` that loads has not performed; an atomic counts in both classes
(12_sync R291). -/
def State.oldLoad (s : State) (uid seq : Nat) : Bool :=
  (s.ms.flight.any fun a => a.uid == uid && decide (a.seq < seq) && a.kind != .store) ||
  s.ms.amos.any fun r => r.uid == uid && decide (r.seq < seq)

/-- An access of the context older than `seq` that stores has not performed: a store, an atomic, a flag write or a
POST. -/
def State.oldStore (s : State) (uid seq : Nat) : Bool :=
  (s.ms.flight.any fun a => a.uid == uid && decide (a.seq < seq) && a.kind != .load) ||
  (s.ms.amos.any fun r => r.uid == uid && decide (r.seq < seq)) || s.flagInFlight uid seq || s.posting uid seq

/-- A fence in force holds an access of the given classes (12_sync R291) until the older accesses it orders have
performed. -/
def State.fenceWait (s : State) (b : Nat) (load store : Bool) : Option Nat :=
  let c := s.ctx b
  if c.fences.any fun f => f.scp != .ctx &&
      ((((f.kind.getLsbD 0 && load) || (f.kind.getLsbD 1 && store)) && s.oldLoad c.uid f.seq) ||
       (((f.kind.getLsbD 2 && load) || (f.kind.getLsbD 3 && store)) && s.oldStore c.uid f.seq))
  then some 2 else none

/-- An acquiring atomic, an EVPOP or a CRST of the context has not performed: an access that would perform at its issue
waits for it (12_sync R294, 16_system R375, R380; stb7 is DEDUCED, log 20). -/
def State.acquiring (s : State) (b : Nat) : Option Nat :=
  let u := (s.ctx b).uid
  if (s.ms.flight.any fun a => a.uid == u && a.acq) || s.acquirePending u s.seq then some 7 else none

/-- The waits of a write that performs as its op issues: a flag's by a compare or an SY op, and LQRY's. -/
def State.flagWriteWait (s : State) (b : Nat) : Option Nat :=
  lowest (s.fenceWait b false true) (lowest (s.longWait b) (s.acquiring b))

/-! ## Integer arithmetic and logic -/

/-- ADD (06_scalar R127). -/
def addSem (p : Path) (xd xa xb : XReg) : OpSem :=
  alu2 p xd xa xb 1 fun a b => a + b

/-- SUB (06_scalar R127). -/
def subSem (p : Path) (xd xa xb : XReg) : OpSem :=
  alu2 p xd xa xb 1 fun a b => a - b

/-- MUL (06_scalar R127). -/
def mulSem (p : Path) (xd xa xb : XReg) : OpSem :=
  alu2 p xd xa xb 3 fun a b => a * b

/-- MULH (06_scalar R127). -/
def mulhSem (p : Path) (xd xa xb : XReg) : OpSem :=
  alu2 p xd xa xb 3 fun a b => mulHigh a b

/-- MULHU (06_scalar R127). -/
def mulhuSem (p : Path) (xd xa xb : XReg) : OpSem :=
  alu2 p xd xa xb 3 fun a b => mulHighU a b

/-- DIV (06_scalar R127, 05_numbers R116). -/
def divSem (p : Path) (xd xa xb : XReg) : OpSem :=
  alu2 p xd xa xb 20 fun a b => divS a b

/-- DIVU (06_scalar R127, 05_numbers R116). -/
def divuSem (p : Path) (xd xa xb : XReg) : OpSem :=
  alu2 p xd xa xb 20 fun a b => divU a b

/-- REM (06_scalar R127, 05_numbers R116). -/
def remSem (p : Path) (xd xa xb : XReg) : OpSem :=
  alu2 p xd xa xb 20 fun a b => remS a b

/-- REMU (06_scalar R127, 05_numbers R116). -/
def remuSem (p : Path) (xd xa xb : XReg) : OpSem :=
  alu2 p xd xa xb 20 fun a b => remU a b

/-- AND (06_scalar R127). -/
def andSem (p : Path) (xd xa xb : XReg) : OpSem :=
  alu2 p xd xa xb 1 fun a b => a &&& b

/-- OR (06_scalar R127). -/
def orSem (p : Path) (xd xa xb : XReg) : OpSem :=
  alu2 p xd xa xb 1 fun a b => a ||| b

/-- XOR (06_scalar R127). -/
def xorSem (p : Path) (xd xa xb : XReg) : OpSem :=
  alu2 p xd xa xb 1 fun a b => a ^^^ b

/-- ANDN (06_scalar R127). -/
def andnSem (p : Path) (xd xa xb : XReg) : OpSem :=
  alu2 p xd xa xb 1 fun a b => a &&& ~~~b

/-- SHL (06_scalar R127). -/
def shlSem (p : Path) (xd xa xb : XReg) : OpSem :=
  alu2 p xd xa xb 1 fun a b => shlW a b.toNat

/-- SHR (06_scalar R127). -/
def shrSem (p : Path) (xd xa xb : XReg) : OpSem :=
  alu2 p xd xa xb 1 fun a b => shrW a b.toNat

/-- SRA (06_scalar R127). -/
def sraSem (p : Path) (xd xa xb : XReg) : OpSem :=
  alu2 p xd xa xb 1 fun a b => sraW a b.toNat

/-- ROR (06_scalar R127). -/
def rorSem (p : Path) (xd xa xb : XReg) : OpSem :=
  alu2 p xd xa xb 1 fun a b => a.rotateRight (b.toNat % 64)

/-- MIN (06_scalar R127). -/
def minSem (p : Path) (xd xa xb : XReg) : OpSem :=
  alu2 p xd xa xb 1 fun a b => if b.slt a then b else a

/-- MAX (06_scalar R127). -/
def maxSem (p : Path) (xd xa xb : XReg) : OpSem :=
  alu2 p xd xa xb 1 fun a b => if a.slt b then b else a

/-- MINU (06_scalar R127). -/
def minuSem (p : Path) (xd xa xb : XReg) : OpSem :=
  alu2 p xd xa xb 1 fun a b => if b.ult a then b else a

/-- MAXU (06_scalar R127). -/
def maxuSem (p : Path) (xd xa xb : XReg) : OpSem :=
  alu2 p xd xa xb 1 fun a b => if a.ult b then b else a

/-- ADDI (06_scalar R128). -/
def addiSem (p : Path) (xd xa : XReg) (imm : BitVec 33) : OpSem :=
  alu1 p xd xa 1 fun a => a + imm.signExtend 64

/-- ANDI (06_scalar R128). -/
def andiSem (p : Path) (xd xa : XReg) (imm : BitVec 33) : OpSem :=
  alu1 p xd xa 1 fun a => a &&& imm.signExtend 64

/-- ORI (06_scalar R128). -/
def oriSem (p : Path) (xd xa : XReg) (imm : BitVec 33) : OpSem :=
  alu1 p xd xa 1 fun a => a ||| imm.signExtend 64

/-- XORI (06_scalar R128). -/
def xoriSem (p : Path) (xd xa : XReg) (imm : BitVec 33) : OpSem :=
  alu1 p xd xa 1 fun a => a ^^^ imm.signExtend 64

/-- SHLI (06_scalar R128). -/
def shliSem (p : Path) (xd xa : XReg) (amt : BitVec 6) : OpSem :=
  alu1 p xd xa 1 fun a => shlW a amt.toNat

/-- SHRI (06_scalar R128). -/
def shriSem (p : Path) (xd xa : XReg) (amt : BitVec 6) : OpSem :=
  alu1 p xd xa 1 fun a => shrW a amt.toNat

/-- SRAI (06_scalar R128). -/
def sraiSem (p : Path) (xd xa : XReg) (amt : BitVec 6) : OpSem :=
  alu1 p xd xa 1 fun a => sraW a amt.toNat

/-- RORI (06_scalar R128). -/
def roriSem (p : Path) (xd xa : XReg) (amt : BitVec 6) : OpSem :=
  alu1 p xd xa 1 fun a => a.rotateRight amt.toNat

/-- CLZ (06_scalar R131). -/
def clzSem (p : Path) (xd xa : XReg) : OpSem :=
  alu1 p xd xa 1 fun a => BitVec.ofNat 64 (clzW a)

/-- CTZ (06_scalar R131). -/
def ctzSem (p : Path) (xd xa : XReg) : OpSem :=
  alu1 p xd xa 1 fun a => BitVec.ofNat 64 (ctzW a)

/-- POPC (06_scalar R131). -/
def popcSem (p : Path) (xd xa : XReg) : OpSem :=
  alu1 p xd xa 1 fun a => BitVec.ofNat 64 (popW a)

/-- BREV (06_scalar R131). -/
def brevSem (p : Path) (xd xa : XReg) : OpSem :=
  alu1 p xd xa 1 fun a => a.reverse

/-- ABS (06_scalar R131). -/
def absSem (p : Path) (xd xa : XReg) : OpSem :=
  alu1 p xd xa 1 fun a => if a.slt 0 then -a else a

/-- MADD (06_scalar R130). -/
def maddSem (p : Path) (xd xa xb xc : XReg) : OpSem :=
  { path := p
    reads := fun _ _ => [.x xa.toNat, .x xb.toNat, .x xc.toNat]
    writes := fun _ _ => [(.x xd.toNat, some 3)]
    act := fun pre b s => let c := pre.ctx b
      s.landX b xd (c.xw xa * c.xw xb + c.xw xc) (c.xm xa || c.xm xb || c.xm xc) 3 }

/-- MOVI (06_scalar R129). -/
def moviSem (p : Path) (xd : XReg) (imm : BitVec 33) : OpSem :=
  { path := p
    writes := fun _ _ => [(.x xd.toNat, some 1)]
    act := fun _ b s => s.landX b xd (imm.signExtend 64) false 1 }

/-- MOVHI (06_scalar R129). -/
def movhiSem (p : Path) (xd xa : XReg) (imm : BitVec 32) : OpSem :=
  alu1 p xd xa 1 fun a => imm ++ a.extractLsb' 0 32

/-- BEXT (06_scalar R132). -/
def bextSem (p : Path) (xd xa : XReg) (sx : Bool) (len : BitVec 7) (pos : BitVec 6) : OpSem :=
  alu1 p xd xa 1 fun a =>
    let n := a.toNat / 2 ^ pos.toNat % 2 ^ len.toNat
    if sx then BitVec.ofInt 64 (intVal true len.toNat n) else BitVec.ofNat 64 n

/-- BINS (06_scalar R132). -/
def binsSem (p : Path) (xd xa xb : XReg) (len : BitVec 7) (pos : BitVec 6) : OpSem :=
  alu2 p xd xa xb 1 fun a b =>
    let m : Word := BitVec.ofNat 64 ((2 ^ len.toNat - 1) * 2 ^ pos.toNat)
    (b &&& ~~~m) ||| ((a <<< pos.toNat) &&& m)

/-- SEL (06_scalar R133): the flag is sampled as a test samples it; its mark joins the chosen register's. -/
def selSem (p : Path) (xd : XReg) (fix : FlagIx) (xa xb : XReg) : OpSem :=
  { path := p
    reads := fun _ _ => [.x xa.toNat, .x xb.toNat]
    writes := fun _ _ => [(.x xd.toNat, some 1)]
    act := fun pre b s =>
      let c := pre.ctx b
      let f := pre.flag fix.toNat
      let n := if f.val != 0 then xa else xb
      s.landX b xd (c.xw n) (c.xm n || f.mark) 1 }

/-! ## Compares and loop state -/

/-- A compare writing one flag (06_scalar R134, R135). -/
def cmpWith (p : Path) (fix : FlagIx) (srcs : List XReg) (f : Ctx → Bool) : OpSem :=
  { path := p
    reads := fun _ _ => srcs.map fun x => .x x.toNat
    hold := fun s b => s.flagWriteWait b
    fault := fun s b => f0Fault (s.ctx b) fix.toNat
    act := fun pre b s => let c := pre.ctx b
      s.landFlagAt b 1 fix.toNat (f c) (srcs.any fun x => c.xm x) 0 }

/-- CMP (06_scalar R134, R135). -/
def cmpSem (p : Path) (cond : BitVec 4) (fix : FlagIx) (xa xb : XReg) : OpSem :=
  cmpWith p fix [xa, xb] fun c => condInt cond (c.xw xa) (c.xw xb)

/-- CMPI (06_scalar R134, R135). -/
def cmpiSem (p : Path) (cond : BitVec 4) (fix : FlagIx) (xa : XReg) (cimm : BitVec 17) : OpSem :=
  cmpWith p fix [xa] fun c => condInt cond (c.xw xa) (cimm.signExtend 64)

/-- A read of a loop entry (06_scalar R136). -/
def loopRead (p : Path) (xd : XReg) (d : BitVec 3) (f : LoopE → Nat) : OpSem :=
  { path := p
    writes := fun _ _ => [(.x xd.toNat, some 1)]
    fault := fun s b => let n := (s.ctx b).loops.length
      if n ≤ d.toNat then some { code := 0x05, info1 := n } else none
    act := fun pre b s =>
      let l := (pre.ctx b).loops
      match l[l.length - 1 - d.toNat]? with
      | some e => s.landX b xd (BitVec.ofNat 64 (f e)) false 1
      | none => s }

/-- LIX (06_scalar R136). -/
def lixSem (p : Path) (xd : XReg) (d : BitVec 3) : OpSem := loopRead p xd d fun e => e.idx.toNat

/-- LCNT (06_scalar R136). -/
def lcntSem (p : Path) (xd : XReg) (d : BitVec 3) : OpSem := loopRead p xd d fun e => e.rem.toNat

end Sys2Proof.Machine
end

