-- ==== Sys2Proof/Machine/Float.lean ====
section
/-! DEFINITION. What each scalar floating-point op does (06_scalar R137 to R141). -/

namespace Sys2Proof.Machine

/-- The FP32 value of a scalar's low half (06_scalar R137). -/
def Ctx.fp (c : Ctx) (x : XReg) : XR := fF32.val ((c.xw x).toNat % 2 ^ 32)

/-- An FP32 result: rounded under the op's mode, which is never SR (06_scalar R137, R138). -/
def fpResult (c : Ctx) (rnd : Rnd) (f : Rnd → XR × Bool) : Nat × Fx :=
  let mode := effMode rnd c.fpm false
  let r := f mode
  let o := fF32.round r.1 mode false 0
  (o.1, o.2 ||| nvIf r.2)

/-- A scalar FP op: value and flags land together, `lat` beats after issue (05_numbers R108). -/
def fpOp (p : Path) (xd : XReg) (srcs : List XReg) (lat : Nat) (f : Ctx → Nat × Fx) : OpSem :=
  { path := p
    reads := fun _ _ => srcs.map fun x => .x x.toNat
    writes := fun _ _ => [(.x xd.toNat, some lat)]
    act := fun pre b s =>
      let c := pre.ctx b
      let r := f c
      s.landAt b (s.core.beat + lat) (.x xd.toNat) (.x ⟨BitVec.ofNat 64 r.1, srcs.any fun x => c.xm x⟩) r.2 true }

/-- FADDS (06_scalar R138). -/
def faddsSem (p : Path) (xd xa xb : XReg) (rnd : Rnd) : OpSem :=
  fpOp p xd [xa, xb] 4 fun c => fpResult c rnd fun m => XR.add m (c.fp xa) (c.fp xb)

/-- FSUBS (06_scalar R138). -/
def fsubsSem (p : Path) (xd xa xb : XReg) (rnd : Rnd) : OpSem :=
  fpOp p xd [xa, xb] 4 fun c => fpResult c rnd fun m => XR.add m (c.fp xa) (c.fp xb).flip

/-- FMULS (06_scalar R138). -/
def fmulsSem (p : Path) (xd xa xb : XReg) (rnd : Rnd) : OpSem :=
  fpOp p xd [xa, xb] 4 fun c => fpResult c rnd fun _ => XR.mul (c.fp xa) (c.fp xb)

/-- FFMAS (06_scalar R138). -/
def ffmasSem (p : Path) (xd xa xb xc : XReg) (rnd : Rnd) : OpSem :=
  fpOp p xd [xa, xb, xc] 4 fun c => fpResult c rnd fun m => XR.fma m (c.fp xa) (c.fp xb) (c.fp xc)

/-- FMINS (06_scalar R138, 05_numbers R115). -/
def fminsSem (p : Path) (xd xa xb : XReg) : OpSem :=
  fpOp p xd [xa, xb] 4 fun c => fpResult c .rne fun _ => XR.pick false (c.fp xa) (c.fp xb)

/-- FMAXS (06_scalar R138, 05_numbers R115). -/
def fmaxsSem (p : Path) (xd xa xb : XReg) : OpSem :=
  fpOp p xd [xa, xb] 4 fun c => fpResult c .rne fun _ => XR.pick true (c.fp xa) (c.fp xb)

/-- FCMPS (06_scalar R139). -/
def fcmpsSem (p : Path) (cond : BitVec 4) (fix : FlagIx) (xa xb : XReg) : OpSem :=
  { path := p
    reads := fun _ _ => [.x xa.toNat, .x xb.toNat]
    hold := fun s b => s.flagWriteWait b
    fault := fun s b => f0Fault (s.ctx b) fix.toNat
    act := fun pre b s => let c := pre.ctx b
      s.landFlagAt b 4 fix.toNat (condFp cond (c.fp xa) (c.fp xb)) (c.xm xa || c.xm xb) (cmpFx (c.fp xa) (c.fp xb)) }

/-- Advance the draw counter of a context once (05_numbers R106). -/
def State.drew (s : State) (b : Nat) (sr : Bool) : State :=
  if sr then s.modCtx b fun c => { c with src := c.src + 1 } else s

/-- The value an integer source gives a conversion (06_scalar R140). -/
def cvtSource (ity : BitVec 4) (a : Word) : Int :=
  match ity.toNat with
  | 0 => intVal true 32 (a.toNat % 2 ^ 32)
  | 1 => intVal false 32 (a.toNat % 2 ^ 32)
  | 2 => a.toInt
  | _ => (a.toNat : Int)

/-- FCVTIS (06_scalar R140, 05_numbers R113). Several draws of one bundle take consecutive counts, in slot order. -/
def fcvtisSem (p : Path) (xd xa : XReg) (ity : BitVec 4) (rnd : Rnd) : OpSem :=
  { path := p
    reads := fun _ _ => [.x xa.toNat]
    writes := fun _ _ => [(.x xd.toNat, some 4)]
    act := fun pre b s =>
      let c := pre.ctx b
      let mode := effMode rnd c.fpm true
      let r := fF32.round (XR.ofInt (cvtSource ity (c.xw xa)) 0 false) mode false (srBits c.srs (s.ctx b).src 32768 0)
      (s.drew b (mode == .sr)).landAt b (s.core.beat + 4) (.x xd.toNat) (.x ⟨BitVec.ofNat 64 r.1, c.xm xa⟩) r.2 true }

/-- The 64 bits of an integer conversion's result (06_scalar R141). -/
def cvtResult (ity : BitVec 4) (n : Nat) : Word :=
  if ity = 0 then (BitVec.ofNat 32 n).signExtend 64 else BitVec.ofNat 64 n

/-- FCVTSI (06_scalar R141, 05_numbers R112). -/
def fcvtsiSem (p : Path) (xd xa : XReg) (ity : BitVec 4) (sat : Bool) (rnd : Rnd) : OpSem :=
  { path := p
    reads := fun _ _ => [.x xa.toNat]
    writes := fun _ _ => [(.x xd.toNat, some 4)]
    act := fun pre b s =>
      let c := pre.ctx b
      let mode := effMode rnd c.fpm true
      let w := if ity.toNat < 2 then 32 else 64
      let r := toInt (c.fp xa) (ity.toNat % 2 == 0) w mode sat (srBits c.srs (s.ctx b).src 32768 0)
      (s.drew b (mode == .sr)).landAt b (s.core.beat + 4) (.x xd.toNat) (.x ⟨cvtResult ity r.1, c.xm xa⟩) r.2 true }

/-- FRCPS (06_scalar R138, 05_numbers R121, R122). -/
def frcpsSem (p : Path) (xd xa : XReg) : OpSem :=
  fpOp p xd [xa] 6 fun c => fnRound fF32 (fnRcp (c.fp xa))

end Sys2Proof.Machine
end

