-- ==== Sys2Proof/Machine/Sheet.lean ====
section
/-! DEFINITION. What each sheet op does (07_sheet R155 to R182). -/

namespace Sys2Proof.Machine

/-! ## The frame of a V op -/

/-- What a V op computes from: the context before the bundle, the draw counter it finds, its operands and its mask. -/
structure VIn where
  ctx  : Ctx
  o    : VOp
  src  : BitVec 32
  a    : SVal
  b    : SVal
  c    : SVal
  ma   : MaskV
  mb   : MaskV
  lm   : MaskV
  used : List SVal

/-- What a V op computes: the lanes of its result, the marks of its rows before merging, and its flags. A result to a
mask has 0 and 1 in its lanes. -/
structure VRes where
  lane : Nat → Lane
  mark : Nat → Bool
  fx   : Fx

/-- The row of 07_sheet R161 for an op. -/
def vRowOf (i : Instr) : VRow :=
  match i.vRow with
  | some r => r.2
  | none => { types := fun _ => false, rnd := .zero, sat := .zero }

def useReads (c : Ctx) (u : Use) (x : BitVec 9) (xb : XReg) : List PDest :=
  match u with
  | .none => []
  | .mask => [.m (c.physM x.toNat)]
  | .sheet | .opt => if u.used x then c.opndReads x xb else []

def usePops (u : Use) (x : BitVec 9) : List Nat :=
  match u with
  | .sheet | .opt => if u.used x then opndPops x else []
  | _ => []

def useVals (c : Ctx) (u : Use) (x : BitVec 9) (xb : XReg) : List SVal :=
  match u with
  | .sheet | .opt => if u.used x then [c.opnd x xb] else []
  | _ => []

/-- An operand's value; an unused one reads as zero. -/
def useVal (c : Ctx) (u : Use) (x : BitVec 9) (xb : XReg) : SVal := ((useVals c u x xb).head?).getD (.bcast 0 false)

/-- The op merges with its destination's old value (07_sheet R157). -/
def vMerges (r : VRow) (o : VOp) : Bool := r.mzFree && o.mask != 0 && !o.mz

/-- The register an op writes, or the stream it pushes to. -/
def vDest (c : Ctx) (r : VRow) (o : VOp) : List PDest :=
  if r.toMask then [.m (c.physM o.vd.toNat)]
  else if o.vd.toNat < 32 then [.v (c.physV o.vd.toNat)]
  else let k := o.vd.toNat - 32; [.push k (c.strm k).desc]

def vIn (pre s : State) (b : Nat) (r : VRow) (o : VOp) : VIn :=
  let c := pre.ctx b
  { ctx := c, o := o, src := (s.ctx b).src, a := useVal c r.a o.a o.xb, b := useVal c r.b o.b o.xb, c := useVal c r.c o.c o.xb,
    ma := c.maskOf o.a.toNat, mb := c.maskOf o.b.toNat, lm := c.maskOf o.mask.toNat,
    used := useVals c r.a o.a o.xb ++ useVals c r.b o.b o.xb ++ useVals c r.c o.c o.xb }

/-- The effective mode of a V op. -/
def VIn.mode (v : VIn) (acceptsSR : Bool) : Rnd := effMode v.o.rnd v.ctx.fpm acceptsSR

/-- A lane the op writes. -/
def VIn.written (v : VIn) (l : Nat) : Bool := v.o.mask == 0 || v.lm.bits.getLsbD l

/-- A row of a row-local result takes the marks of the same row of every operand (07_sheet R158). -/
def VIn.rowMark (v : VIn) (r : Nat) : Bool := v.used.any fun o => o.mark r

/-- Land a V op's result (07_sheet R156, R157). -/
def State.landV (pre s : State) (b : Nat) (r : VRow) (o : VOp) (lat : Nat) (v : VRes) : State :=
  let c := pre.ctx b
  let mk := c.maskOf o.mask.toNat
  let masked := r.mzFree && o.mask != 0
  let due := pre.core.beat + lat
  if r.toMask then
    let p := c.physM o.vd.toNat
    s.landAt b due (.m p) (.m (mergeMask (c.mv p) mk masked o.mz (fun l => v.lane l != 0) v.mark)) v.fx true
  else if o.vd.toNat < 32 then
    let p := c.physV o.vd.toNat
    s.landAt b due (.v p) (.v (mergeSheet (c.vv p) mk masked o.mz v.lane v.mark)) v.fx true
  else
    let k := o.vd.toNat - 32
    s.landAt b due (.push k (c.strm k).desc) (.v (mergeSheet Sheet.zero mk masked true v.lane v.mark)) v.fx true

/-- A V op of the given row, latency and result. `sr` says that it accepts SR, `xbFault` that a poisoned xb raises
poison consumption (07_sheet R158). -/
def sheetSem (i : Instr) (o : VOp) (lat : Nat) (f : VIn → VRes) (sr xbFault : Bool := false) : OpSem :=
  let r := vRowOf i
  { path := o.path
    reads := fun s b => let c := s.ctx b
      useReads c r.a o.a o.xb ++ useReads c r.b o.b o.xb ++ useReads c r.c o.c o.xb ++
      (if r.readsXb then [.x o.xb.toNat] else []) ++ [.m (c.physM o.mask.toNat)] ++
      (if vMerges r o then vDest c r o else [])
    writes := fun s b => (vDest (s.ctx b) r o).map fun d => (d, some lat)
    pops := usePops r.a o.a ++ usePops r.b o.b ++ usePops r.c o.c
    pushes := if 32 ≤ o.vd.toNat then [o.vd.toNat - 32] else []
    fault := fun s b => if xbFault && r.readsXb then poisonedX (s.ctx b) [o.xb] else none
    act := fun pre b s =>
      (pre.landV s b r o lat (f (vIn pre s b r o))).drew b (effMode o.rnd (pre.ctx b).fpm sr == .sr) }

/-! ## Element-wise results -/

/-- Flags of the lanes written. -/
def VIn.fxOf (v : VIn) (f : Nat → Fx) : Fx :=
  (List.range nLanes).foldl (fun x l => if v.written l then x ||| f l else x) 0

/-- A row-local result of 32-bit lanes without flags. -/
def VIn.lanes (v : VIn) (f : Nat → Lane) : VRes := { lane := f, mark := v.rowMark, fx := 0 }

/-- A row-local result of elements of width `w`. -/
def VIn.elems (v : VIn) (w : Nat) (f : Nat → Nat → Nat × Fx) : VRes :=
  { lane := fun l => laneOf w ((List.range (32 / w)).map fun e => (f l e).1)
    mark := v.rowMark
    fx := v.fxOf fun l => (List.range (32 / w)).foldl (fun x e => x ||| (f l e).2) 0 }

/-- Element `e` of operands a, b and c in lane `l`. -/
def VIn.x (v : VIn) (w l e : Nat) : Nat := laneElem (v.a.lane l) w e
def VIn.y (v : VIn) (w l e : Nat) : Nat := laneElem (v.b.lane l) w e
def VIn.z (v : VIn) (w l e : Nat) : Nat := laneElem (v.c.lane l) w e

/-- An exact result of three elements of the op's type, rounded or narrowed once (07_sheet R163). -/
def VIn.arith (v : VIn) (mode : Rnd) (ff : XR → XR → XR → XR × Bool) (fi : Int → Int → Int → Int) : VRes :=
  let w := v.o.ty.width
  match fmtOf v.o.ty with
  | some f => v.elems w fun l e =>
      let r := ff (f.val (v.x w l e)) (f.val (v.y w l e)) (f.val (v.z w l e))
      let q := f.round r.1 mode v.o.sat 0
      (q.1, q.2 ||| nvIf r.2)
  | none =>
      let g := signedTy v.o.ty
      v.elems w fun l e =>
        (narrow (fi (intVal g w (v.x w l e)) (intVal g w (v.y w l e)) (intVal g w (v.z w l e))) g w v.o.sat, 0)

/-- An element op that rounds. -/
def arithSem (i : Instr) (o : VOp) (ff : Rnd → XR → XR → XR → XR × Bool) (fi : Int → Int → Int → Int) : OpSem :=
  sheetSem i o 4 fun v => v.arith (v.mode false) (ff (v.mode false)) fi

/-- VADD (07_sheet R163). -/
def vaddSem (o : VOp) : OpSem := arithSem (.vadd o) o (fun m x y _ => XR.add m x y) fun x y _ => x + y

/-- VSUB (07_sheet R163). -/
def vsubSem (o : VOp) : OpSem := arithSem (.vsub o) o (fun m x y _ => XR.add m x y.flip) fun x y _ => x - y

/-- VMUL (07_sheet R163). -/
def vmulSem (o : VOp) : OpSem := arithSem (.vmul o) o (fun _ x y _ => XR.mul x y) fun x y _ => x * y

/-- VFMA (07_sheet R163). -/
def vfmaSem (o : VOp) : OpSem := arithSem (.vfma o) o (fun m x y z => XR.fma m x y z) fun x y z => x * y + z

/-- VFMS (07_sheet R163). -/
def vfmsSem (o : VOp) : OpSem := arithSem (.vfms o) o (fun m x y z => XR.fma m x y z.flip) fun x y z => x * y - z

/-- VFNMA (07_sheet R163). -/
def vfnmaSem (o : VOp) : OpSem := arithSem (.vfnma o) o (fun m x y z => XR.fma m x.flip y z) fun x y z => -(x * y) + z

/-- VMIN (07_sheet R163, 05_numbers R115). -/
def vminSem (o : VOp) : OpSem := arithSem (.vmin o) o (fun _ x y _ => XR.pick false x y) fun x y _ => min x y

/-- VMAX (07_sheet R163, 05_numbers R115). -/
def vmaxSem (o : VOp) : OpSem := arithSem (.vmax o) o (fun _ x y _ => XR.pick true x y) fun x y _ => max x y

/-- The magnitude of a value. -/
def XR.abs (x : XR) : XR := if x.neg then x.flip else x

/-- VABS (07_sheet R163). -/
def vabsSem (o : VOp) : OpSem := arithSem (.vabs o) o (fun _ x _ _ => (x.abs, false)) fun x _ _ => (x.natAbs : Int)

/-- VNEG (07_sheet R163). -/
def vnegSem (o : VOp) : OpSem := arithSem (.vneg o) o (fun _ x _ _ => (x.flip, false)) fun x _ _ => -x

/-- VCLAMP (07_sheet R163). -/
def vclampSem (o : VOp) : OpSem :=
  arithSem (.vclamp o) o
    (fun _ x y z => let p := XR.pick true x y; let r := XR.pick false p.1 z; (r.1, p.2 || r.2))
    fun x y z => min (max x y) z

/-- The dot products (07_sheet R164, 05_numbers R117): `k` elements a lane. -/
def dotSem (i : Instr) (o : VOp) : OpSem :=
  sheetSem i o 5 fun v =>
    let w := o.ty.width
    let es := List.range (32 / w)
    match fmtOf o.ty with
    | some f => v.elems 32 fun l _ =>
        let m := v.mode false
        let r := XR.sum m ((fF32.val (v.z 32 l 0), false) :: es.map fun e => XR.mul (f.val (v.x w l e)) (f.val (v.y w l e)))
        let q := fF32.round r.1 m false 0
        (q.1, q.2 ||| nvIf r.2)
    | none =>
        let g := signedTy o.ty
        v.elems 32 fun l _ =>
          (narrow (es.foldl (fun n e => n + intVal g w (v.x w l e) * intVal g w (v.y w l e)) (intVal g 32 (v.z 32 l 0)))
            g 32 o.sat, 0)

/-- VDOT2 (07_sheet R164). -/
def vdot2Sem (o : VOp) : OpSem := dotSem (.vdot2 o) o

/-- VDOT4 (07_sheet R164). -/
def vdot4Sem (o : VOp) : OpSem := dotSem (.vdot4 o) o

/-! ## Logic, shifts, moves and fills -/

/-- VAND (07_sheet R165). -/
def vandSem (o : VOp) : OpSem := sheetSem (.vand o) o 4 fun v => v.lanes fun l => v.a.lane l &&& v.b.lane l

/-- VOR (07_sheet R165). -/
def vorSem (o : VOp) : OpSem := sheetSem (.vor o) o 4 fun v => v.lanes fun l => v.a.lane l ||| v.b.lane l

/-- VXOR (07_sheet R165). -/
def vxorSem (o : VOp) : OpSem := sheetSem (.vxor o) o 4 fun v => v.lanes fun l => v.a.lane l ^^^ v.b.lane l

/-- VNOT (07_sheet R165). -/
def vnotSem (o : VOp) : OpSem := sheetSem (.vnot o) o 4 fun v => v.lanes fun l => ~~~v.a.lane l

/-- A shift of each element by the b element, or by `AMT` (07_sheet R166). -/
def shiftSem (i : Instr) (o : VOp) (f : Nat → Nat → Nat → Int) : OpSem :=
  sheetSem i o 4 fun v =>
    let w := o.ty.width
    v.elems w fun l e => (wrapInt (f w (v.x w l e) (if o.bit29 then o.immF 0 6 else v.y w l e)) w, 0)

/-- VSHL (07_sheet R166). -/
def vshlSem (o : VOp) : OpSem := shiftSem (.vshl o) o fun w x s => if w ≤ s then 0 else ((x * 2 ^ s : Nat) : Int)

/-- VSHR (07_sheet R166). -/
def vshrSem (o : VOp) : OpSem := shiftSem (.vshr o) o fun w x s => if w ≤ s then 0 else ((x / 2 ^ s : Nat) : Int)

/-- VSRA (07_sheet R166). -/
def vsraSem (o : VOp) : OpSem := shiftSem (.vsra o) o fun w x s => intVal true w x / (2 ^ (min s w) : Nat)

/-- VRSHR (07_sheet R166): a shift of more than 64 gives what one of 64 gives. -/
def vrshrSem (o : VOp) : OpSem := shiftSem (.vrshr o) o fun w x s =>
  let v := intVal (signedTy o.ty) w x
  if s = 0 then v else (v + (2 ^ (min s 64 - 1) : Nat)) / (2 ^ (min s 64) : Nat)

/-- VMULH (07_sheet R166). -/
def vmulhSem (o : VOp) : OpSem := sheetSem (.vmulh o) o 4 fun v =>
  let w := o.ty.width
  let g := signedTy o.ty
  v.elems w fun l e => (wrapInt (intVal g w (v.x w l e) * intVal g w (v.y w l e) / (2 ^ w : Nat)) w, 0)

/-- VMOV (07_sheet R167). -/
def vmovSem (o : VOp) : OpSem := sheetSem (.vmov o) o 4 fun v => v.lanes fun l => v.a.lane l

/-- The lane VFILL writes (07_sheet R167). -/
def fillLane (o : VOp) : Lane :=
  match o.ty with
  | .b32 | .i32 => o.imm.signExtend 32
  | .n32 => o.imm.setWidth 32
  | .f32 => o.imm.setWidth 32 * 4
  | t => laneOf t.width ((List.range (32 / t.width)).map fun _ => o.imm.toNat)

/-- VFILL (07_sheet R167). -/
def vfillSem (o : VOp) : OpSem := sheetSem (.vfill o) o 4 fun v => v.lanes fun _ => fillLane o

/-- VIDX (07_sheet R167). -/
def vidxSem (o : VOp) : OpSem := sheetSem (.vidx o) o 4 fun v => v.lanes fun l =>
  BitVec.ofNat 32 (match o.immF 0 2 with
    | 0 => l / 512
    | 1 => l % 512
    | _ => l) + v.b.lane l

/-! ## Compares, selects and masks -/

/-- A relation of two lanes (07_sheet R168). -/
def laneCond (ty : ETy) (cond : Nat) (x y : Lane) : Bool × Fx :=
  if ty = .f32 then
    let a := fF32.val x.toNat
    let b := fF32.val y.toNat
    let un := a.isNan || b.isNan
    let c := XR.cmp a b
    (match cond with
      | 0 => !un && c == 0
      | 1 => un || c != 0
      | 2 => !un && decide (c < 0)
      | 3 => !un && decide (c ≤ 0)
      | 4 => !un && decide (0 < c)
      | 5 => !un && decide (0 ≤ c)
      | 6 => un
      | _ => !un, cmpFx a b)
  else
    let a := intVal (signedTy ty) 32 x.toNat
    let b := intVal (signedTy ty) 32 y.toNat
    (match cond with
      | 0 => a == b
      | 1 => a != b
      | 2 => decide (a < b)
      | 3 => decide (a ≤ b)
      | 4 => decide (b < a)
      | 5 => decide (b ≤ a)
      | 8 => x &&& y != 0
      | _ => x &&& y == 0, 0)

/-- VCMP (07_sheet R168). -/
def vcmpSem (o : VOp) : OpSem := sheetSem (.vcmp o) o 4 fun v =>
  let f (l : Nat) := laneCond o.ty (o.immF 0 4) (v.a.lane l) (v.b.lane l)
  { lane := fun l => if (f l).1 then 1 else 0, mark := v.rowMark, fx := v.fxOf fun l => (f l).2 }

/-- Some lane of row `r` has the given bit in a mask. -/
def MaskV.someIn (m : MaskV) (r : Nat) (v : Bool) : Bool := (List.range 512).any fun c => m.bits.getLsbD (512 * r + c) == v

/-- VSEL (07_sheet R169). -/
def vselSem (o : VOp) : OpSem := sheetSem (.vsel o) o 4 fun v =>
  { lane := fun l => if v.lm.bits.getLsbD l then v.a.lane l else v.b.lane l
    mark := fun r => (o.mask != 0 && v.lm.marks.getLsbD r) || (v.lm.someIn r true && v.a.mark r) ||
      (v.lm.someIn r false && v.b.mark r)
    fx := 0 }

/-- MSET (07_sheet R170). -/
def msetSem (o : VOp) : OpSem :=
  sheetSem (.mset o) o 4 (xbFault := true) fun v =>
    let n := if o.bit29 then (v.ctx.xw o.xb).toNat else o.immF 3 17
    v.lanes fun l => if (match o.immF 0 3 with
      | 0 => false
      | 1 => true
      | 2 => decide (l < n)
      | 3 => decide (l % 512 < n)
      | 4 => decide (l / 512 < n)
      | _ => v.a.lane l != 0) then 1 else 0

/-- MLOG (07_sheet R171). -/
def mlogSem (o : VOp) : OpSem := sheetSem (.mlog o) o 4 fun v =>
  { lane := fun l => if o.imm.getLsbD (2 * (v.ma.bits.getLsbD l).toNat + (v.mb.bits.getLsbD l).toNat) then 1 else 0
    mark := fun r => v.ma.marks.getLsbD r || v.mb.marks.getLsbD r
    fx := 0 }

/-- MPOPC (07_sheet R172). -/
def mpopcSem (o : VOp) : OpSem := sheetSem (.mpopc o) o 6 fun v =>
  { lane := fun l =>
      let n := if o.immF 0 1 = 1 then l % 512 else 512
      BitVec.ofNat 32 ((List.range n).filter fun c => v.ma.bits.getLsbD (512 * (l / 512) + c)).length
    mark := fun r => v.ma.marks.getLsbD r
    fx := 0 }

/-! ## Conversions -/

/-- The source type of a conversion. -/
def srcTy (o : VOp) : ETy := o.stype.getD .f32

def VIn.draw (v : VIn) (l e : Nat) : Nat := srBits v.ctx.srs v.src l e

/-- VCVT (07_sheet R173). -/
def vcvtSem (o : VOp) : OpSem :=
  sheetSem (.vcvt o) o 5 (sr := true) fun v =>
    let w := o.ty.width
    v.elems w fun l e => convert (srcTy o) o.ty (v.x w l e) (v.mode true) o.sat (v.draw l e)

/-- VPACK (07_sheet R174). -/
def vpackSem (o : VOp) : OpSem :=
  sheetSem (.vpack o) o 5 (sr := true) fun v =>
    let ws := (srcTy o).width
    let wd := o.ty.width
    let j := 32 / ws
    let base := o.part * 2 * j
    v.elems wd fun l e =>
      if base ≤ e ∧ e < base + 2 * j then
        let t := e - base
        convert (srcTy o) o.ty (if t < j then v.x ws l t else v.y ws l (t - j)) (v.mode true) o.sat (v.draw l e)
      else (v.z wd l e, 0)

/-- VUNPK (07_sheet R175). -/
def vunpkSem (o : VOp) : OpSem :=
  sheetSem (.vunpk o) o 5 (sr := true) fun v =>
    let wd := o.ty.width
    v.elems wd fun l e =>
      convert (srcTy o) o.ty (v.x (srcTy o).width l (o.part * (32 / wd) + e)) (v.mode true) o.sat (v.draw l e)

/-- An exact value converted to a type (05_numbers R105, R112). -/
def cvtExact (dst : ETy) (x : XR) (mode : Rnd) (sat : Bool) (draw : Nat) : Nat × Fx :=
  match fmtOf dst with
  | some f => f.round x mode sat draw
  | none => toInt x (signedTy dst) dst.width mode sat draw

/-- The exact value of an element. -/
def elemVal (src : ETy) (n : Nat) : XR :=
  match fmtOf src with
  | some f => f.val n
  | none => XR.ofInt (intVal (signedTy src) src.width n) 0 false

/-- VQNT (07_sheet R176). -/
def vqntSem (o : VOp) : OpSem :=
  sheetSem (.vqnt o) o 5 (sr := true) fun v =>
    let wd := o.ty.width
    v.elems wd fun l e =>
      if e = o.part then
        let p := XR.mul (fF32.val (v.x 32 l 0)) (fF32.val (v.y 32 l 0))
        let q := cvtExact o.ty p.1 (v.mode true) o.sat (v.draw l e)
        (q.1, q.2 ||| nvIf p.2)
      else (v.z wd l e, 0)

/-- VDQNT (07_sheet R176). -/
def vdqntSem (o : VOp) : OpSem :=
  sheetSem (.vdqnt o) o 5 (sr := true) fun v =>
    v.elems 32 fun l e =>
      let p := XR.mul (elemVal (srcTy o) (v.x (srcTy o).width l o.part)) (fF32.val (v.y 32 l 0))
      let q := fF32.round p.1 (v.mode true) o.sat (v.draw l e)
      (q.1, q.2 ||| nvIf p.2)

/-! ## Special functions -/

/-- A function of each element of a (07_sheet R177). -/
def fnSem (i : Instr) (o : VOp) (f : XR → XR × Fx) : OpSem :=
  sheetSem i o 8 fun v =>
    let w := o.ty.width
    let t := (fmtOf o.ty).getD fF32
    v.elems w fun l e => fnRound t (f (t.val (v.x w l e)))

/-- VRCP (07_sheet R177). -/
def vrcpSem (o : VOp) : OpSem := fnSem (.vrcp o) o fnRcp

/-- VRSQ (07_sheet R177). -/
def vrsqSem (o : VOp) : OpSem := fnSem (.vrsq o) o fnRsq

/-- VEXP2 (07_sheet R177). -/
def vexp2Sem (o : VOp) : OpSem := fnSem (.vexp2 o) o fnExp2

/-- VLOG2 (07_sheet R177). -/
def vlog2Sem (o : VOp) : OpSem := fnSem (.vlog2 o) o fnLog2

/-- VTANH (07_sheet R177). -/
def vtanhSem (o : VOp) : OpSem := fnSem (.vtanh o) o fnTanh

/-! ## Cross-lane operations -/

/-- Pairs of neighbours combined (05_numbers R118). -/
def pairUp (op : Nat → Nat → Nat × Fx) : List Nat → List Nat × Fx
  | x :: y :: l => let r := pairUp op l; let q := op x y; (q.1 :: r.1, q.2 ||| r.2)
  | l => (l, 0)

/-- Tree (05_numbers R118), `n` levels of it. -/
def treeFold (op : Nat → Nat → Nat × Fx) : Nat → List Nat → Fx → Nat × Fx
  | 0, l, x => (l.headD 0, x)
  | n + 1, l, x => let r := pairUp op l; treeFold op n r.1 (x ||| r.2)

/-- The identity of a reduction (07_sheet R178). -/
def redIdent (ty : ETy) (rop : Nat) (mode : Rnd) : Nat :=
  match ty with
  | .f32 => if rop = 0 then (if mode = .rdn then 0 else 0x80000000) else if rop = 1 then 0x7F800000 else 0xFF800000
  | .i32 => if rop = 0 then 0 else if rop = 1 then 0x7FFFFFFF else 0x80000000
  | _ => if rop = 1 then 0xFFFFFFFF else 0

/-- One node of a reduction of .f32, or of a minimum or maximum of integers (07_sheet R178). -/
def redNode (ty : ETy) (rop : Nat) (mode : Rnd) (x y : Nat) : Nat × Fx :=
  if ty = .f32 then
    let r := if rop = 0 then XR.add mode (fF32.val x) (fF32.val y) else XR.pick (rop == 2) (fF32.val x) (fF32.val y)
    let q := fF32.round r.1 mode false 0
    (q.1, q.2 ||| nvIf r.2)
  else
    let g := signedTy ty
    let a := intVal g 32 x
    let b := intVal g 32 y
    (if rop = 1 then (if b < a then y else x) else if a < b then y else x, 0)

/-- The reduction of a list of 2^`n` lanes. -/
def reduce (ty : ETy) (rop : Nat) (mode : Rnd) (sat : Bool) (n : Nat) (l : List Nat) : Nat × Fx :=
  if ty ≠ .f32 ∧ rop = 0 then (narrow (l.foldl (fun a x => a + intVal (signedTy ty) 32 x) 0) (signedTy ty) 32 sat, 0)
  else treeFold (redNode ty rop mode) n l 0

/-- The inclusive scan of a list: of .f32 and of minima and maxima, node by node. -/
def scanNodes (op : Nat → Nat → Nat × Fx) : Nat → List Nat → List (Nat × Fx)
  | _, [] => []
  | acc, x :: l => let q := op acc x; q :: scanNodes op q.1 l

/-- The inclusive scan of an integer sum: each prefix narrowed once. -/
def scanInt (g sat : Bool) : Int → List Nat → List (Nat × Fx)
  | _, [] => []
  | acc, x :: l => let a := acc + intVal g 32 x; (narrow a g 32 sat, 0) :: scanInt g sat a l

/-- The inclusive scan of a row (05_numbers R118). `out[0] := x[0]` copies the bits of x[0], a NaN of x[0] among them,
and sets no flag (DESIGN CHOICE against 05_numbers R101, log 39). -/
def scanRow (ty : ETy) (rop : Nat) (mode : Rnd) (sat : Bool) (l : List Nat) : List (Nat × Fx) :=
  if ty ≠ .f32 ∧ rop = 0 then scanInt (signedTy ty) sat 0 l
  else match l with
    | [] => []
    | x :: l => (x, 0) :: scanNodes (redNode ty rop mode) x l

/-- The lane a reduction takes at `l`: the identity outside the mask. -/
def VIn.redLane (v : VIn) (mode : Rnd) (l : Nat) : Nat :=
  if v.written l then (v.a.lane l).toNat else redIdent v.o.ty (v.o.immF 0 2) mode

/-- Marks of a row of a and of the mask. -/
def VIn.redMark (v : VIn) (r : Nat) : Bool := v.a.mark r || (v.o.mask != 0 && v.lm.marks.getLsbD r)

/-- VREDR (07_sheet R178). -/
def vredrSem (o : VOp) : OpSem := sheetSem (.vredr o) o 10 fun v =>
  let m := v.mode false
  let rs := (List.range 64).map fun r =>
    reduce o.ty (o.immF 0 2) m o.sat 9 ((List.range 512).map fun c => v.redLane m (512 * r + c))
  { lane := fun l => BitVec.ofNat 32 (rs.getD (l / 512) (0, 0)).1, mark := v.redMark
    fx := rs.foldl (fun x r => x ||| r.2) 0 }

/-- VREDC (07_sheet R178). -/
def vredcSem (o : VOp) : OpSem := sheetSem (.vredc o) o 12 fun v =>
  let m := v.mode false
  let cs := (List.range 512).map fun c =>
    reduce o.ty (o.immF 0 2) m o.sat 6 ((List.range 64).map fun r => v.redLane m (512 * r + c))
  { lane := fun l => BitVec.ofNat 32 (cs.getD (l % 512) (0, 0)).1, mark := fun _ => (List.range 64).any v.redMark
    fx := cs.foldl (fun x r => x ||| r.2) 0 }

/-- VSCANR (07_sheet R178). -/
def vscanrSem (o : VOp) : OpSem := sheetSem (.vscanr o) o 12 fun v =>
  let m := v.mode false
  let rs := (List.range 64).map fun r =>
    scanRow o.ty (o.immF 0 2) m o.sat ((List.range 512).map fun c => v.redLane m (512 * r + c))
  { lane := fun l => BitVec.ofNat 32 ((rs.getD (l / 512) []).getD (l % 512) (0, 0)).1, mark := v.redMark
    fx := rs.foldl (fun x r => r.foldl (fun y q => y ||| q.2) x) 0 }

/-- The source index of a move, if it lies in the sheet (07_sheet R179). -/
def moveSrc (o : VOp) (s n i : Nat) : Option Nat :=
  let src : Int := if o.immF 10 1 = 0 then (i : Int) - s else (i : Int) + s
  let src := if o.immF 9 1 = 0 then src % (n : Int) else src
  if 0 ≤ src ∧ src < n then some src.toNat else none

/-- The amount of a move. -/
def VIn.amount (v : VIn) : Nat := if v.o.bit29 then (v.ctx.xw v.o.xb).toNat else v.o.immF 0 9

/-- VMVR (07_sheet R179). -/
def vmvrSem (o : VOp) : OpSem :=
  sheetSem (.vmvr o) o 6 (xbFault := true) fun v =>
    { lane := fun l => match moveSrc o v.amount 64 (l / 512) with
        | some r => v.a.lane (512 * r + l % 512)
        | none => 0
      mark := fun r => match moveSrc o v.amount 64 r with
        | some q => v.a.mark q
        | none => false
      fx := 0 }

/-- VMVC (07_sheet R179). -/
def vmvcSem (o : VOp) : OpSem :=
  sheetSem (.vmvc o) o 6 (xbFault := true) fun v => v.lanes fun l =>
    match moveSrc o v.amount 512 (l % 512) with
    | some c => v.a.lane (512 * (l / 512) + c)
    | none => 0

/-- VPERM (07_sheet R180). -/
def vpermSem (o : VOp) : OpSem := sheetSem (.vperm o) o 8 fun v => v.lanes fun l =>
  v.a.lane (512 * (l / 512) + (v.b.lane l).toNat % 512)

/-- The place of a key in the order of VCSWP (07_sheet R181). -/
def keyOf (ty : ETy) (x : Lane) : Int :=
  match ty with
  | .f32 =>
    let n : Nat := x.toNat % 2 ^ 31
    if 0x7F800000 < n then 2 ^ 33 else if x.getLsbD 31 then -(n : Int) - 1 else (n : Int)
  | t => intVal (signedTy t) 32 x.toNat

/-- VCSWP (07_sheet R181). -/
def vcswpSem (o : VOp) : OpSem := sheetSem (.vcswp o) o 6 fun v =>
  let d := 2 ^ o.immF 0 4
  let rows := o.immF 8 1 == 1
  let pay := o.immF 9 1 == 1
  let at_ (l : Nat) := if rows then l / 512 else l % 512
  let pair (l : Nat) := if rows then 512 * ((l / 512) ^^^ d) + l % 512 else 512 * (l / 512) + ((l % 512) ^^^ d)
  let swap (l : Nat) : Bool :=
    let lo := !(at_ l).testBit (o.immF 0 4)
    let asc := (at_ l).testBit (o.immF 4 4) == (o.immF 10 1 == 1)
    let x := keyOf o.ty (v.a.lane l)
    let y := keyOf o.ty (v.a.lane (pair l))
    if lo == asc then decide (y < x) else decide (x < y)
  { lane := fun l => if pay then v.b.lane (if swap l then pair l else l) else v.a.lane (if swap l then pair l else l)
    mark := fun r => v.rowMark r || (rows && v.rowMark (r ^^^ d))
    fx := 0 }

/-- VTRB (07_sheet R182). -/
def vtrbSem (o : VOp) : OpSem := sheetSem (.vtrb o) o 10 fun v =>
  let w := o.ty.width
  let k := 32 / w
  { lane := fun l => laneOf w ((List.range k).map fun e =>
      let u := k * (l % 512) + e
      let q := 64 * (u / 64) + l / 512
      laneElem (v.a.lane (512 * (u % 64) + q / k)) w (q % k))
    mark := fun _ => (List.range 64).any fun r => v.a.mark r
    fx := 0 }

end Sys2Proof.Machine
end

