-- ==== Sys2Proof/Machine/Queue.lean ====
section
/-! DEFINITION. Queue descriptors, job cards and completion records; the mapping of a queue, and what the scheduler makes
of the records it finds (13_jobs R296 to R303, R314). -/

namespace Sys2Proof.Machine

/-! ## Descriptors (13_jobs R296, R297) -/

/-- A descriptor that mapping refuses, its address apart (13_jobs R296, R297). -/
def QDesc.bad (q : QDesc) : Bool :=
  q.resv || decide (q.clog < 4) || decide (20 < q.clog) || decide (q.nlog < 4) || decide (16 < q.nlog) ||
  q.cbase % 128 != 0 || q.rbase % 16 != 0 || q.nbase % 16 != 0 ||
  !inHbm q.cbase (128 * 2 ^ q.clog) || !inHbm q.rbase (16 * 2 ^ q.clog) || !inHbm q.nbase (16 * 2 ^ q.nlog)

/-- A descriptor can stand at an address. -/
def qAligned (a : Nat) : Bool := a % 128 == 0 && inHbm a 128

/-- The descriptor of a mapped queue that is not refused, once its mapping is done. One whose unit has been retired reads as
poison, so its queue counts as empty (DESIGN CHOICE, log 113). -/
def State.queueAt (s : State) (n : Nat) : Option Nat :=
  match tfind s.sched.qmap n with
  | some a => if s.sched.qbad.contains n ∨ a = 0 ∨ (s.sched.toMap.any fun e => e.1 == n) ∨ s.unitsGone a.toNat 128 then none
      else some a.toNat
  | none => none

/-! ## Cards and records (13_jobs R299 to R303) -/

def cardIdx (c : List Byte) : Nat := cardNat c 0 8
def cardClus (c : List Byte) : Nat := cardNat c 18 1
def cardFl (c : List Byte) : Nat := cardNat c 19 1
def cardRmap (c : List Byte) : Nat := cardNat c 24 8
def cardPreq (c : List Byte) : Nat := cardNat c 32 2
def cardCfl (c : List Byte) : Nat := cardNat c 42 2
def cardJoin (c : List Byte) : Nat := cardNat c 44 2
def cardEst (c : List Byte) : Nat := cardNat c 48 8

/-- The wait flags. -/
def cardWaits (c : List Byte) : List Nat := ((List.range 4).map fun k => cardNat c 34 8 / 2 ^ (12 * k) % 4096).filter (· != 0)

/-- The legal quadrant sets (09_partitions R208), ascending. -/
def legalQuads : List (BitVec 4) := [0x1, 0x2, 0x3, 0x4, 0x5, 0x8, 0xA, 0xC, 0xF]

/-- Quadrant set, layers and count of a request. -/
def cardQuads (c : List Byte) : BitVec 4 := BitVec.ofNat 4 (cardPreq c)
def cardLayers (c : List Byte) : Nat := cardPreq c / 16 % 16 + 1
def cardCount (c : List Byte) : Nat := cardPreq c / 256 % 16

/-- A flag index that no card may name. -/
def fixedFlag (n : Nat) : Bool := decide (4094 ≤ n)

/-- A malformed card (13_jobs R300). -/
def cardBad (q : QDesc) (c : List Byte) : Bool :=
  decide (16 ≤ cardClus c) || decide (4 ≤ cardFl c) || decide (4096 ≤ cardPreq c) || decide (2 ^ 48 ≤ cardNat c 34 8) ||
  decide (4096 ≤ cardCfl c) || decide (4096 ≤ cardJoin c) || decide (4096 ≤ cardNat c 46 2) || cardNat c 56 8 != 0 ||
  (cardQuads c != 0 && !legalQuads.contains (cardQuads c)) || decide (12 < cardLayers c) ||
  (decide (0 < cardCount c) && cardQuads c == 0) ||
  (cardWaits c).any fixedFlag || fixedFlag (cardCfl c) || fixedFlag (cardJoin c) || fixedFlag (cardNat c 46 2) ||
  ((cardFl c).testBit 1 && !q.prv)

/-- The effective completion flag of a card that is read (13_jobs R300, R303). -/
def cardFlag (c : List Byte) : Nat := if cardCfl c < 4094 then cardCfl c else 0

/-- Where card and record `i` lie. -/
def QDesc.cardAt (q : QDesc) (i : Nat) : Nat := q.cbase + 128 * (i % 2 ^ q.clog)

def QDesc.recAt (q : QDesc) (i : Nat) : Nat := q.rbase + 16 * (i % 2 ^ q.clog)

/-- The 16 bytes of a record. -/
def recordBytes (idx st cause bnk runs res : Nat) : List Byte :=
  leBytes 8 idx ++ leBytes 1 st ++ leBytes 1 cause ++ leBytes 1 bnk ++ leBytes 1 runs ++ leBytes 4 res

/-- The records from `DONE` to `ACC` − 1, at most a reorder window of them. -/
def QDesc.window (q : QDesc) : List Nat := (List.range (min 256 (q.acc - q.done))).map (q.done + ·)

/-- No unit that holds the descriptor of a queue, its card `i`, or a record that a final state of that card may let `DONE` pass,
is still not ready (18_platform R399). -/
def State.queueReady (s : State) (qa i : Nat) : Bool :=
  let q := s.qdesc qa
  s.unitsReady qa 128 && s.unitsReady (q.cardAt i) 128 && (i :: q.window).all fun k => s.unitsReady (q.recAt k) 16

/-- A number that the scheduler writes. -/
def State.put (s : State) (n a v : Nat) : State := s.memStore a (leBytes n v) false

/-- `DONE` passes final records whose flag step is done, in index order (13_jobs R303). A record of a retired unit reads as
poison, which is no final state (DESIGN CHOICE, log 113). -/
def State.advanceDone (s : State) (qa : Nat) : Nat → State
  | 0 => s
  | n + 1 =>
    let q := s.qdesc qa
    let st := s.rd 1 (q.recAt q.done + 8)
    if q.done < q.acc ∧ 128 ≤ st ∧ 3 ≤ st % 8 ∧ !s.unitsGone (q.recAt q.done) 16 then
      (s.put 8 (qa + 16) (q.done + 1)).advanceDone qa n
    else s

/-- A card reaches a final state: its record, its completion flag, `FLD`, and `DONE` (13_jobs R303). Where the descriptor's
unit has been retired, the place of the record cannot be read, and the flag step alone remains (18_platform R399). -/
def State.finalRecord (s : State) (qa idx st cause bnk runs res flag : Nat) : State :=
  let q := s.qdesc qa
  let a := q.recAt idx
  let raise (t : State) : State := if flag = 0 then t else t.updFlag flag .count
  if s.unitsGone qa 128 then raise (s.noteGone qa)
  else
    let s1 := s.memStore a (recordBytes idx (st + if flag = 0 then 128 else 0) cause bnk runs res) false
    let s2 := if flag = 0 then s1 else (raise s1).put 1 (a + 8) (st + 128)
    s2.advanceDone qa (q.acc + 1 - q.done)

/-! ## Mapping, and records found (13_jobs R297, R314) -/

/-- The scheduler has a job for an index of a queue. -/
def State.knows (s : State) (qa i : Nat) : Bool := s.sched.jobs.any fun j => j.qaddr == qa && j.idx.toNat == i

/-- An accepted card for which the scheduler has no job: what R314 does with its record. A record or card of a retired unit
reads as poison, and nothing is done with it (DESIGN CHOICE, log 113). -/
def State.recoverRecord (s : State) (n qa i : Nat) : State :=
  let q := s.qdesc qa
  let a := q.recAt i
  let st := s.rd 1 (a + 8)
  let card := s.locRead (q.cardAt i) 128
  let job : Job := { qmap := n, qaddr := qa, idx := BitVec.ofNat 64 i, card := card, bank := none, uid := none, disp := none,
                     acc := s.core.beat, resid := false, chans := [], notes := 0, last := 0, held := 0, fences := [], final := none }
  let again : State := { s with sched := { s.sched with jobs := s.sched.jobs ++ [job] } }
  let k := st % 8
  if s.unitsGone a 16 then s.noteGone a
  else if s.unitsGone (q.cardAt i) 128 then s.noteGone (q.cardAt i)
  else if k = 1 then again
  else if k = 2 then
    if (cardFl card).testBit 0 then again
    else s.finalRecord qa i 4 0xFE (s.rd 1 (a + 10)) (s.rd 1 (a + 11)) 0 (cardFlag card)
  else if st < 128 ∧ 3 ≤ k then
    ((if cardFlag card = 0 then s else s.updFlag (cardFlag card) .count).put 1 (a + 8) (st + 128)).advanceDone qa
      (q.acc + 1 - q.done)
  else s.advanceDone qa (q.acc + 1 - q.done)

/-- The records of a mapped queue that the scheduler has no job for (13_jobs R301): after a warm reset (R314), and when a queue
that was not mapped then is mapped again. -/
def State.recoverQueue (s : State) (n : Nat) : State :=
  match s.queueAt n with
  | some qa => (s.qdesc qa).window.foldl (fun t i => if t.knows qa i then t else t.recoverRecord n qa i) s
  | none => s

/-- Unmap a mapped queue: `MAPD` is cleared, and what the scheduler noted of the register is dropped (13_jobs R297). -/
def State.unmapQueue (s : State) (n : Nat) : State :=
  let a := (tget s.sched.qmap n 0).toNat
  let s1 := if a = 0 ∨ s.sched.qbad.contains n ∨ (s.sched.toMap.contains (n, true)) then s
    else s.put 1 (a + 66) ((s.qdesc a).stat / 2 % 2 * 2)
  { s1 with sched := { s1.sched with
    qmap := tdel s1.sched.qmap n, qbad := sdel s1.sched.qbad n, seen := tdel s1.sched.seen n,
    toMap := s1.sched.toMap.filter fun e => e.1 != n, pendAt := tdel s1.sched.pendAt n } }

/-- What a mapping reads is held at no controller (18_platform R399): the descriptor, and what its queue holds. -/
def State.mapReady (s : State) (a : Nat) : Bool :=
  !qAligned a || (s.unitsReady a 128 &&
    ((s.qdesc a).bad || (s.qdesc a).window.all fun i => s.unitsReady ((s.qdesc a).recAt i) 16 && s.unitsReady ((s.qdesc a).cardAt i) 128))

/-- The mapping of a register's descriptor (13_jobs R297), as soon as it can be read: one that is refused, or whose unit has been
retired, is marked `BAD` where it can be written and its queue counts as empty; any other is marked `MAPD` alone, and its
accepted cards are the scheduler's. -/
def State.mapNow (s : State) (n : Nat) : State :=
  let a := (tget s.sched.qmap n 0).toNat
  match s.sched.toMap.find? fun e => e.1 == n with
  | some (_, fresh) =>
    if !s.mapReady a then s
    else
      let s0 : State := { s with sched := { s.sched with toMap := s.sched.toMap.filter fun e => e.1 != n } }
      if fresh then
        let dup := s.sched.qmap.any fun e => e.1 != n && e.2.toNat == a
        let bad := !qAligned a || dup || (s.qdesc a).bad || s.unitsGone a 128
        let s1 := if bad then (if qAligned a then s0.put 1 (a + 66) ((s.qdesc a).stat % 2 + 2) else s0) else s0.put 1 (a + 66) 1
        ({ s1 with sched := { s1.sched with qbad := sset s1.sched.qbad n bad } } : State).recoverQueue n
      else s0.recoverQueue n
  | none => s

/-- Map an address in a register (13_jobs R297); 0 maps nothing. -/
def State.mapQueue (s : State) (n : Nat) (v : Word) : State :=
  if v = 0 then s
  else ({ s with sched := { s.sched with qmap := tput s.sched.qmap n v 0, toMap := s.sched.toMap ++ [(n, true)] } } : State).mapNow n

end Sys2Proof.Machine
end

