-- ==== Sys2Proof/Machine/Control.lean ====
section
/-! DEFINITION. The control registers, and what CRD, CWR and the rows that name single writes of CWR do
(06_scalar R142 to R151, with the fields given in the chapters it names). -/

namespace Sys2Proof.Machine

/-! ## The fields of each register -/

/-- Fields placed at their lowest bits. -/
def packed (l : List (Nat × Nat)) : Word := BitVec.ofNat 64 (l.foldl (fun n f => n + f.1 * 2 ^ f.2) 0)

/-- cid (06_scalar R144). -/
def State.cid (s : State) (c : Ctx) : Word :=
  packed [((c.card.toNat % 2 ^ 32), 32), (c.prio.toNat, 29), (c.queue.toNat, 23), (s.pkg, 13), (c.asid.toNat, 0)]

/-- kstat (04_sequencing R74). -/
def State.kstat (s : State) (b : Nat) : Word :=
  let c := s.ctx b
  packed [(c.pc.toNat, 48), (c.dtgt.toNat, 32), (c.dly, 30), (c.loops.length, 27), (c.priv.toNat, 26), (b, 22),
    ((s.seatOf b).getD 0, 20)]

/-- loop0 to loop5 (04_sequencing R84). -/
def LoopE.word (e : LoopE) : Word := packed [(1, 63), (e.rot.toNat, 62), (e.start.toNat, 46), (e.idx.toNat, 23), (e.rem.toNat, 0)]

/-- wal (06_scalar R146). -/
def Window.zero : Window := ⟨false, 0, 0, 0, 0, false, 0, 0⟩

def State.window (s : State) (w : Nat) : Window := tget s.fab.windows w Window.zero

def State.setWindow (s : State) (w : Nat) (v : Window) : State :=
  { s with fab := { s.fab with windows := tput s.fab.windows w v Window.zero } }

def Window.wal (w : Window) : Word := packed [(w.ackd.toNat, 32), (w.fail.toNat, 31), (w.out, 16), (w.lim, 0)]

/-- wcfg (14_fabric R322). -/
def Window.wcfg (w : Window) : Word :=
  packed [(w.pbase.toNat, 57), (w.peer.toNat, 47), (w.wasid.toNat, 34), (w.cfg.toNat, 33)]

/-- Reshape ops (09_partitions R216). -/
def isReshape : Instr → Bool
  | .cpart _ | .cjoin .. | .csplit .. | .cfree .. => true
  | _ => false

/-- A reshape op stands at the head of the queue. -/
def Part.atRendezvous (p : Part) : Bool :=
  match p.queue.head? with
  | some e => isReshape e.op
  | Option.none => false

/-- pst STATE of a partition id (09_partitions R214). -/
def Part.stateNo (p : Part) : Nat :=
  if p.kind = .none then 0
  else if p.err then 5
  else if p.susp then 4
  else if p.atRendezvous then 3
  else if p.queue.isEmpty then 1 else 2

/-- The worst of some states, in the order error, suspended, at rendezvous, active, idle (09_partitions R214). -/
def worst (l : List Nat) : Nat := l.foldl Nat.max 0

/-- pst as a context of the given name reads it (06_scalar R148, 09_partitions R214). SKIP of a chain id is the chain's own, which
is always 0 (DESIGN CHOICE, log 121). -/
def State.pstFor (s : State) (uid p : Nat) : Word :=
  let i := s.part p
  let m := s.part (i.members.headD 0)
  let box := if i.kind = .chain then m else i
  let own := decide (i.kind ≠ .none) && i.uid == uid
  packed [(i.skip.toNat, 32), (if i.kind = .chain then 0 else i.queue.length, 23), (box.railHi.toNat, 21), (own.toNat, 20),
    (if i.kind = .chain then worst (i.members.map fun q => (s.part q).stateNo) else i.stateNo, 17),
    (if i.kind = .chain then 1 else i.chain.isSome.toNat, 16), (if i.kind = .chain then p else i.chain.getD 0, 12),
    (box.quads.toNat, 8), (box.last, 4), (box.first, 0)]

/-- pst as the context in bank `b` reads it. -/
def State.pst (s : State) (b p : Nat) : Word := s.pstFor (s.ctx b).uid p

/-- cfg (06_scalar R149). -/
def State.cfgWord (s : State) : Word :=
  packed [(bitsNat s.plat.rcxl, 31), (bitsNat s.plat.rhbm, 23), (s.plat.spare.toNat, 22), (bitsNat s.plat.rlay, 10),
    (s.pkg, 0)]

/-- Codes of lease states (14_fabric R328). -/
def Lst.num : Lst → Nat
  | .free => 0 | .offered => 1 | .active => 2 | .recalling => 3 | .returned => 4 | .dead => 5

def Lease.zero : Lease :=
  { lst := .free, mir := false, peer := 0, gcnt := 0, pidx := 0, base := 0, fbase := 0, vbase := 0, asid := 0, lost := [],
    disc := [], moved := [], part := [], discSet := false, reason := 0, start := 0, since := 0, dline := none,
    flag := 0, rbeats := 0, who := none, whoBank := 0, zLender := false, zFall := false, dzero := [], bflag := 0,
    accept := false }

def State.lease (s : State) (n : Nat) : Lease := tget s.fab.leases n Lease.zero

def State.setLease (s : State) (n : Nat) (v : Lease) : State :=
  { s with fab := { s.fab with leases := tput s.fab.leases n v Lease.zero } }

/-- lent (14_fabric R328). -/
def Lease.word (l : Lease) : Word :=
  packed [(l.lst.num, 61), (l.mir.toNat, 60), (l.peer.toNat, 50), (l.gcnt, 33), (l.lost.length, 16), (l.pidx.toNat, 0)]

/-- The value of a control register for the context in bank `b` (06_scalar R143, R151). -/
def State.creg (s : State) (b : Nat) (n : Nat) : Word :=
  let c := s.ctx b
  if n = 0x000 then s.cid c
  else if n = 0x001 then s.kstat b
  else if n = 0x002 then c.fpx.setWidth 64
  else if n = 0x003 then c.fpm.setWidth 64
  else if n = 0x004 then c.src ++ c.srs
  else if n = 0x005 then packed [(c.mrb.toNat, 8), (c.vrb.toNat, 0)]
  else if 0x008 ≤ n ∧ n ≤ 0x00D then ((c.loops[n - 8]?).map LoopE.word).getD 0
  else if n = 0x010 then s.pow.grant.setWidth 64
  else if n = 0x011 then packed [(s.core.ins.toNat, 32), (s.windowSum % 1024, 0)]
  else if 0x020 ≤ n ∧ n ≤ 0x027 then c.stall (n - 0x020)
  else if n = 0x030 then c.bcnt
  else if 0x040 ≤ n ∧ n ≤ 0x04F then (s.window (n - 0x040)).wal
  else if n = 0x050 then packed ((List.range 12).map fun l => (tget s.pow.steps l 0, 4 * l))
  else if n = 0x051 then packed ((List.range 48).map fun k => ((!s.pow.lowBlk.contains k).toNat, k))
  else if 0x060 ≤ n ∧ n ≤ 0x06F then s.pst b (n - 0x060)
  else if n = 0x070 then s.cfgWord
  else if n = 0x080 then packed [(c.ncnt.toNat, 32), (c.last.toNat, 0)]
  else if n = 0x100 then s.core.bsel.setWidth 64
  else if n = 0x101 then (s.ctx s.core.bsel.toNat).rmask
  else if n = 0x102 then (s.ctx s.core.bsel.toNat).asid.setWidth 64
  else if n = 0x110 then s.core.asel.setWidth 64
  else if n = 0x111 then tget s.ms.ptb s.core.asel.toNat 0
  else if n = 0x112 then tget s.ms.ltb s.core.asel.toNat 0
  else if 0x120 ≤ n ∧ n ≤ 0x15F then tget s.sched.qmap (n - 0x120) 0
  else if n = 0x160 then s.core.lsel.setWidth 64
  else if n = 0x161 then (s.lease s.core.lsel.toNat).word
  else if 0x170 ≤ n ∧ n ≤ 0x17F then (s.window (n - 0x170)).wcfg
  else if n = 0x180 then packed [(s.plat.isrc.toNat, 7)]
  else if n = 0x181 then packed [(s.plat.isldFirst.toNat, 48), (s.plat.isldCnt.toNat, 32), (s.plat.isldFlag.toNat, 0)]
  else if n = 0x182 then packed [(s.plat.isBusy.toNat, 63), (s.plat.isErr.toNat, 62), (s.plat.isDone.toNat, 0)]
  else if n = 0x190 then packed [(s.pow.ccap.toNat, 16), (s.pow.grant.toNat, 0)]
  else 0

/-! ## Writes -/

/-- A write of a control register other than fpx, basid, ltb, qmap, isld and egrant. Registers and fields that are
read only, or reserved, ignore it (06_scalar R142). The bank and ASID addressed are those of the state `pre` before the
bundle. lsel and asel take the low 7 and 13 bits of any value (06_scalar R151; DESIGN CHOICE, log 122). -/
def State.setCreg (pre s : State) (b : Nat) (n : Nat) (v : Word) : State :=
  if n = 0x003 then s.modCtx b fun c => { c with fpm := if v.toNat % 8 < 5 then v.setWidth 3 else 0 }
  else if n = 0x004 then s.modCtx b fun c => { c with src := v.extractLsb' 32 32, srs := v.extractLsb' 0 32 }
  else if n = 0x005 then s.modCtx b fun c => { c with mrb := v.extractLsb' 8 3, vrb := v.extractLsb' 0 4 }
  else if 0x020 ≤ n ∧ n ≤ 0x027 then s.modCtx b fun c => c.setStall (n - 0x020) v
  else if n = 0x030 then s.modCtx b fun c => { c with bcnt := v }
  else if n = 0x100 then { s with core := { s.core with bsel := v.setWidth 4 } }
  else if n = 0x101 then s.modCtx pre.core.bsel.toNat fun c => { c with rmask := v }
  else if n = 0x110 then { s with core := { s.core with asel := v.setWidth 13 } }
  else if n = 0x111 then { s with ms := { s.ms with ptb := tput s.ms.ptb pre.core.asel.toNat v 0 } }
  else if n = 0x160 then { s with core := { s.core with lsel := v.setWidth 7 } }
  else if n = 0x180 then { s with plat := { s.plat with isrc := v.extractLsb' 7 41 } }
  else s

/-- Every valid handle of a context made lazy. -/
def Ctx.lazyAll (c : Ctx) : Ctx :=
  let lz (h : Handle) : Handle := if h.hst = .valid then { h with hst := .lazy } else h
  { c with
    h := c.h.map fun e => (e.1, lz e.2)
    pend := c.pend.map fun p => match p.val with
      | .h h => { p with val := .h (lz h) }
      | _ => p }

/-- Start an instruction-store load with the source that isrc held before the bundle (18_platform R405). -/
def State.startLoad (pre s : State) (b : Nat) (v : Word) : State :=
  let first : BitVec 16 := v.extractLsb' 48 16
  let cnt : BitVec 16 := v.extractLsb' 32 16
  let flag : BitVec 12 := v.extractLsb' 0 12
  { s with
    seq := s.seq + 1
    plat := { s.plat with
      isldFirst := first, isldCnt := cnt, isldFlag := flag, isBusy := true, isDone := 0
      load := some { src := pre.plat.isrc.toNat * 128, first := first.toNat, count := cnt.toNat + 1, lflag := flag.toNat,
                     uid := (pre.ctx b).uid, seq := s.seq, began := pre.core.beat } } }

/-! ## The ops -/

/-- An arithmetic op of the context has not landed: an access to fpx waits (05_numbers R108). -/
def State.fpxWait (s : State) (b : Nat) : Option Nat := if (s.ctx b).pend.any (·.arith) then some 0 else none

/-- Indices of the privileged block (06_scalar R142). -/
def cregPriv (n : Nat) : Bool := decide (0x100 ≤ n) && decide (n < 0x200)

/-- CRD (06_scalar R142). -/
def crdSem (p : Path) (xd : XReg) (creg : BitVec 12) : OpSem :=
  { path := p
    priv := cregPriv creg.toNat
    writes := fun _ _ => [(.x xd.toNat, some 2)]
    hold := fun s b => if creg = 2 then s.fpxWait b else none
    act := fun pre b s => s.landX b xd (pre.creg b creg.toNat) false 2 }

/-- A write of one control register by CWR (06_scalar R142). -/
def cwrWith (p : Path) (n : Nat) (xa : XReg) (hold : State → Nat → Option Nat) (f : State → Nat → Word → State → State) : OpSem :=
  { path := p
    priv := cregPriv n
    reads := fun _ _ => [.x xa.toNat]
    hold := hold
    fault := fun s b => if (s.ctx b).xm xa then some { code := 0x20, info1 := 4, info2 := n } else none
    act := fun pre b s => f pre b ((pre.ctx b).xw xa) s }

/-- The effect of an op put off until every op of its bundle has acted: it holds for later bundles alone (06_scalar R142). -/
def OpSem.later (o : OpSem) : OpSem := { o with act := fun _ _ s => s, late := o.act }

/-- CWR (06_scalar R142). The new value holds for later bundles alone, but that of rrb, which LEND and RROT of its bundle
change in slot order (04_sequencing R85). -/
def cwrSem (p : Path) (creg : BitVec 12) (xa : XReg) : OpSem :=
  let w := cwrWith p creg.toNat xa (fun _ _ => none) fun pre b v s => pre.setCreg s b creg.toNat v
  if creg = 5 then w else w.later

/-- CWR of fpx (05_numbers R108). -/
def fpxWriteSem (p : Path) (xa : XReg) : OpSem :=
  cwrWith p 0x002 xa (fun s b => s.fpxWait b) fun _ b v s => s.modCtx b fun c => { c with fpx := v.setWidth 5 }

/-- CWR of basid (16_system R365): the handles of the bank's context become lazy. -/
def basidWriteSem (p : Path) (xa : XReg) : OpSem :=
  (cwrWith p 0x102 xa (fun _ _ => none) fun pre _ v s =>
    s.modCtx pre.core.bsel.toNat fun c => { c with asid := v.setWidth 13 }.lazyAll).later

/-- CWR of ltb (11_copy R257): the cached records of the ASID are dropped. -/
def ltbWriteSem (p : Path) (xa : XReg) : OpSem :=
  (cwrWith p 0x112 xa (fun _ _ => none) fun pre _ v s =>
    { s with ms := { s.ms with
      ltb := tput s.ms.ltb pre.core.asel.toNat (v &&& 0xFFFFFFFFFFFFFFC1) 0,
      laycache := s.ms.laycache.filter fun e => e.asid != pre.core.asel } }).later

/-- CWR of qmap (13_jobs R297). -/
def qmapWriteSem (p : Path) (n : BitVec 6) (xa : XReg) : OpSem :=
  cwrWith p (0x120 + n.toNat) xa (fun _ _ => none) fun _ _ v s => (s.unmapQueue n.toNat).mapQueue n.toNat v

/-- CWR of isld (18_platform R405): it waits while a load runs. -/
def isldWriteSem (p : Path) (xa : XReg) : OpSem :=
  cwrWith p 0x181 xa (fun s _ => if s.plat.isBusy then some 3 else none) fun pre b v s => pre.startLoad s b v

/-- CWR of egrant (17_power R386). -/
def egrantWriteSem (p : Path) (xa : XReg) : OpSem :=
  cwrWith p 0x190 xa (fun _ _ => none) fun _ _ v s =>
    { s with pow := { s.pow with ccap := v.extractLsb' 16 12, grant := v.extractLsb' 0 10 } }

end Sys2Proof.Machine
end

