-- ==== Sys2Proof/Machine/Translate.lean ====
section
/-! DEFINITION. Page tables, the TLB, handles and their ops (10_memory R229 to R240). -/

namespace Sys2Proof.Machine

/-! ## Leaves (10_memory R229 to R231) -/

def pteBit (e k : Nat) : Bool := e.testBit k

/-- The frame of a leaf, as a pod physical address. -/
def pteAddr (e : Nat) : Nat := e % 2 ^ 58 / 2 ^ 21 * 2 ^ 21

def pteLease (e : Nat) : Nat := e / 2 ^ 58 % 64

/-- Two ranges have a byte in common. -/
def overlaps (a n b m : Nat) : Bool := decide (a < b + m) && decide (b < a + n)

def leaseBytes (l : Lease) : Nat := l.gcnt * 2 ^ 21

/-- The entry reserves its fallback (14_fabric R331, R336). -/
def Lease.reserves (l : Lease) : Bool := l.accept || !(l.lst == .free || l.lst == .offered)

/-- A leaf is none because its frame lies in a lent range, or in a fallback reservation of another lease
(14_fabric R329). -/
def State.excluded (s : State) (a n lease : Nat) : Bool :=
  s.fab.leases.any fun e =>
    if e.1 < 64 then e.1 != lease && e.2.reserves && overlaps a n e.2.fbase (leaseBytes e.2)
    else e.2.lst != .free && overlaps a n e.2.base (leaseBytes e.2)

/-- A well-formed leaf entry (10_memory R230, R231). -/
def State.leafOk (s : State) (e : Nat) (big : Bool) : Bool :=
  pteBit e 0 && e / 2 ^ 10 % 2 ^ 11 == 0 && pteBit e 8 == big && (!big || e / 2 ^ 21 % 2 ^ 9 == 0) &&
  !((pteBit e 6 || pteBit e 7) && pteLease e == 0) &&
  !(decide (pteAddr e / 2 ^ 48 = s.pkg) &&
    s.excluded (pteAddr e % 2 ^ 48) (if big then 2 ^ 30 else 2 ^ 21) (pteLease e))

/-- The leaf a walk finds, with its address and whether it maps 1 GB; the list gives the lowest index bit of each
level from the table at `t` on. -/
def State.walkFrom (s : State) (va : Nat) : List Nat → Nat → Option (Nat × Nat × Bool)
  | [], _ => none
  | sh :: rest, t =>
    let a := t + 8 * bitsOf va sh 9
    if t % 4096 ≠ 0 ∨ !inHbm t 4096 ∨ s.readPoi a 8 then none
    else
      let e := s.rd 8 a
      if !pteBit e 0 then none
      else if rest = [] then (if s.leafOk e false then some (a, e, false) else none)
      else if pteBit e 8 then (if sh = 30 ∧ s.leafOk e true then some (a, e, true) else none)
      else if e % 4096 ≠ 1 ∨ 2 ^ 58 ≤ e then none
      else s.walkFrom va rest (e - 1)

/-- The walk of an ASID's table (10_memory R229). -/
def State.walk (s : State) (asid : BitVec 13) (va : Nat) : Option (Nat × Nat × Bool) :=
  s.walkFrom va [48, 39, 30, 21] (tget s.ms.ptb asid.toNat 0).toNat

/-- The addresses a walk reads, for the units it waits for. -/
def State.walkReads (s : State) (va : Nat) : List Nat → Nat → List Nat
  | [], _ => []
  | sh :: rest, t =>
    let a := t + 8 * bitsOf va sh 9
    let e := s.rd 8 a
    a :: if t % 4096 ≠ 0 ∨ !inHbm t 4096 ∨ !pteBit e 0 ∨ e % 4096 ≠ 1 then [] else s.walkReads va rest (e - 1)

/-- No table entry of a walk lies in a unit that is not ready. -/
def State.walkReady (s : State) (asid : BitVec 13) (va : Nat) : Bool :=
  (s.walkReads va [48, 39, 30, 21] (tget s.ms.ptb asid.toNat 0).toNat).all fun a => s.unitsReady a 8

def TlbE.size (e : TlbE) : Nat := if e.big then 2 ^ 30 else 2 ^ 21

def TlbE.covers (e : TlbE) (asid : BitVec 13) (va : Nat) : Bool :=
  e.asid == asid && decide (e.page ≤ va) && decide (va < e.page + e.size)

def State.tlbHit (s : State) (asid : BitVec 13) (va : Nat) : Option TlbE := s.ms.tlb.find? fun e => e.covers asid va

/-- The walker loads an entry: it sets `A` in memory and caches the leaf, the oldest of 4,096 making room
(10_memory R231). -/
def State.loadLeaf (s : State) (asid : BitVec 13) (va : Nat) (r : Nat × Nat × Bool) : State × TlbE :=
  let e := r.2.1 ||| 2 ^ 9
  let sz := if r.2.2 then 2 ^ 30 else 2 ^ 21
  let t : TlbE := ⟨asid, va / sz * sz, r.2.2, BitVec.ofNat 64 e, r.1⟩
  let s1 := s.wr 8 r.1 e
  let old := s1.ms.tlb.filter fun x => !x.covers asid va
  ({ s1 with ms := { s1.ms with tlb := old.drop (old.length - 4095) ++ [t] } }, t)

/-- The leaf of an address, from the TLB or by a walk. -/
def State.translate (s : State) (asid : BitVec 13) (va : Nat) : State × Option TlbE :=
  match s.tlbHit asid va with
  | some t => (s, some t)
  | none =>
    match s.walk asid va with
    | some r => let p := s.loadLeaf asid va r; (p.1, some p.2)
    | none => (s, none)

/-! ## Revocation (10_memory R236) -/

/-- Handles that satisfy a test pass from valid to lazy, in every bank, and the TLB entries that satisfy another are
dropped. -/
def State.revokeIf (s : State) (f : Handle → Bool) (g : TlbE → Bool) : State :=
  let lz (h : Handle) : Handle := if h.hst = .valid ∧ f h then { h with hst := .lazy } else h
  { s with
    core := { s.core with banks := s.core.banks.map fun e => (e.1, { e.2 with
      h := e.2.h.map fun x => (x.1, lz x.2)
      pend := e.2.pend.map fun p => match p.val with
        | .h h => { p with val := .h (lz h) }
        | _ => p }) }
    ms := { s.ms with tlb := s.ms.tlb.filter fun t => !g t } }

/-- A change of the PTE that maps an address of an ASID. -/
def State.revokeAt (s : State) (asid : BitVec 13) (va : Nat) : State :=
  s.revokeIf (fun h => h.tasid == asid && decide (handlePage h ≤ va) && decide (va < handlePage h + h.size))
    (fun t => t.covers asid va)

/-- A change of every PTE whose local frame meets a range. -/
def State.revokeFrames (s : State) (a n : Nat) : State :=
  s.revokeIf (fun h => h.pkg == s.pkg && overlaps h.base h.size a n)
    (fun t => decide (pteAddr t.pte.toNat / 2 ^ 48 = s.pkg) && overlaps (pteAddr t.pte.toNat % 2 ^ 48) t.size a n)

/-- A PTE rewritten in memory, with the handles and the TLB entry that its old value served. -/
def State.setPte (s : State) (asid : BitVec 13) (va a v : Nat) : State := (s.wr 8 a v).revokeAt asid va

/-! ## The values of handles (10_memory R233, R234) -/

/-- The handle a leaf gives. -/
def leafHandle (t : TlbE) (asid : BitVec 13) (va : BitVec 57) (xw : Bool) : Handle :=
  ⟨.valid, false, t.pte.extractLsb' 58 6, t.pte.extractLsb' 21 37, t.pte.extractLsb' 0 10, va, xw, asid⟩

/-- The handle a failed translation gives. -/
def absentHandle (refused : Bool) (asid : BitVec 13) (va : BitVec 57) (xw : Bool) : Handle :=
  ⟨.absent, refused, 0, 0, 0, va, xw, asid⟩

def Hst.num : Hst → Nat
  | .empty => 0 | .valid => 1 | .lazy => 2 | .absent => 3

/-- What HRD returns (10_memory R233). -/
def Handle.word (h : Handle) (part : Bool) : Word :=
  if part then packed [(h.xw.toNat, 57), (h.vbase.toNat, 0)]
  else packed [(h.lease.toNat, 58), (h.frame.toNat, 21), (h.acause.toNat, 14), (h.hst.num, 12),
    (if h.hst = .valid then h.attr.toNat else h.attr.toNat / 2 * 2, 0)]

/-! ## Flips (10_memory R239) -/

/-- Change the entry of a page, or add it. -/
def State.modFlip (s : State) (asid : BitVec 13) (page : Nat) (f : FlipE → FlipE) : State :=
  let old := s.ms.flips
  let new := if old.any fun e => e.asid == asid && e.page == page then
      old.map fun e => if e.asid == asid && e.page == page then f e else e
    else old ++ [f ⟨asid, page, false, false, false, false, none⟩]
  { s with ms := { s.ms with flips := new } }

/-- The host has asked for a page back and has not been granted it (18_platform R395). -/
def State.pageWanted (s : State) (asid : BitVec 13) (page : Nat) : Bool :=
  s.ms.flips.any fun e => e.asid == asid && e.page == page && e.hostReq

/-- The device asks the host for a page, once the host has been granted what it has asked for itself. -/
def State.askFlip (s : State) (asid : BitVec 13) (page : Nat) : State :=
  let asked := s.ms.flips.any fun e => e.asid == asid && e.page == page && (e.asked || e.refused)
  if asked || s.pageWanted asid page then s
  else
    let s1 := s.modFlip asid page fun e => { e with asked := true }
    { s1 with plat := { s1.plat with hostOut := s1.plat.hostOut ++ [.flip asid.toNat page] } }

/-- Mark of a granule whose zeroing has been asked of the other package. -/
def zeroSent : Nat := 2 ^ 20

/-- A write of a discarded granule asks that its zeroing be undone (14_fabric R332). -/
def State.askZero (s : State) (lease va : Nat) : State :=
  let l := s.lease lease
  let g := (va - l.vbase) / 2 ^ 21
  if l.dzero.any fun x => x % zeroSent == g then s else s.setLease lease { l with dzero := l.dzero ++ [g] }

/-- A flip of the page was refused. -/
def State.flipRefused (s : State) (asid : BitVec 13) (page : Nat) : Bool :=
  s.ms.flips.any fun e => e.asid == asid && e.page == page && e.refused

/-- A lease is being recalled, so translations of its pages wait (14_fabric R332). -/
def State.recalling (s : State) (lease : Nat) : Bool := lease != 0 && (s.lease lease).lst == .recalling

/-- The result of a translation that a walk or a re-translation completes (10_memory R234): none while it must wait for
a flip of the page, or for a recall. -/
def State.finishXlt (s : State) (asid : BitVec 13) (va : BitVec 57) (xw : Bool) : State × Option Handle :=
  let p := s.translate asid va.toNat
  match p.2 with
  | none => (s, some (absentHandle false asid va xw))
  | some t =>
    if s.recalling (pteLease t.pte.toNat) then (s, none)
    else if xw && t.pte.getLsbD 2 then
      if s.flipRefused asid t.page then (p.1.clearRefusal asid t.page, some (absentHandle true asid va xw))
      else (p.1.askFlip asid t.page, none)
    else (p.1, some (leafHandle t asid va xw))

/-! ## The handle ops -/

/-- What an XLT lands 8 beats after issue: an address outside the virtual space, or a TLB hit that needs no flip. -/
def State.quickXlt (s : State) (asid : BitVec 13) (a : Word) (xw : Bool) : Option Handle :=
  let va : BitVec 57 := a.setWidth 57
  if 2 ^ 57 ≤ a.toNat then some (absentHandle false asid va xw)
  else match s.tlbHit asid va.toNat with
    | some t => if (xw && t.pte.getLsbD 2) || s.recalling (pteLease t.pte.toNat) then none else some (leafHandle t asid va xw)
    | none => none

/-- The state in which a translation looks its page up: `.g` first drops the page and revokes its handles. -/
def State.xltStart (s : State) (g : Bool) (asid : BitVec 13) (a : Word) : State :=
  if g then s.revokeAt asid (a.toNat % 2 ^ 57) else s

/-- A translation (10_memory R234). One that walks the tables reads memory, and an earlier FENCE orders it as a load
(DEDUCED, log 33). -/
def xltWith (p : Path) (h : HReg) (xa : XReg) (xw : Bool) (g : Option XReg) : OpSem :=
  let asid (c : Ctx) : BitVec 13 := match g with
    | some xb => (c.xw xb).setWidth 13
    | none => c.asid
  { path := p
    priv := g.isSome
    reads := fun _ _ => .x xa.toNat :: match g with
      | some xb => [.x xb.toNat]
      | none => []
    writes := fun s b => let c := s.ctx b
      [(.h h.toNat, if ((s.xltStart g.isSome (asid c) (c.xw xa)).quickXlt (asid c) (c.xw xa) xw).isSome then some 8 else none)]
    hold := fun s b =>
      let c := s.ctx b
      if ((s.xltStart g.isSome (asid c) (c.xw xa)).quickXlt (asid c) (c.xw xa) xw).isSome then none else s.fenceWait b true false
    fault := fun s b => poisonedX (s.ctx b) (xa :: g.toList)
    act := fun pre b s =>
      let c := pre.ctx b
      let a := c.xw xa
      let s1 := s.xltStart g.isSome (asid c) a
      match s1.quickXlt (asid c) a xw with
      | some v => s1.landAt b (pre.core.beat + 8) (.h h.toNat) (.h v) 0 false
      | none =>
        let s2 := s1.lockReg b (.h h.toNat) s1.ids
        { s2 with
          ids := s2.ids + 1
          ms := { s2.ms with walks := s2.ms.walks ++
            [⟨b, c.uid, asid c, a.setWidth 57, .xlt s1.ids h.toNat xw⟩] } } }

/-- XLT (10_memory R234). -/
def xltSem (p : Path) (h : HReg) (xa : XReg) : OpSem := xltWith p h xa false none

/-- XLTW (10_memory R234). -/
def xltwSem (p : Path) (h : HReg) (xa : XReg) : OpSem := xltWith p h xa true none

/-- XLTW.G (10_memory R234). -/
def xltwGSem (p : Path) (h : HReg) (xa xb : XReg) : OpSem := xltWith p h xa true (some xb)

/-- HINV (10_memory R235). -/
def hinvSem (p : Path) (all : Bool) (h : HReg) : OpSem :=
  let hs := if all then List.range 32 else [h.toNat]
  { path := p
    writes := fun _ _ => hs.map fun k => (.h k, some 1)
    act := fun pre b s => hs.foldl (fun s k => s.landAt b (pre.core.beat + 1) (.h k) (.h Handle.zero) 0 false) s }

/-- HRD (10_memory R235). -/
def hrdSem (p : Path) (xd : XReg) (h : HReg) (part : Bool) : OpSem :=
  { path := p
    reads := fun _ _ => [.h h.toNat]
    writes := fun _ _ => [(.x xd.toNat, some 2)]
    act := fun pre b s => s.landX b xd (((pre.ctx b).hv h.toNat).word part) false 2 }

/-- HCHK (10_memory R235): its flag is written as a compare writes one. -/
def hchkSem (p : Path) (fix : FlagIx) (h : HReg) (w : Bool) : OpSem :=
  { path := p
    reads := fun _ _ => [.h h.toNat]
    hold := fun s b => s.flagWriteWait b
    fault := fun s b => f0Fault (s.ctx b) fix.toNat
    act := fun pre b s =>
      let v := (pre.ctx b).hv h.toNat
      s.landFlagAt b 1 fix.toNat (v.hst == .valid && (!w || v.pteBit 1)) false 0 }

/-! ## The handles that an access uses -/

/-- What a held access asks of the translation unit (10_memory R236, R239): a lazy handle re-translates, a page that the
host owns is asked for. -/
def State.askHandle (s : State) (b k : Nat) (t : State) : State :=
  let h := (s.ctx b).hv k
  let uid := (s.ctx b).uid
  match h.hst with
  | .lazy =>
    if t.ms.walks.any fun w => w.uid == uid && w.why == .lazy k then t
    else { t with ms := { t.ms with walks := t.ms.walks ++ [⟨b, uid, (s.ctx b).asid, h.vbase, .lazy k⟩] } }
  | .valid => if h.pteBit 2 then t.askFlip h.tasid (handlePage h) else t
  | _ => t

/-- What a held write asks besides. -/
def State.askStore (s : State) (b k : Nat) (t : State) : State :=
  let h := (s.ctx b).hv k
  let l := (s.lease h.lease.toNat).lst
  if h.hst = .valid ∧ h.pteBit 6 ∧ (l = .active ∨ l = .returned) then (s.askHandle b k t).askZero h.lease.toNat (handlePage h)
  else s.askHandle b k t

/-- A use of a handle waits on stb7: it re-translates, or its page is to be flipped, or the host waits for the page
(10_memory R236, R239, 18_platform R395). -/
def State.handleWait (s : State) (b k : Nat) : Option Nat :=
  let h := (s.ctx b).hv k
  match h.hst with
  | .lazy => some 7
  | .valid =>
    if (h.pteBit 2 && !s.flipRefused h.tasid (handlePage h)) || s.pageWanted h.tasid (handlePage h) then some 7 else none
  | _ => none

/-- The cause a use of a handle raises for the handle itself (10_memory R233): place 7 of R252. -/
def handleFault (c : Ctx) (k : Nat) (va : Nat) : Option Ev :=
  let h := c.hv k
  match h.hst with
  | .empty => some { code := 0x11, info1 := va, info2 := c.asid.toNat + k * 2 ^ 16 }
  | .absent => some { code := if h.acause then 0x14 else 0x11, info1 := va, info2 := c.asid.toNat + k * 2 ^ 16 }
  | _ => none

end Sys2Proof.Machine
end

