-- ==== Sys2Proof/Machine/Layout.lean ====
section
/-! DEFINITION. Layout records, the memory sides of copies, the queues of the channels, and starts through the copy aperture
(11_copy R254, R257 to R261, R274). -/

namespace Sys2Proof.Machine

/-! ## Addresses -/

/-- A virtual or scratchpad address as an event shows it. -/
def evAddr (a : Int) : Nat := (a % (2 ^ 64 : Nat)).toNat

/-- The context owns a block (09_partitions R213). -/
def State.ownsBlock (s : State) (c : Ctx) (k : Nat) : Bool :=
  match s.partOfBlock k with
  | some p => (s.part p).uid == c.uid
  | none => false

/-- The blocks whose quarters a range of the face windows touches (08_cube R184). -/
def faceBlocks (a n : Nat) : List Nat :=
  let l := (a - 0x10000000) / 2 ^ 24
  (List.range ((a + n - 1) / 2 ^ 20 + 1 - a / 2 ^ 20)).map fun i => 4 * l + (a / 2 ^ 20 + i) % 4

/-- The layer of a face window. -/
def faceLayer (a : Nat) : Nat := (a - 0x10000000) / 2 ^ 24

/-- The checks of the face windows: dark layer, then ownership (10_memory R228). -/
def State.faceCheck (s : State) (c : Ctx) (a n : Nat) : Option (Nat × Ev) :=
  if !s.plat.rlay.contains (faceLayer a) then some (5, { code := 0x15, info1 := a, info2 := faceLayer a })
  else if !(faceBlocks a n).all (s.ownsBlock c) then some (6, protAt c a)
  else none

def lowestOf (l : List (Option Nat)) : Option Nat := l.foldl lowest none


/-! ## Layout records (11_copy R257 to R259) -/

def LRec.none : LRec :=
  { cnt := [1, 1, 1, 1], sstr := [0, 0, 0, 0], dstr := [0, 0, 0, 0], valid := false, asid := 0, resv := false, apr := false,
    trans := 0, sat := false, rnd := 0, conv := 0, ssz := 1, abase := 0, adst := 0 }

/-- A base of an aperture start with a bit set that must be 0. -/
def apBaseResv (w : Nat) : Bool := if 2 ^ 63 ≤ w then w / 2 ^ 32 % 2 ^ 31 != 0 else decide (2 ^ 57 ≤ w)

/-- The record in 64 bytes. -/
def layRec (bs : List Byte) : LRec :=
  let f (o n : Nat) : Nat := leNat ((bs.drop o).take n)
  let sg (o : Nat) : Int := intVal true 32 (f o 4)
  let w := f 46 2
  { cnt := [f 0 3 + 1, f 3 3 + 1, f 6 3 + 1, f 9 3 + 1]
    sstr := [sg 12, sg 16, sg 20, sg 24]
    dstr := [sg 28, sg 32, sg 36, sg 40]
    valid := (f 44 2).testBit 15
    asid := BitVec.ofNat 13 (f 44 2)
    resv := f 44 2 / 2 ^ 13 % 4 != 0 || w / 2 ^ 12 != 0 || w / 2 ^ 9 % 4 == 3 || decide (4 < w / 2 ^ 5 % 8) ||
      decide (3 < w / 4 % 8) || apBaseResv (f 48 8) || apBaseResv (f 56 8)
    apr := w.testBit 11
    trans := w / 2 ^ 9 % 4
    sat := w.testBit 8
    rnd := w / 2 ^ 5 % 8
    conv := w / 4 % 8
    ssz := 2 ^ (w % 4)
    abase := BitVec.ofNat 64 (f 48 8)
    adst := BitVec.ofNat 64 (f 56 8) }

/-- The destination element size. -/
def LRec.dsz (r : LRec) : Nat := if r.conv = 0 then r.ssz else if r.conv = 1 then 2 else 1

/-- A record is usable in an ASID (11_copy R259), its table and number apart. -/
def LRec.usable (r : LRec) (asid : BitVec 13) : Bool :=
  r.valid && r.asid == asid && !r.resv && (r.conv == 0 || r.ssz == 4) &&
  (r.trans == 0 || (r.trans == r.dsz && r.cnt.getD 0 1 % 64 == 0 && r.cnt.getD 1 1 % 64 == 0))

/-- Where the record of an id lies, if the table is in use, holds it, and lies in local HBM. -/
def State.recordAt (s : State) (asid : BitVec 13) (id : Nat) : Option Nat :=
  let w := (tget s.ms.ltb asid.toNat 0).toNat
  let a := w % 2 ^ 48 / 64 * 64 + 64 * id
  if w.testBit 0 && decide (id ≤ w / 2 ^ 48) && decide (id ≠ 0) && inHbm a 64 then some a else none

/-- What an op finds of a record: none while it is being read, else the record if it is usable. -/
def State.record (s : State) (asid : BitVec 13) (id : Nat) : Option (Option LRec) :=
  match s.recordAt asid id with
  | none => some none
  | some _ =>
    match s.ms.laycache.find? fun e => e.asid == asid && e.id == id with
    | some e => some (if e.rec_.usable asid then some e.rec_ else none)
    | none => none

/-- An op that waits for a record has it read (11_copy R259). -/
def State.askRecord (s : State) (asid : BitVec 13) (id : Nat) : State :=
  if (s.record asid id).isNone ∧ !s.ms.laymiss.contains (asid.toNat, id) then
    { s with ms := { s.ms with laymiss := s.ms.laymiss ++ [(asid.toNat, id)] } }
  else s

/-- The cache takes a record, the oldest of 256 making room. -/
def State.cacheRecord (s : State) (asid : BitVec 13) (id : Nat) (r : LRec) : State :=
  let old := s.ms.laycache.filter fun e => !(e.asid == asid && e.id == id)
  { s with ms := { s.ms with laycache := old.drop (old.length - 255) ++ [⟨asid, id, r⟩] } }

/-- The record as memory holds it: one that cannot be read is not usable (DEDUCED, log 22). -/
def State.readRecord (s : State) (a : Nat) : LRec := if s.readPoi a 64 then LRec.none else layRec (s.locRead a 64)

/-! ## Patterns (11_copy R260, R261, R267) -/

/-- The lowest byte of a pattern, and the byte past its highest, from base 0. -/
def LRec.span (r : LRec) (strides : List Int) (esz : Nat) : Int × Int :=
  let v := (r.cnt.zip strides).map fun x => ((x.1 : Int) - 1) * x.2
  (v.foldl (fun a x => a + min 0 x) 0, v.foldl (fun a x => a + max 0 x) 0 + esz)

def LRec.elems (r : LRec) : Nat := r.cnt.foldl (· * ·) 1

/-- Total destination bytes. -/
def LRec.total (r : LRec) : Nat := r.elems * r.dsz

/-- A pattern is increasing (11_copy R267). -/
def LRec.increasing (r : LRec) (strides : List Int) : Bool :=
  let st (k : Nat) : Int := strides.getD k 0
  (strides.all fun x => decide (0 ≤ x)) &&
  (List.range 3).all fun k => decide (((r.cnt.getD k 1 : Nat) - 1 : Int) * st k + r.dsz ≤ st (k + 1))

/-- Sheets that a stream binding carries. -/
def LRec.sheets (r : LRec) (strides : List Int) (esz : Nat) : Nat := ((r.span strides esz).2.toNat + 131071) / 131072

/-! ## Sides in the scratchpad space -/

/-- The checks of a mode-0b00 or mode-0b10 side (11_copy R261, R263 places 4 to 6). -/
def State.spadSide (s : State) (c : Ctx) (face : Bool) (base : Nat) (r : LRec) (strides : List Int) (esz : Nat) : Option (Nat × Ev) :=
  let sp := r.span strides esz
  let a : Int := base + sp.1
  let z : Int := base + sp.2
  let prot : Option (Nat × Ev) := some (4, { code := 0x10, info1 := evAddr a, info2 := c.asid.toNat })
  if a < 0 ∨ 2 ^ 32 < z ∨ base % esz ≠ 0 ∨ strides.any (fun x => x % esz != 0) then prot
  else
    let a := a.toNat
    let z := z.toNat
    match area a, area (z - 1) with
    | .hearth, .hearth => if !face && s.regionsOk c.rmask a (z - a) then none else prot
    | .window v, .window w =>
      if !face && (List.range (w + 1 - v)).all fun i => let x := s.window (v + i)
          x.cfg && x.wasid == c.asid then none else prot
    | .face, .face => if face && a / 2 ^ 22 == (z - 1) / 2 ^ 22 then s.faceCheck c a (z - a) else prot
    | _, _ => prot

/-! ## Channels -/

/-- A channel's queue, with the aperture starts that wait for it, is full. -/
def State.chanFull (s : State) (ch : Nat) : Bool :=
  decide (chanDepth ≤ s.chanUsed ch)

/-- A descriptor, before what its kind adds. -/
def State.newDesc (s : State) (b : Nat) (c : Ctx) (kind : CopyKind) (r : LRec) (cflag : Nat) : Desc :=
  { id := s.ids, kind := kind, bank := b, uid := c.uid, seq := s.seq, asid := c.asid, rmask := c.rmask, rec_ := r,
    src := .none, dst := .none, cflag := cflag, cadd := false, rflag := false, bflag := 0, str := 0, srs := c.srs,
    srcC := c.src, swaps := [], places := [], gens := [], started := false, claimed := false, begun := 0, pushed := [],
    prev := Sheet.zero, written := 0, closed := none, bytes := 0, sent := false, home := none, got := [], gotPoi := [],
    moved := 0, part := [], old := [], hostAsk := [], hostWr := [], ended := false, err := none }

/-- Append a descriptor to a channel's queue. -/
def State.pushDesc (s : State) (ch : Nat) (d : Desc) : State :=
  { s with
    ids := s.ids + 1, seq := s.seq + 1
    copy := { s.copy with queues := tput s.copy.queues ch (tget s.copy.queues ch [] ++ [d]) [] } }

/-- A copy rounds stochastically, and so draws (11_copy R260, 05_numbers R106). That a copy under SR which converts nothing
does not draw is a DESIGN CHOICE (log 48). -/
def LRec.draws (r : LRec) : Bool := r.conv != 0 && r.rnd == 4

/-- A channel holds the CP ops that name it: its queue is full, or it is not yet ready (11_copy R254, 18_platform R399). -/
def State.chanHeld (s : State) (ch : Nat) : Bool := s.chanFull ch || !(s.plat.rch.contains ch || s.plat.xch.contains ch)

/-! ## The aperture (11_copy R274) -/

/-- A side of an aperture start. -/
def apSide (w : Word) : Side := if w.getLsbD 63 then .spad (w.toNat % 2 ^ 32) else .virt (w.toNat % 2 ^ 57)

/-- A start's record and sides pass. -/
def State.apOk (s : State) (c : Ctx) (p : ApStart) (r : LRec) : Bool :=
  let side (x : Side) (st : List Int) (n : Nat) : Bool := match x with
    | .spad a => (s.spadSide c false a r st n).isNone
    | _ => true
  r.usable p.asid && r.apr && p.data.toNat / 2 ^ 28 == 0 && side (apSide r.abase) r.sstr r.ssz && side (apSide r.adst) r.dstr r.dsz

/-- The record id and the completion flag of a start's data word. -/
def ApStart.layout (p : ApStart) : Nat := p.data.toNat % 65536

def ApStart.flag (p : ApStart) : Nat := p.data.toNat / 65536 % 4096

/-- The context that a start acts for. A start of another package's or of the host's has none, so its draws under SR take a
free `SRS` and `SRC` (DESIGN CHOICE, log 49). -/
def State.apCtx (s : State) (p : ApStart) : Ctx :=
  let c := match p.bank.bind fun b => s.bankOf p.uid b with
    | some b => s.ctx b
    | none => { Ctx.zero with srs := (Config.freeWord s.free).setWidth 32, src := ((Config.freeWord s.free) >>> 32).setWidth 32 }
  { c with uid := p.uid, asid := p.asid, rmask := p.rmask }

/-- A start with its record, if there is one, is refused. -/
def State.apRefused (s : State) (p : ApStart) (r : Option LRec) : Bool :=
  s.plat.xch.contains p.chan || match r with
    | some r => !s.apOk (s.apCtx p) p r
    | none => true

/-- A start with its record takes effect: its descriptor joins the channel's queue, or it is refused; none while the queue
is full. -/
def State.apRun (s : State) (p : ApStart) (r : Option LRec) : Option State :=
  match (if s.apRefused p r then none else r) with
  | none => some (if p.flag = 0 then s else s.setFlag p.flag ⟨0x80000010, false⟩)
  | some r =>
    if chanDepth ≤ (tget s.copy.queues p.chan []).length then none
    else
      let d := { s.newDesc (p.bank.getD 16) (s.apCtx p) .copy r p.flag with src := apSide r.abase, dst := apSide r.adst }
      let s1 := { s.pushDesc p.chan d with free := s.free + 1 }
      some (match p.bank.bind fun b => s.bankOf p.uid b with
        | some b => s1.drew b r.draws
        | none => s1)

/-- The start that a store of the context in bank `b` to scratchpad-space address `a` asks for. That the data's mark is
not looked at is a DESIGN CHOICE (log 51). -/
def State.apStore (s : State) (b a : Nat) (runs : List (Nat × List Byte)) : ApStart :=
  let c := s.ctx b
  { id := s.ids, chan := (a - 0x1C010000) / 64, data := BitVec.ofNat 32 (leNat (runs.headD (0, [])).2), asid := c.asid,
    bank := some b, uid := c.uid, rmask := c.rmask, reply := none }

/-- A local aperture store holds its bundle until its record is known and its descriptor has a place (11_copy R274). -/
def State.apHold (s : State) (p : ApStart) : Option Nat :=
  match s.record p.asid p.layout with
  | none => some 3
  | some r => if !(s.plat.rch.contains p.chan || s.plat.xch.contains p.chan) || (!s.apRefused p r && s.chanFull p.chan) then
      some 3 else none

/-- The channels to whose queues the local aperture stores append a descriptor. -/
def State.apChans (s : State) (ps : List ApStart) : List Nat :=
  (ps.filter fun p => !s.apRefused p ((s.record p.asid p.layout).getD none)).map (·.chan)

/-- A local aperture store takes effect: its bundle has waited for a place (11_copy R274). -/
def State.apertureStore (s : State) (b a : Nat) (runs : List (Nat × List Byte)) : State :=
  let p := s.apStore b a runs
  (s.apRun p ((s.record p.asid p.layout).getD none)).getD
    { s with ids := s.ids + 1, copy := { s.copy with apert := s.copy.apert ++ [p] } }

end Sys2Proof.Machine
end

