-- ==== Sys2Proof/Machine/Errors.lean ====
section
/-! DEFINITION. Memory lines found uncorrectable, and the self-tests that errors start (18_platform R400). -/

namespace Sys2Proof.Machine

/-- A compute op of the cube (08_cube R187). -/
def isCompute : Instr → Bool
  | .cmm _ | .cmmp _ | .czro .. => true
  | _ => false

/-- Block `b` stands at an op boundary: its partition runs no compute op, or no partition has it. -/
def State.atBoundary (s : State) (b : Nat) : Bool :=
  match s.partOfBlock b with
  | some p => !(s.part p).queue.any fun e => e.started && isCompute e.op
  | none => true

/-- When a self-test begins that an error has asked for: at once, but for a block's, which waits for its partition's next op
boundary, and that of lanes, which waits for the next retraining. -/
def State.beginsNow (s : State) : PartUnit → Bool
  | .block b => s.atBoundary b
  | .port _ | .lanes _ => false
  | _ => true

/-- A unit's targeted self-test is asked for; an error that arises while one waits or runs joins it. -/
def State.startTest (s : State) (u : PartUnit) : State :=
  if s.plat.tests.any fun t => t.unit == u then s
  else { s with plat := { s.plat with tests := s.plat.tests ++ [⟨u, s.beginsNow u, s.core.beat, 0⟩] } }

/-- Self-tests of some units that have waited begin. -/
def State.beginTests (s : State) (now : PartUnit → Bool) : State :=
  let start (t : TestE) : TestE := if !t.begun && now t.unit then { t with begun := true, start := s.core.beat } else t
  { s with plat := { s.plat with tests := s.plat.tests.map start } }

/-- The self-tests of blocks whose partition has come to an op boundary begin. -/
def State.testsBegin (s : State) : State := s.beginTests s.beginsNow

/-- A block's self-test waits for its boundary or runs: no compute op of its partition starts meanwhile. -/
def State.tested (s : State) (b : Nat) : Bool := s.plat.tests.any fun t => t.unit == .block b

/-- Bytes the spec leaves open (18_platform R400; log 12). -/
def State.freeBytes (s : State) (n : Nat) : List Byte := (List.range n).map fun i => Config.lostByte s.free i

/-- A line of local memory or of a face slice is found uncorrectable: it is written back with its mark, a record is
pushed and the self-test starts. -/
def State.lostLine (s : State) (a code unit : Nat) (u : PartUnit) : State :=
  let l := a / 64 * 64
  if s.locPoi l 64 then s
  else
    let s1 := s.locWrite l (s.freeBytes 64) true
    ({ s1 with free := s1.free + 1 }.ventNote 0x21 none code unit).startTest u

/-- The pseudo-channel of a line of HBM: its stack, and the number that the stack's controller chooses (10_memory R232). -/
def pseudoOf (a : Nat) : PartUnit := .pseudo (a / 256 % 8) (Config.pseudoChannel (a / 64))

/-- The units of a line, as a record and a self-test name them (16_system R370, 18_platform R400). -/
def lineUnit (a : Nat) : Nat × PartUnit :=
  if inHbm a 1 then (0, pseudoOf a)
  else if inTier2 a 1 then (1, .cxl (cxlOf a))
  else
    let x := a - spadBase
    if area x = .face then (3, .block (4 * faceLayer x + x / 2 ^ 20 % 4)) else (2, .region (regionOf x))

/-- Lines of local memory found uncorrectable. -/
def State.loseLines (s : State) (ls : List Nat) : State :=
  ls.foldl (fun s a => s.lostLine a (if a < spadBase then s.pkg * 2 ^ 48 + a / 64 * 64 else (a - spadBase) / 64 * 64)
    (lineUnit a).1 (lineUnit a).2) s

/-- The lines that an operand names. -/
def argLines : Arg → List Nat
  | .bad ls => ls
  | _ => []

/-- The lines that an arrival from local memory names. -/
def arrivalLines : Arrival → List Nat
  | .memory ls => ls
  | _ => []

/-- Lines that the agenda names for an access from outside are found uncorrectable as it reads a range. -/
def State.meetLines (s : State) (ls : List Nat) (a n : Nat) : State :=
  s.loseLines (ls.filter fun l => overlaps a n (l / 64 * 64) 64)

/-- Lines that the agenda names for the next access to the scratchpad are found uncorrectable as it reads ranges of the hearth
scratchpad or the face windows (log 106). -/
def State.meetErrors (s : State) (rs : List (Nat × Nat)) : State :=
  match s.arg with
  | .bad ls =>
    let read (l : Nat) : Bool := rs.any fun r => (area r.1 == .hearth || area r.1 == .face) && decide (spadBase + r.1 / 64 * 64 ≤ l) &&
      decide (l < spadBase + r.1 + r.2)
    ({ s with arg := .none } : State).loseLines (ls.filter read)
  | _ => s

end Sys2Proof.Machine
end

