-- ==== Sys2Proof/Machine/Memory.lean ====
section
/-! DEFINITION. What each load and store does (10_memory R241 to R253): the pieces of an access, the checks of R252, the
target of each piece, and the performing of accesses to the local scratchpad space. -/

namespace Sys2Proof.Machine

/-! ## Pieces and targets -/

/-- One row, lane or scalar of an access: the row or lane index, the handle, the address (modes 0b00 and 0b10) or the
offset from the handle's base, the length, whether it belongs to the second half of LDS2 or STS2, and for a store the
runs of bytes it writes and their mark. -/
structure Piece where
  ix   : Nat
  hnd  : Option Nat
  at_  : Int
  len  : Nat
  half : Bool
  runs : List (Nat × List Byte)
  poi  : Bool

/-- What a form demands of the place it touches. -/
structure Form where
  store : Bool
  face  : Bool                       -- mode 0b10
  areas : Area → Nat → Bool          -- the areas of R225 that allow it
  align : Bool → Nat                 -- alignment in the hearth scratchpad and face windows, or elsewhere
  dreg  : Ctx → Nat                  -- the data register as R424 numbers it

/-- Where a piece takes effect. -/
inductive Tgt
  | spad (a : Nat)
  | mem (a : Nat)
  | peer (pkg a : Nat) (win : Option Nat) (fall : Option Nat)
  | host (a : Nat)
  | zeros

/-- The outcome of the checks of a piece: a cause with its place in R252, or a target. -/
abbrev Chk := (Nat × Ev) ⊕ Tgt

/-- The checks of a piece in the scratchpad space (10_memory R225 to R228, R242, 14_fabric R323). A mode-0b10 address below the
face windows is as far outside them as one above (DEDUCED from 10_memory R241, log 97). -/
def State.spadCheck (s : State) (c : Ctx) (f : Form) (a : Int) (p : Piece) : Chk :=
  let prot : Chk := .inl (4, { code := 0x10, info1 := evAddr a, info2 := c.asid.toNat })
  if a < 0 ∨ 2 ^ 32 < a + p.len then prot
  else
    let a := a.toNat
    let ar := area a
    let z := a + p.len - 1
    if ar ≠ area z ∨ ar = .reserved ∨ (ar = .face) ≠ f.face ∨ !f.areas ar a ∨ a % f.align (ar = .hearth ∨ ar = .face) ≠ 0 ∨
        (ar = .face ∧ a / 2 ^ 22 ≠ z / 2 ^ 22) then prot
    else match ar with
      | .hearth => if s.regionsOk c.rmask a p.len then .inr (.spad a) else prot
      | .face => match s.faceCheck c a p.len with
        | some e => .inl e
        | none => .inr (.spad a)
      | .flags => if f.store ∧ flagOf a = 0 ∧ !c.priv then prot else .inr (.spad a)
      | .aperture => .inr (.spad a)
      | .window w =>
        let v := s.window w
        if f.store ∧ p.poi ∧ p.runs ≠ [] then .inl (11, { code := 0x20, info1 := 2, info2 := f.dreg c })
        else if !v.cfg ∨ v.wasid ≠ c.asid then .inl (12, { code := 0x10, info1 := a, info2 := c.asid.toNat })
        else if v.fail then .inl (12, { code := 0x18, info1 := a, info2 := w })
        else .inr (.peer v.peer.toNat (spadBase + v.pbase.toNat * 2 ^ 25 + a % 2 ^ 25) (some w) none)
      | .reserved => prot

/-- The causes that follow the handle's own fault (10_memory R252 places 8 to 12), and the target: `va` lies in the
page of a valid handle, at local or pod address `pa`. -/
def State.pageCheck (s : State) (c : Ctx) (f : Form) (k : Nat) (va : Nat) (p : Piece) (inner : Option Chk) : Chk :=
  let h := c.hv k
  let info (code : Nat) : Ev := { code := code, info1 := va, info2 := c.asid.toNat + k * 2 ^ 16 }
  let ofs := va - handlePage h
  let d := h.pteBit 6
  let l := s.lease h.lease.toNat
  let leased := h.lease != 0
  let end_ := handlePage h + h.size
  if f.store ∧ !h.pteBit 1 then .inl (8, info 0x12)
  else if va < handlePage h ∨ end_ < va + p.len then
    .inl (9, { info 0x13 with info1 := if handlePage h ≤ va ∧ va < end_ then end_ else va })
  else if h.pteBit 2 ∧ s.flipRefused h.tasid (handlePage h) then .inl (10, info 0x14)
  else if f.store ∧ p.poi ∧ p.runs ≠ [] ∧ s.home h ≠ .here then
    .inl (11, { code := 0x20, info1 := 2, info2 := f.dreg c })
  else if leased ∧ l.lst = .dead ∧ (f.store ∨ !d) then .inl (12, info 0x17)
  else if leased ∧ l.lst = .recalling ∧ f.store ∧ d then .inl (12, info 0x16)
  else if d ∧ !f.store then .inr .zeros
  else match inner with
    | some r => r
    | none => match s.home h with
      | .here => .inr (.mem (h.base + ofs))
      | .peer g =>
        -- the fault of a bundle holds its context (02_bundle R49; DEDUCED, log 26)
        if s.fab.lost.contains g then .inl (12, { code := 0x19, info2 := g * 2 ^ 16 })
        else .inr (.peer g (h.base + ofs) none
          (if f.store ∧ h.pteBit 7 ∧ leased ∧ l.lst = .active then some (l.fbase + (va - l.vbase)) else none))
      | .host =>
        -- likewise where the host's link is lost (18_platform R396)
        if s.ms.hostLost then .inl (12, { code := 0x19, info2 := 2 ^ 31 }) else .inr (.host (h.frame.toNat * 2 ^ 21 + ofs))

/-- A write through a lazy handle meets a discarded granule of a lease that is being recalled (14_fabric R332). -/
def State.recallWrite (s : State) (c : Ctx) (k : Nat) (va : Nat) : Option Ev :=
  match s.walk c.asid (c.hv k).vbase.toNat with
  | some r =>
    if pteBit r.2.1 6 ∧ s.recalling (pteLease r.2.1) then
      some { code := 0x16, info1 := va, info2 := c.asid.toNat + k * 2 ^ 16 }
    else none
  | none => none

/-- The checks of a piece through a handle. -/
def State.handleCheck (s : State) (c : Ctx) (f : Form) (k : Nat) (p : Piece) : Chk :=
  let h := c.hv k
  let va : Int := (h.vbase.toNat : Int) + p.at_
  let la : Int := (h.base : Int) + (va - handlePage h)
  let near := h.hst == .valid && s.home h == .here
  let alias_ := near && decide ((handlePage h : Int) ≤ va) && decide (va < (handlePage h + h.size : Nat)) && inAlias la.toNat 1
  let misaligned : Bool := va % (f.align false : Int) != 0
  if near ∧ !present h.base 1 then
    .inl (4, { code := 0x10, info1 := evAddr (h.frame.toNat / 2 ^ 27 * 2 ^ 48 + la), info2 := c.asid.toNat })
  else
    let inner : Option Chk := if alias_ then some (s.spadCheck c f (la - spadBase) p) else none
    match inner with
    | some (.inl (n, e)) => if n ≤ 6 then .inl (n, e) else s.pageCheck c f k (evAddr va) p inner
    | some (.inr _) => s.pageCheck c f k (evAddr va) p inner
    | none =>
      if misaligned then .inl (4, { code := 0x10, info1 := evAddr va, info2 := c.asid.toNat })
      else match handleFault c k (evAddr va) with
        | some e => .inl (7, e)
        | none =>
          if h.hst = .lazy then
            match (if f.store then s.recallWrite c k (evAddr va) else none) with
            | some e => .inl (12, e)
            | none => .inr .zeros
          else s.pageCheck c f k (evAddr va) p none

/-- The checks of one piece. -/
def State.pieceCheck (s : State) (c : Ctx) (f : Form) (p : Piece) : Chk :=
  match p.hnd with
  | none => s.spadCheck c f p.at_ p
  | some k => s.handleCheck c f k p

/-- The scratchpad-space address of a piece, if it lies there. -/
def State.spadAt (s : State) (c : Ctx) (p : Piece) : Option Int :=
  match p.hnd with
  | none => some p.at_
  | some k =>
    let h := c.hv k
    if h.hst = .valid ∧ s.home h = .here then some ((h.base : Int) + ((h.vbase.toNat : Int) + p.at_ - handlePage h) - spadBase)
    else none

/-- The first `n` bytes of a piece, and the others. -/
def Piece.split (p : Piece) (n : Nat) : List Piece :=
  [{ p with len := n, runs := p.runs.filterMap fun r => if r.1 < n then some (r.1, r.2.take (n - r.1)) else none },
   { p with at_ := p.at_ + n, len := p.len - n,
            runs := p.runs.filterMap fun r => if n < r.1 + r.2.length then some (r.1 - n, r.2.drop (n - r.1)) else none }]

/-- The peer windows are one area (10_memory R225): a piece that lies in two of them goes through each for its own part
(DEDUCED, log 97). -/
def State.cutPiece (s : State) (c : Ctx) (p : Piece) : List Piece :=
  match s.spadAt c p with
  | some a =>
    let n := (2 ^ 25 - a % 2 ^ 25).toNat
    if 0x20000000 ≤ a ∧ a + p.len ≤ 0x40000000 ∧ n < p.len then p.split n else [p]
  | none => [p]

/-- The first cause of an access (10_memory R252): the lowest place, and in it the first piece. -/
def State.accessFault (s : State) (c : Ctx) (f : Form) (ps : List Piece) : Option Ev :=
  let slice (p : Piece) : Nat := evAddr p.at_ / 2 ^ 22
  let apart := f.face && ps.any fun p => match ps.head? with
    | some q => slice p != slice q
    | none => false
  let first : Option (Nat × Ev) :=
    if apart then (ps.head?).map fun p => (4, { code := 0x10, info1 := evAddr p.at_, info2 := c.asid.toNat }) else none
  ((ps.flatMap (s.cutPiece c)).foldl (fun best p => match s.pieceCheck c f p with
    | .inl (n, e) => match best with
      | some (m, _) => if n < m then some (n, { e with half := p.half }) else best
      | none => some (n, { e with half := p.half })
    | .inr _ => best) first).map (·.2)

/-- The targets of the pieces of an access that raises nothing. -/
def State.targets (s : State) (c : Ctx) (f : Form) (ps : List Piece) : List (Piece × Tgt) :=
  (ps.flatMap (s.cutPiece c)).filterMap fun p => match s.pieceCheck c f p with
    | .inr t => some (p, t)
    | .inl _ => none

/-! ## Waits -/

def Tgt.isSpad : Tgt → Bool
  | .spad _ => true
  | _ => false

/-- The aligned 128-byte blocks that some runs of bytes touch (14_fabric R324). -/
def blocksTouched (runs : List (Nat × List Byte)) : List Nat :=
  (runs.flatMap fun r => (List.range ((r.1 + r.2.length - 1) / 128 + 1 - r.1 / 128)).map fun i => r.1 / 128 + i).dedup

/-- The runs of a piece at its target's address. -/
def Piece.runsAt (p : Piece) (a : Nat) : List (Nat × List Byte) := p.runs.map fun r => (a + r.1, r.2)

/-- The cells of an access through window `w`. -/
def windowCells (w : Nat) (ts : List (Piece × Tgt)) : Nat :=
  (blocksTouched (ts.flatMap fun t => match t.2 with
    | .peer _ a (some w') _ => if w' = w then t.1.runsAt a else []
    | _ => [])).length

/-- The windows an access goes through. -/
def windowsOf (ts : List (Piece × Tgt)) : List Nat :=
  (ts.filterMap fun t => match t.2 with
    | .peer _ _ w _ => w
    | _ => none).dedup

/-- The write allowance of a window is used up (14_fabric R324). -/
def State.windowWait (s : State) (ts : List (Piece × Tgt)) : Option Nat :=
  if (windowsOf ts).any fun w => let v := s.window w
      decide (v.lim < v.out + windowCells w ts) && v.out != 0 then some 4 else none

/-- An access through the handle goes through the interlocked queue (10_memory R238). -/
def Handle.queued (h : Handle) : Bool := h.lc == 3 || h.pteBit 5

/-- An earlier access of the context through the interlocked queue is not complete (10_memory R238). -/
def State.ilockWait (s : State) (b : Nat) (hs : List Nat) : Option Nat :=
  let c := s.ctx b
  if (hs.any fun k => (c.hv k).hst == .valid && (c.hv k).queued) &&
      ((s.ms.flight.any fun a => a.uid == c.uid && a.ilock) || decide (s.core.beat < c.ilockEnd)) then some 7 else none

/-- A write through a lazy handle is one that a recall forbids, so its cause does not wait for the re-translation. -/
def State.recallBars (s : State) (b k : Nat) : Bool :=
  ((s.ctx b).hv k).hst == .lazy && (s.recallWrite (s.ctx b) k 0).isSome

/-- A store to a discarded granule waits until its discard is undone (14_fabric R332). -/
def State.discardWait (s : State) (b : Nat) (store : Bool) (hs : List Nat) : Option Nat :=
  if store && hs.any fun k => let h := (s.ctx b).hv k; h.hst == .valid && h.pteBit 6 then some 7 else none

/-- An AMOS of any context is in progress. -/
def State.amosGoing (s : State) : Bool :=
  s.ms.amos != [] || match s.ms.amosEnd with
    | some t => decide (s.core.beat < t)
    | none => false

/-- Until an AMOS ends, an access to the hearth scratchpad waits, whichever context issues it (12_sync R295). -/
def State.amosWait (s : State) (ts : List (Piece × Tgt)) : Option Nat :=
  if s.amosGoing && ts.any fun t => match t.2 with
      | .spad a => area a == .hearth
      | _ => false then some 3 else none

/-- An access to a flag word follows the context's own releases to it that have not landed (15_ordering R347; DEDUCED,
log 18). -/
def State.flagWait (s : State) (b : Nat) (ts : List (Piece × Tgt)) : Option Nat :=
  if ts.any fun t => match t.2 with
      | .spad a => area a == .flags && s.olderRelease (s.ctx b).uid s.seq [flagOf a]
      | _ => false then some 7 else none

/-- An access to the local scratchpad space performs at issue, so it waits for what acquires. -/
def State.acquireWait (s : State) (b : Nat) (ts : List (Piece × Tgt)) : Option Nat :=
  if ts.any fun t => t.2.isSpad then s.acquiring b else none

/-- The aperture stores of an access. -/
def State.apStores (s : State) (b : Nat) (ts : List (Piece × Tgt)) : List ApStart :=
  ts.filterMap fun t => match t.2 with
    | .spad a => if area a = .aperture then some (s.apStore b a t.1.runs) else none
    | _ => none

/-- An aperture store waits for its record and for a place in its channel's queue (11_copy R274). -/
def State.apertureWait (s : State) (b : Nat) (ts : List (Piece × Tgt)) : Option Nat :=
  lowestOf ((s.apStores b ts).map s.apHold)

/-- The records that its aperture stores wait for. -/
def State.apertureAsk (s : State) (b : Nat) (ts : List (Piece × Tgt)) (t : State) : State :=
  (s.apStores b ts).foldl (fun t p => t.askRecord p.asid p.layout) t

/-- The waits of an access that hold whatever it may raise; `ts` are the targets of its pieces that raise nothing. -/
def State.accessWait (s : State) (b : Nat) (load store : Bool) (hs : List Nat) (ts : List (Piece × Tgt)) : Option Nat :=
  lowestOf [lowestOf ((hs.filter fun k => !(store && s.recallBars b k)).map (s.handleWait b)), s.ilockWait b hs,
    s.fenceWait b load store,
    if store then s.windowWait ts else none,
    if store && ts.any fun t => t.2.isSpad then s.longWait b else none,
    s.amosWait ts, s.flagWait b ts, s.acquireWait b ts, s.apertureWait b ts]

/-! ## Performing -/

/-- The part of a run that lies in a block. -/
def runIn (blk : Nat) (r : Nat × List Byte) : List (Nat × List Byte) :=
  let lo := max r.1 (128 * blk)
  let hi := min (r.1 + r.2.length) (128 * blk + 128)
  if lo < hi then [(lo, (r.2.drop (lo - r.1)).take (hi - lo))] else []

/-- One write cell per block that some runs touch. -/
def cellPieces (home : Home) (win : Option Nat) (fall : Option Int) (runs : List (Nat × List Byte)) : List WrPiece :=
  (blocksTouched runs).map fun k => ⟨home, win, fall, runs.flatMap (runIn k), false, false⟩

/-- The window and the way to the fallback of a target at another package. -/
def Tgt.via : Tgt → Option (Nat × Option Nat × Option Int)
  | .peer g a w fall => some (g, w, fall.map fun f => (f : Int) - a)
  | _ => none

/-- The pieces of a store that do not perform at issue. -/
def wrPieces (ts : List (Piece × Tgt)) : List WrPiece :=
  let far := ts.flatMap fun t => match t.2 with
    | .mem a => if t.1.runs = [] then [] else [(⟨.here, none, none, t.1.runsAt a, t.1.poi, false⟩ : WrPiece)]
    | .host a => if t.1.runs = [] then [] else [⟨.host, none, none, t.1.runsAt a, t.1.poi, false⟩]
    | _ => []
  let dsts := (ts.filterMap fun t => t.2.via).dedup
  far ++ dsts.flatMap fun d => cellPieces (.peer d.1) d.2.1 d.2.2 (ts.flatMap fun t => match t.2 with
    | .peer _ a _ _ => if t.2.via = some d then t.1.runsAt a else []
    | _ => [])

/-- The latency class of a piece: 2 through a peer window, be it reached through a handle on the scratchpad alias, and that of
its handle otherwise (10_memory R237). -/
def Piece.lc (p : Piece) (c : Ctx) (t : Tgt) : Nat :=
  match t, p.hnd with
  | .peer _ _ (some _) _, _ => 2
  | _, some k => (c.hv k).lc
  | _, none => 2

/-- The pieces of a load, with those that read the local scratchpad space, or nothing, already read. A piece of another
package is cut at 128-byte blocks (14_fabric R325). -/
def State.rdPieces (s : State) (c : Ctx) (ts : List (Piece × Tgt)) : List RdPiece :=
  ts.flatMap fun t =>
    let lc := t.1.lc c t.2
    match t.2 with
    | .spad a => [⟨t.1.ix, 0, .here, spadBase + a, t.1.len, 3,
        some (s.locRead (spadBase + a) t.1.len, s.locPoi (spadBase + a) t.1.len), s.core.beat⟩]
    | .zeros => [⟨t.1.ix, 0, .here, 0, t.1.len, 3, some (List.replicate t.1.len 0, false), s.core.beat⟩]
    | .mem a => [⟨t.1.ix, 0, .here, a, t.1.len, lc, none, 0⟩]
    | .host a => [⟨t.1.ix, 0, .host, a, t.1.len, lc, none, 0⟩]
    | .peer g a _ _ => (List.range ((a + t.1.len - 1) / 128 + 1 - a / 128)).map fun i =>
        let lo := max a (128 * (a / 128 + i))
        let hi := min (a + t.1.len) (128 * (a / 128 + i) + 128)
        ⟨t.1.ix, lo - a, .peer g, lo, hi - lo, lc, none, 0⟩

/-- Write runs of bytes of the scratchpad space; STN keeps the other nibble of each byte (10_memory R248). -/
def State.spadRuns (s : State) (nib : Option Bool) (p : Piece) (a : Nat) : State :=
  (p.runsAt (spadBase + a)).foldl (fun s r =>
    let bs := match nib with
      | none => r.2
      | some hi => (r.2.zip (s.locRead r.1 r.2.length)).map fun x =>
          if hi then (x.1 &&& 0xF0) ||| (x.2 &&& 0x0F) else (x.1 &&& 0x0F) ||| (x.2 &&& 0xF0)
    let t := s.locWrite r.1 bs p.poi
    -- a merged write keeps the marks of its lines (07_sheet R158)
    if nib.isSome ∧ !p.poi then { t with ms := { t.ms with poison := s.ms.poison } } else t) s

/-- The stores of an access to the local scratchpad space, which perform in its beat of issue (15_ordering R349), in
a droop of a face window's block too (DEDUCED, log 110). -/
def State.storeHere (s : State) (b : Nat) (nib : Option Bool) (ts : List (Piece × Tgt)) : State :=
  ts.foldl (fun s t => match t.2 with
    | .spad a => if area a = .aperture then s.apertureStore b a t.1.runs else s.spadRuns nib t.1 a
    | _ => s) s

/-- The outstanding cells of the windows that an access goes through rise (14_fabric R324). -/
def State.countCells (s : State) (ts : List (Piece × Tgt)) : State :=
  (windowsOf ts).foldl (fun s w => s.setWindow w { s.window w with out := (s.window w).out + windowCells w ts }) s

/-- An access enters the flight of its context. -/
def State.fly (s : State) (b : Nat) (c : Ctx) (hs : List Nat) (kind : AccKind) (rd : List RdPiece)
    (dest : LDest) (wr : List WrPiece) (amo : Option AtomicArg) (acq : Bool) (rel : Option Scope) : State :=
  { s with
    ids := s.ids + 1, seq := s.seq + 1
    ms := { s.ms with flight := s.ms.flight ++
      [{ id := s.ids, bank := b, uid := c.uid, seq := s.seq, asid := c.asid, kind := kind,
         ilock := hs.any fun k => (c.hv k).queued,
         issued := s.core.beat, rd := rd, dest := dest, wr := wr, amo := amo, acq := acq, rel := rel, bad := false, sent := false, hsent := false }] } }

/-- The hearth-scratchpad bytes that an access touches in its beat, as ranges. -/
def hearthSpans (ts : List (Piece × Tgt)) : List (Nat × Nat) :=
  ts.filterMap fun t => match t.2 with
    | .spad a => if area a = .hearth then some (a, t.1.len) else none
    | _ => none

/-- The bytes of the local scratchpad space that an access touches, as ranges. -/
def spadSpans (ts : List (Piece × Tgt)) : List (Nat × Nat) :=
  ts.filterMap fun t => match t.2 with
    | .spad a => some (a, t.1.len)
    | _ => none

/-- A store takes effect. -/
def State.doStore (pre s : State) (b : Nat) (hs : List Nat) (nib : Option Bool) (ts : List (Piece × Tgt)) : State :=
  let s1 := (((s.amosFlush.touch (hearthSpans ts))).storeHere b nib ts).countCells ts
  let wr := wrPieces ts
  if wr = [] then s1 else s1.fly b (pre.ctx b) hs .store [] .none wr none false none

/-! ## Results of loads (10_memory R246) -/

/-- The bytes of a row, lane or scalar. -/
def rdBytes (rd : List RdPiece) (ix : Nat) : List Byte :=
  (rd.filter fun p => p.ix == ix).flatMap fun p => match p.got with
    | some g => g.1
    | none => []

/-- Its mark. -/
def rdMark (rd : List RdPiece) (ix : Nat) : Bool :=
  rd.any fun p => p.ix == ix && match p.got with
    | some g => g.2
    | none => false

/-- Bytes as lanes. -/
def lanesOf : List Byte → List Lane
  | a :: b :: c :: d :: l => BitVec.ofNat 32 (leNat [a, b, c, d]) :: lanesOf l
  | _ => []

/-- Rows of lanes as a table by row. -/
def rowLanes (rd : List RdPiece) (n : Nat) : List (List Lane) := (List.range n).map fun r => lanesOf (rdBytes rd r)

/-- The register a load writes and its value. -/
def LDest.result (d : LDest) (rd : List RdPiece) : Option (PDest × PVal) :=
  match d with
  | .none => Option.none
  | .x n wid => some (.x n, .x ⟨widExtend wid (leNat (rdBytes rd 0)), rdMark rd 0⟩)
  | .mask n =>
    let rows := (List.range 64).map fun r => rdBytes rd r
    some (.m n, .m (MaskV.make (fun l => (((rows.getD (l / 512) []).getD (l % 512 / 8) 0)).getLsbD (l % 8)) (rdMark rd)))
  | .rows n old mk masked mz bcast =>
    let t := rowLanes rd (if bcast then 1 else 64)
    some (.v n, .v (mergeSheet old mk masked mz (fun l => (t.getD (if bcast then 0 else l / 512) []).getD (l % 512) 0)
      (fun r => rdMark rd (if bcast then 0 else r))))
  | .row n r old mk masked mz =>
    let t := lanesOf (rdBytes rd r)
    let full := mergeSheet old mk masked mz (fun l => t.getD (l % 512) 0) (fun _ => rdMark rd r)
    some (.v n, .v (Sheet.make (fun l => if l / 512 = r then full.lane l else old.lane l)
      (fun q => if q = r then full.mark q else old.mark q)))
  | .gather n old mk masked mz =>
    let t : Tbl Lane := rd.map fun p => (p.ix, BitVec.ofNat 32 (leNat (rdBytes [p] p.ix)))
    some (.v n, .v (mergeSheet old mk masked mz (fun l => tget t l 0)
      (fun r => rd.any fun p => p.ix / 512 == r && rdMark [p] p.ix)))

/-- A long load of an access: some piece is still to be read, or goes through a handle to memory (10_memory R237). -/
def isLong (ts : List (Piece × Tgt)) : Bool := ts.any fun t => !t.2.isSpad

/-- Beats of a load from the scratchpad space: 16 for a face window (04_sequencing R78, 10_memory R253). -/
def spadLatency (ts : List (Piece × Tgt)) (lat : Nat) : Nat :=
  if ts.any fun t => match t.2 with
    | .spad a => area a == .face
    | _ => false then 16 else lat

/-- The blocks whose face windows a load reads. -/
def loadBlocks (ts : List (Piece × Tgt)) : List Nat :=
  (ts.flatMap fun t => match t.2 with
    | .spad a => if area a = .face then faceBlocks a t.1.len else []
    | _ => []).dedup

/-- A load of the scratchpad alias through the interlocked queue is complete when its data arrives (10_memory R238). -/
def State.noteQueued (s : State) (b : Nat) (hs : List Nat) (lat : Nat) : State :=
  if hs.any fun k => ((s.ctx b).hv k).queued then s.modCtx b fun c => { c with ilockEnd := max c.ilockEnd (s.core.beat + lat) }
  else s

/-- A load takes effect: from the local scratchpad space it reads in its beat of issue; otherwise its destination is
locked until its data arrives. -/
def State.doLoad (pre s0 : State) (b : Nat) (hs : List Nat) (ts : List (Piece × Tgt)) (dest : LDest) (lat : Nat) : State :=
  let s := (s0.amosFlush.meetErrors (spadSpans ts)).touch (hearthSpans ts)
  let rd := s.rdPieces (pre.ctx b) ts
  if isLong ts then
    let s1 := match dest.result rd with
      | some r => s.lockReg b r.1 s.ids
      | none => s
    s1.fly b (pre.ctx b) hs .load rd dest [] none false none
  else match dest.result rd with
    | some r => (s.landFrom (loadBlocks ts) b (pre.core.beat + spadLatency ts lat) r.1 r.2 0 false).noteQueued b hs (spadLatency ts lat)
    | none => s

/-! ## Addresses (10_memory R241, R250) -/

/-- The base of a form whose lanes add to it lies outside the limits of its mode (10_memory R241): a base below the face windows
is as far outside those of mode 0b10 as one above (log 97). -/
def baseFault (c : Ctx) (m : MemOp) (a : Int) : Option Ev :=
  let bad : Bool := match m.mode with
    | .spad => decide (a < 0) || decide (2 ^ 32 ≤ a) || area a.toNat == .face
    | .face => decide (a < 0x10000000) || decide (0x1C000000 ≤ a)
    | .handle => false
  if bad then some { code := 0x10, info1 := evAddr a, info2 := c.asid.toNat } else none

/-- The handles an op names. -/
def memHandles (m : MemOp) : List Nat := if m.mode = .handle then [m.hnd.toNat] else []

/-- The address of an access of size `sz`, or its offset from the handle's base. -/
def memAddr (c : Ctx) (m : MemOp) (sz : Nat) : Int :=
  let d : Int := m.ofs.toInt * sz
  match m.mode with
  | .spad => ((c.xw m.base).toNat : Int) + d
  | .handle => (c.xw m.base).toInt + d
  | .face => 0x10000000 + ((c.xw m.base).toNat : Int) + d

/-- The pitch of the sheet forms. -/
def memPitch (c : Ctx) (m : MemOp) : Int := if m.pitch = 0 then 2048 else (c.xw m.pitch).toInt

def memHnd (m : MemOp) : Option Nat := if m.mode = .handle then some m.hnd.toNat else none

/-- A read piece. -/
def rdPiece (ix : Nat) (h : Option Nat) (a : Int) (len : Nat) (half : Bool := false) : Piece := ⟨ix, h, a, len, half, [], false⟩

/-- The scalars an address reads. -/
def memScalars (m : MemOp) : List XReg := m.base :: if m.pitch = 0 then [] else [m.pitch]

/-- The alignment of rows, and of other accesses (10_memory R242). -/
def rowAlign (near : Bool) : Nat := if near then 2048 else 64

def memForm (m : MemOp) (store : Bool) (align : Bool → Nat) (areas : Area → Nat → Bool) (dreg : Ctx → Nat := fun _ => 0) : Form :=
  { store := store, face := m.mode == .face, areas := areas, align := align, dreg := dreg }

/-- Areas that allow the sheet, row and mask loads. -/
def wideAreas (windows : Bool) : Area → Nat → Bool
  | .hearth, _ | .face, _ => true
  | .window _, _ => windows
  | _, _ => false

/-! ## Loads -/

/-- A load: its extra sources, its scalars, its pieces, its destination register, and how its data becomes the result. -/
def loadSem (m : MemOp) (f : Form) (xs : List XReg) (hs : List Nat) (extra : Ctx → List PDest) (poison : Ctx → Option Ev)
    (pieces : Ctx → List Piece) (dreg : Ctx → PDest) (dest : Ctx → LDest) (lat : Nat) : OpSem :=
  { path := m.path
    reads := fun s b => (xs.map fun x => .x x.toNat) ++ (hs.map fun k => .h k) ++ extra (s.ctx b)
    writes := fun s b => let c := s.ctx b
      let ts := s.targets c f (pieces c)
      [(dreg c, if isLong ts then none else some (spadLatency ts lat))]
    hold := fun s b => let c := s.ctx b; s.accessWait b true false hs (s.targets c f (pieces c))
    fault := fun s b => let c := s.ctx b
      (poisonedX c xs).orElse fun _ => (poison c).orElse fun _ => s.accessFault c f (pieces c)
    ask := fun s b t => hs.foldl (fun t k => s.askHandle b k t) t
    act := fun pre b s => let c := pre.ctx b
      pre.doLoad s b hs (pre.targets c f (pieces c)) (dest c) lat }

/-- The mask and the old destination that a sheet load reads. -/
def sheetLoadReads (m : MemOp) (merges : Bool) (c : Ctx) : List PDest :=
  .m (c.physM m.mask.toNat) :: if merges then [.v (c.physV m.reg.toNat)] else []

def noPoison (_ : Ctx) : Option Ev := none

/-- LDS (10_memory R243, R246). -/
def ldsSem (m : MemOp) (mz : Bool) : OpSem :=
  loadSem m (memForm m false rowAlign (wideAreas true)) (memScalars m) (memHandles m)
    (sheetLoadReads m (m.mask != 0 && !mz)) noPoison
    (fun c => (List.range 64).map fun r => rdPiece r (memHnd m) (memAddr c m 2048 + r * memPitch c m) 2048)
    (fun c => .v (c.physV m.reg.toNat))
    (fun c => .rows (c.physV m.reg.toNat) (c.vv (c.physV m.reg.toNat)) (c.maskOf m.mask.toNat) (m.mask != 0) mz false) 6

/-- LDR (10_memory R243, R246): the other rows stay, so it always reads its destination. -/
def ldrSem (m : MemOp) (row : BitVec 6) : OpSem :=
  -- SPEC bit 0 is both `MZ` and the lowest bit of `ROW` (10_memory R245; log 9)
  loadSem m (memForm m false rowAlign (wideAreas true)) (memScalars m) (memHandles m)
    (sheetLoadReads m true) noPoison
    (fun c => [rdPiece row.toNat (memHnd m) (memAddr c m 2048) 2048])
    (fun c => .v (c.physV m.reg.toNat))
    (fun c => .row (c.physV m.reg.toNat) row.toNat (c.vv (c.physV m.reg.toNat)) (c.maskOf m.mask.toNat) (m.mask != 0)
      (row.getLsbD 0)) 6

/-- The rows of LDS2 and STS2 (10_memory R250). -/
def twoHalves (c : Ctx) (m : MemOp) (j : BitVec 6) (hb : HReg) (xb2 : XReg) (r : Nat) : Option Nat × Int × Bool :=
  if r < j.toNat then (some m.hnd.toNat, memAddr c m 2048 + r * memPitch c m, false)
  else (some hb.toNat, (c.xw xb2).toInt + ((r : Int) - j.toNat) * memPitch c m, true)

/-- LDS2 (10_memory R243, R250). -/
def lds2Sem (m : MemOp) (j : BitVec 6) (hb : HReg) (xb2 : XReg) (mz : Bool) : OpSem :=
  loadSem m (memForm m false rowAlign (wideAreas true)) (memScalars m ++ [xb2]) [m.hnd.toNat, hb.toNat]
    (sheetLoadReads m (m.mask != 0 && !mz)) noPoison
    (fun c => (List.range 64).map fun r => let t := twoHalves c m j hb xb2 r; rdPiece r t.1 t.2.1 2048 t.2.2)
    (fun c => .v (c.physV m.reg.toNat))
    (fun c => .rows (c.physV m.reg.toNat) (c.vv (c.physV m.reg.toNat)) (c.maskOf m.mask.toNat) (m.mask != 0) mz false) 6

/-- Areas that allow LDX of a width (10_memory R225). -/
def ldxAreas (wid : BitVec 3) : Area → Nat → Bool
  | .hearth, _ | .face, _ | .window _, _ => true
  | .flags, _ => wid == 4 || wid == 5
  | _, _ => false

/-- LDX (10_memory R243, R246). -/
def ldxSem (m : MemOp) (wid : BitVec 3) : OpSem :=
  let sz := widBytes wid.toNat
  loadSem m (memForm m false (fun _ => sz) (ldxAreas wid)) (memScalars m) (memHandles m) (fun _ => []) noPoison
    (fun c => [rdPiece 0 (memHnd m) (memAddr c m sz) sz])
    (fun _ => .x m.reg.toNat) (fun _ => .x m.reg.toNat wid.toNat) 5

/-- LDB (10_memory R243, R246). -/
def ldbSem (m : MemOp) (mz : Bool) : OpSem :=
  loadSem m (memForm m false rowAlign (wideAreas true)) (memScalars m) (memHandles m)
    (sheetLoadReads m (m.mask != 0 && !mz)) noPoison
    (fun c => [rdPiece 0 (memHnd m) (memAddr c m 2048) 2048])
    (fun c => .v (c.physV m.reg.toNat))
    (fun c => .rows (c.physV m.reg.toNat) (c.vv (c.physV m.reg.toNat)) (c.maskOf m.mask.toNat) (m.mask != 0) mz true) 6

/-- The lanes that a gather or scatter moves: those of its mask (DEDUCED, log 19). -/
def maskLanes (c : Ctx) (mask : BitVec 4) : List Nat :=
  (List.range nLanes).filter fun l => (c.maskOf mask.toNat).bits.getLsbD l

/-- The index lane of a gather or scatter. -/
def idxLane (c : Ctx) (idx : BitVec 5) (l : Nat) : Nat := ((c.vv (c.physV idx.toNat)).lane l).toNat

/-- A poisoned row of the index sheet that a lane reads raises poison consumption (10_memory R251). -/
def idxPoison (idx : BitVec 5) (mask : BitVec 4) (c : Ctx) : Option Ev :=
  if (maskLanes c mask).any fun l => (c.vv (c.physV idx.toNat)).mark (l / 512) then
    some { code := 0x20, info1 := 1, info2 := c.physV idx.toNat + 256 }
  else none

/-- LDG (10_memory R243, R246). -/
def ldgSem (m : MemOp) (idx : BitVec 5) (mz : Bool) : OpSem :=
  loadSem m (memForm m false (fun _ => 4) (wideAreas false)) (memScalars m) (memHandles m)
    (fun c => .v (c.physV idx.toNat) :: sheetLoadReads m (m.mask != 0 && !mz) c)
    (fun c => (idxPoison idx m.mask c).orElse fun _ => baseFault c m (memAddr c m 4))
    (fun c => (maskLanes c m.mask).map fun l => rdPiece l (memHnd m) (memAddr c m 4 + 4 * idxLane c idx l) 4)
    (fun c => .v (c.physV m.reg.toNat))
    (fun c => .gather (c.physV m.reg.toNat) (c.vv (c.physV m.reg.toNat)) (c.maskOf m.mask.toNat) (m.mask != 0) mz) 20

/-- LDM (10_memory R243, R246). Row r of the mask lies in its 64 bytes at 64r. -/
def ldmSem (m : MemOp) : OpSem :=
  loadSem m (memForm m false (fun _ => 64) (wideAreas false)) (memScalars m) (memHandles m) (fun _ => []) noPoison
    (fun c => (List.range 64).map fun r => rdPiece r (memHnd m) (memAddr c m 64 + 64 * r) 64)
    (fun c => .m (c.physM m.reg.toNat)) (fun c => .mask (c.physM m.reg.toNat)) 6

/-! ## Stores -/

/-- A store: its data registers and stream, its pieces, and the nibble STN writes. -/
def storeSem (m : MemOp) (f : Form) (xs : List XReg) (hs : List Nat) (extra : Ctx → List PDest) (pops : List Nat)
    (poison : State → Ctx → Option Ev) (pieces : Ctx → List Piece) (nib : Option Bool) : OpSem :=
  { path := m.path
    reads := fun s b => (xs.map fun x => .x x.toNat) ++ (hs.map fun k => .h k) ++ extra (s.ctx b)
    pops := pops
    chans := fun s b => let c := s.ctx b; s.apChans (s.apStores b (s.targets c f (pieces c)))
    hold := fun s b => let c := s.ctx b; s.accessWait b false true hs (s.targets c f (pieces c))
    wait := fun s b => s.discardWait b true hs
    fault := fun s b => let c := s.ctx b
      (poisonedX c xs).orElse fun _ => (poison s c).orElse fun _ => s.accessFault c f (pieces c)
    ask := fun s b t => let c := s.ctx b
      s.apertureAsk b (s.targets c f (pieces c))
        (hs.foldl (fun t k => if (s.accessFault c f (pieces c)).isSome then s.askHandle b k t else s.askStore b k t) t)
    act := fun pre b s => let c := pre.ctx b
      pre.doStore s b hs nib (pre.targets c f (pieces c)) }

/-- The data sheet of a store: a sheet, or the sheet at the head of a stream. -/
def storeData (c : Ctx) (m : MemOp) : Sheet :=
  if m.reg.toNat < 32 then c.vv (c.physV m.reg.toNat) else ((c.strm (m.reg.toNat - 32)).buf.head?).getD Sheet.zero

def storeReads (m : MemOp) (c : Ctx) : List PDest :=
  [.m (c.physM m.mask.toNat)] ++ if m.reg.toNat < 32 then [.v (c.physV m.reg.toNat)] else []

def storePops (m : MemOp) : List Nat := if 32 ≤ m.reg.toNat then [m.reg.toNat - 32] else []

/-- The data register as R424 numbers it: physical sheet or stream code, bit 8 set (16_system R424). -/
def storeDreg (m : MemOp) (c : Ctx) : Nat := 256 + if m.reg.toNat < 32 then c.physV m.reg.toNat else m.reg.toNat

/-- Lanes as bytes. -/
def laneBytes (x : Lane) : List Byte := leBytes 4 x.toNat

/-- The runs of consecutive written lanes of a row, from column `k` on, each with its offset and bytes. -/
def rowRuns (v : Sheet) (mk : MaskV) (r : Nat) : List (Nat × List Byte) :=
  (List.range 512).foldr (fun c acc =>
    if mk.bits.getLsbD (512 * r + c) then
      match acc with
      | (o, bs) :: rest => if o = 4 * (c + 1) then (4 * c, laneBytes (v.lane (512 * r + c)) ++ bs) :: rest
          else (4 * c, laneBytes (v.lane (512 * r + c))) :: acc
      | [] => [(4 * c, laneBytes (v.lane (512 * r + c)))]
    else acc) []

/-- A row of a store: the bytes of the lanes of the mask, with the mark of the data row and of the mask row
(10_memory R247, R251, 07_sheet R158). -/
def rowPiece (c : Ctx) (m : MemOp) (r : Nat) (h : Option Nat) (a : Int) (half : Bool := false) : Piece :=
  let v := storeData c m
  let mk := c.maskOf m.mask.toNat
  ⟨r, h, a, 2048, half, rowRuns v mk r, v.mark r || (m.mask != 0 && mk.marks.getLsbD r)⟩

/-- STS (10_memory R244, R247). -/
def stsSem (m : MemOp) (_dport : BitVec 3) : OpSem :=
  storeSem m (memForm m true rowAlign (wideAreas true) (storeDreg m)) (memScalars m) (memHandles m) (storeReads m) (storePops m)
    (fun _ => noPoison) (fun c => (List.range 64).map fun r => rowPiece c m r (memHnd m) (memAddr c m 2048 + r * memPitch c m)) none

/-- STR (10_memory R244, R247). -/
def strSem (m : MemOp) (_dport : BitVec 3) (row : BitVec 6) : OpSem :=
  storeSem m (memForm m true rowAlign (wideAreas true) (storeDreg m)) (memScalars m) (memHandles m) (storeReads m) (storePops m)
    (fun _ => noPoison) (fun c => [rowPiece c m row.toNat (memHnd m) (memAddr c m 2048)]) none

/-- STS2 (10_memory R244, R250). -/
def sts2Sem (m : MemOp) (_dport : BitVec 3) (j : BitVec 6) (hb : HReg) (xb2 : XReg) : OpSem :=
  storeSem m (memForm m true rowAlign (wideAreas true) (storeDreg m)) (memScalars m ++ [xb2]) [m.hnd.toNat, hb.toNat]
    (storeReads m) (storePops m) (fun _ => noPoison)
    (fun c => (List.range 64).map fun r => let t := twoHalves c m j hb xb2 r; rowPiece c m r t.1 t.2.1 t.2.2) none

/-- Areas that allow STX of a width at an address (10_memory R225). -/
def stxAreas (wid : BitVec 3) : Area → Nat → Bool
  | .hearth, _ | .face, _ | .window _, _ => true
  | .flags, _ => wid == 5
  | .aperture, a => wid == 5 && a % 64 == 0
  | _, _ => false

/-- STX (10_memory R244, R247). -/
def stxSem (m : MemOp) (wid : BitVec 3) : OpSem :=
  let sz := widBytes wid.toNat
  storeSem m (memForm m true (fun _ => sz) (stxAreas wid) fun _ => m.reg.toNat) (memScalars m) (memHandles m)
    (fun _ => [.x m.reg.toNat]) [] (fun _ => noPoison)
    (fun c => [⟨0, memHnd m, memAddr c m sz, sz, false, [(0, leBytes sz (c.xw m.reg).toNat)], c.xm m.reg⟩]) none

/-- STN (10_memory R244, R248): the hearth scratchpad and the face windows alone. -/
def stnSem (m : MemOp) (_dport : BitVec 3) (nhi : Bool) : OpSem :=
  storeSem m (memForm m true rowAlign (wideAreas false) (storeDreg m)) (memScalars m) (memHandles m) (storeReads m) (storePops m)
    (fun s c => if m.mode = .handle ∧ (c.hv m.hnd.toNat).hst = .valid ∧
        !(s.home (c.hv m.hnd.toNat) == .here && inAlias (c.hv m.hnd.toNat).base 1) then
          some { code := 0x10, info1 := evAddr ((c.hv m.hnd.toNat).vbase.toNat + memAddr c m 2048), info2 := c.asid.toNat }
        else none)
    (fun c => (List.range 64).map fun r => rowPiece c m r (memHnd m) (memAddr c m 2048 + r * memPitch c m)) (some nhi)

/-- STSC (10_memory R244, R247): the lanes store in rising order, so the higher lane remains. -/
def stscSem (m : MemOp) (_dport : BitVec 3) (idx : BitVec 5) : OpSem :=
  storeSem m (memForm m true (fun _ => 4) (wideAreas false) (storeDreg m)) (memScalars m) (memHandles m)
    (fun c => .v (c.physV idx.toNat) :: storeReads m c) (storePops m)
    (fun _ c => (idxPoison idx m.mask c).orElse fun _ => baseFault c m (memAddr c m 4))
    (fun c => let v := storeData c m
      let mk := c.maskOf m.mask.toNat
      (maskLanes c m.mask).map fun l =>
        ⟨l, memHnd m, memAddr c m 4 + 4 * idxLane c idx l, 4, false, [(0, laneBytes (v.lane l))],
          v.mark (l / 512) || (m.mask != 0 && mk.marks.getLsbD (l / 512))⟩) none

/-- STM (10_memory R244, R247). -/
def stmSem (m : MemOp) : OpSem :=
  storeSem m (memForm m true (fun _ => 64) (wideAreas true) fun c => 256 + c.physM m.reg.toNat) (memScalars m) (memHandles m)
    (fun c => [.m (c.physM m.reg.toNat)]) [] (fun _ => noPoison)
    (fun c => let k := c.maskOf m.reg.toNat
      (List.range 64).map fun r =>
        ⟨r, memHnd m, memAddr c m 64 + 64 * r, 64, false, [(0, leBytes 64 (k.bits.extractLsb' (512 * r) 512).toNat)],
          k.marks.getLsbD r⟩) none

end Sys2Proof.Machine
end

