-- ==== Sys2Proof/Machine/Sync.lean ====
section
/-! DEFINITION. What the flag, barrier, fence and atomic ops do (12_sync R275 to R295). -/

namespace Sys2Proof.Machine

/-! ## Flag writes -/

/-- An SY op that writes flags: the scalar it reads, whether a poisoned one raises poison consumption, its scope, and
the update. -/
def flagSem (p : Path) (fix : FlagIx) (xs : Option XReg) (poison : Bool) (scp : Scope) (u : XVal → FlagUpd) : OpSem :=
  { path := p
    reads := fun _ _ => xs.toList.map fun x => .x x.toNat
    hold := fun s b => s.flagWriteWait b
    fault := fun s b => (if poison then poisonedX (s.ctx b) xs.toList else none).orElse fun _ => f0Fault (s.ctx b) fix.toNat
    act := fun pre b s => s.queueFlag b scp fix.toNat (u ((pre.ctx b).xv ((xs.map (·.toNat)).getD 0))) }

/-- The scope of a release: .pkg, or .pod. -/
def podScope (pod : Bool) : Scope := if pod then .pod else .pkg

/-- FSET (12_sync R280). -/
def fsetSem (p : Path) (fix : FlagIx) (pod : Bool) : OpSem :=
  flagSem p fix none false (podScope pod) fun _ => .set ⟨1, false⟩

/-- FCLR (12_sync R280): relaxed. -/
def fclrSem (p : Path) (fix : FlagIx) : OpSem := flagSem p fix none false .ctx fun _ => .set ⟨0, false⟩

/-- FWR (12_sync R280). -/
def fwrSem (p : Path) (fix : FlagIx) (xs : XReg) (pod : Bool) : OpSem :=
  flagSem p fix (some xs) false (podScope pod) fun v => .set ⟨v.val.setWidth 32, v.mark⟩

/-- FADDC (12_sync R280). -/
def faddcSem (p : Path) (fix : FlagIx) (xs : XReg) (pod : Bool) : OpSem :=
  flagSem p fix (some xs) false (podScope pod) fun v => .add (if xs = 0 then ⟨1, false⟩ else ⟨v.val.setWidth 32, v.mark⟩)

/-! ## Barriers -/

/-- BINIT (12_sync R285): both words in one update. -/
def binitSem (p : Path) (fix : FlagIx) (xs : XReg) : OpSem :=
  flagSem p fix (some xs) true .ctx fun v => .two ⟨(barrierArm v.val).1, false⟩ ⟨(barrierArm v.val).2, false⟩

/-- BARV (12_sync R286). -/
def barvSem (p : Path) (fix : FlagIx) (xs : XReg) (pod : Bool) : OpSem :=
  flagSem p fix (some xs) true (podScope pod) fun v => .bar 0 (if xs = 0 then 1 else v.val.toNat % 2 ^ 16) false

/-- BEXP (12_sync R286): a release at .pod scope when it also arrives. -/
def bexpSem (p : Path) (fix : FlagIx) (xs : XReg) (arv : Bool) : OpSem :=
  flagSem p fix (some xs) true (if arv then .pod else .ctx) fun v => .bar (v.val.toNat % 2 ^ 28) arv.toNat false

/-! ## Waits (12_sync R281, R282) -/

/-- The first of some words that a wait tests and finds marked. -/
def State.markedWait (s : State) (uid : Nat) (ws : List Nat) : Option Ev :=
  (ws.find? fun n => (s.waitWords uid n).any (·.mark)).map poisonFlag

/-- The context's own older writes to some words have landed, so that a wait does not pass on an older value
(15_ordering R347). -/
def State.ownLanded (s : State) (b : Nat) (ws : List Nat) : Bool := ws.all fun n => !s.olderFlagWrite (s.ctx b) n s.seq

/-- A wait: its scalars, the words it tests, and its condition. -/
def waitSem (p : Path) (xs : List XReg) (tested : Ctx → List Nat) (passes : State → Ctx → Bool)
    (writes : List (PDest × Option Nat)) (act : State → Nat → State → State) : OpSem :=
  { path := p
    reads := fun _ _ => xs.map fun x => .x x.toNat
    writes := fun _ _ => writes
    hold := fun s b => s.acquiring b
    wait := fun s b => if s.ownLanded b (tested (s.ctx b)) && passes s (s.ctx b) then none else some 2
    fault := fun s b => (poisonedX (s.ctx b) xs).orElse fun _ => s.markedWait (s.ctx b).uid (tested (s.ctx b))
    act := fun pre b s => act pre b s.amosFlush }

/-- A word is nonzero for a wait of the context. -/
def State.waitSet (s : State) (c : Ctx) (n : Nat) : Bool := (s.waitWords c.uid n).all fun w => w.val != 0

/-- FWAIT (12_sync R281). -/
def fwaitSem (p : Path) (fix : FlagIx) : OpSem :=
  waitSem p [] (fun _ => [fix.toNat]) (fun s c => s.waitSet c fix.toNat) [] fun _ _ s => s

/-- FWAIT.ge (12_sync R281). -/
def fwaitGeSem (p : Path) (fix : FlagIx) (xs : XReg) : OpSem :=
  waitSem p [xs] (fun _ => [fix.toNat])
    (fun s c => (s.waitWords c.uid fix.toNat).all fun w => reached w.val ((c.xw xs).setWidth 32)) [] fun _ _ s => s

/-- The words that FWANY's mask selects. -/
def anyWords (fix : FlagIx) (m : Word) : List Nat := ((List.range 64).filter fun k => m.getLsbD k).map fun k => fix.toNat + k

/-- FWANY (12_sync R281): the mask of the words found nonzero lands one beat after issue. -/
def fwanySem (p : Path) (fix : FlagIx) (xs : XReg) : OpSem :=
  waitSem p [xs] (fun c => anyWords fix (c.xw xs))
    (fun s c => c.xw xs == 0 || (anyWords fix (c.xw xs)).any (s.waitSet c))
    [(.x xs.toNat, some 1)]
    fun pre b s =>
      let c := pre.ctx b
      s.landX b xs (BitVec.ofNat 64 (bitsNat ((List.range 64).filter fun k =>
        (c.xw xs).getLsbD k && pre.waitSet c (fix.toNat + k)))) false 1

/-- BWAIT (12_sync R288): word n lands one beat after issue. -/
def bwaitSem (p : Path) (fix : FlagIx) (xd : XReg) : OpSem :=
  waitSem p [] (fun _ => [fix.toNat + 1, fix.toNat])
    (fun s c => (s.waitWords c.uid (fix.toNat + 1)).all fun w => w.val == 0)
    [(.x xd.toNat, some 1)]
    fun pre b s =>
      let w : FlagW := ((pre.waitWords (pre.ctx b).uid fix.toNat).getLast?).getD ⟨0, false⟩
      s.landX b xd (w.val.setWidth 64) false 1

/-! ## FENCE -/

/-- FENCE (12_sync R291): it orders later accesses of its context, and itself waits for nothing. -/
def fenceSem (p : Path) (kind : BitVec 4) (scp : Scope) : OpSem :=
  { path := p
    act := fun _ b s =>
      let live (c : Ctx) (f : FenceE) : Bool := !s.allPerformed c.uid f.seq
      s.modCtx b fun c => { c with fences := (c.fences ++ [({ kind := kind, scp := scp, seq := s.seq } : FenceE)]).filter (live c) } }

/-! ## Atomics -/

/-- Areas that allow an atomic of a width (12_sync R294). -/
def amoAreas (aw : BitVec 3) : Area → Nat → Bool
  | .hearth, _ | .window _, _ => true
  | .flags, _ => aw == 1 || aw == 2
  | _, _ => false

def scopeNum : Scope → Nat
  | .ctx => 0 | .pkg => 1 | .pod => 2 | .sys => 3

/-- The wider of two scopes. -/
def wider (a b : Scope) : Scope := if scopeNum a < scopeNum b then b else a

/-- The minimum scope of a target (12_sync R294). -/
def Tgt.minScope : Tgt → Scope
  | .spad _ | .zeros => .ctx
  | .mem _ => .pkg
  | .peer .. => .pod
  | .host _ => .sys

/-- The operand of an atomic. -/
def amoArg (c : Ctx) (m : MemOp) (a : AmoOp) : AtomicArg := ⟨a.aop, a.aw, c.xw m.reg, c.xw a.xc⟩

/-- Its data is poisoned. -/
def amoPoi (c : Ctx) (m : MemOp) (a : AmoOp) : Bool := c.xm m.reg || c.xm a.xc

/-- The piece of an atomic: its data counts as store data. -/
def amoPiece (c : Ctx) (m : MemOp) (a : AmoOp) : Piece :=
  let n := amoBytes a.aw
  ⟨0, memHnd m, memAddr c m n, n, false, [(0, List.replicate n 0)], amoPoi c m a⟩

def amoForm (m : MemOp) (a : AmoOp) : Form :=
  memForm m true (fun _ => amoBytes a.aw) (amoAreas a.aw) fun c => if c.xm m.reg then m.reg.toNat else a.xc.toNat

/-- A releasing atomic on the local scratchpad space, which performs at issue, waits for the context's earlier accesses
(12_sync R294; DEDUCED, log 20). -/
def State.releaseWait (s : State) (b : Nat) (a : AmoOp) (ts : List (Piece × Tgt)) : Option Nat :=
  if a.ord.getLsbD 1 && (ts.any fun t => t.2.isSpad) && !s.allPerformed (s.ctx b).uid s.seq then some 7 else none

/-- An atomic takes effect: at once in the local scratchpad space, elsewhere in flight. -/
def State.doAmo (pre s0 : State) (b : Nat) (m : MemOp) (a : AmoOp) (ret : Option XReg) (ts : List (Piece × Tgt)) : State :=
  let c := pre.ctx b
  let s := (s0.amosFlush.meetErrors (spadSpans ts)).touch (hearthSpans ts)
  let g := amoArg c m a
  let poi := amoPoi c m a
  let dest : LDest := match ret with
    | some x => .x x.toNat (amoWid a.aw)
    | none => .none
  match ts with
  | [(p, t)] =>
    match t with
    | .spad x =>
      let r := s.amoAt (spadBase + x) g poi
      match ret with
      | some d => (r.1.landAt b (pre.core.beat + 6) (.x d.toNat) (.x ⟨widExtend (amoWid a.aw) (leNat r.2.1), r.2.2⟩) 0
          false).noteQueued b (memHandles m) 6
      | none => r.1
    | _ =>
      let piece : RdPiece := match t with
        | .mem x => ⟨0, 0, .here, x, p.len, p.lc c t, none, 0⟩
        | .peer k x _ _ => ⟨0, 0, .peer k, x, p.len, p.lc c t, none, 0⟩
        | .host x => ⟨0, 0, .host, x, p.len, p.lc c t, none, 0⟩
        | _ => ⟨0, 0, .here, 0, p.len, p.lc c t, none, 0⟩
      let wr : List WrPiece := match t with
        | .peer _ _ _ (some f) => [⟨.here, none, none, [(f, List.replicate p.len 0)], poi, false⟩]
        | .mem x => [⟨.here, none, none, [(x, List.replicate p.len 0)], poi, false⟩]
        | _ => []
      let s1 := match ret with
        | some d => s.lockReg b (.x d.toNat) s.ids
        | none => s
      s1.fly b c (memHandles m) .amo [piece] dest wr (some g) (a.ord.getLsbD 0)
        (if a.ord.getLsbD 1 then some (wider a.scp t.minScope) else none)
  | _ => s

/-- AMO and AMOF (12_sync R294): `ret` is the register of the old value. -/
def amoWith (m : MemOp) (a : AmoOp) (ret : Option XReg) : OpSem :=
  let f := amoForm m a
  let hs := memHandles m
  { path := m.path
    reads := fun _ _ => ((memScalars m ++ [m.reg, a.xc]).map fun x => .x x.toNat) ++ hs.map fun k => .h k
    writes := fun s b => let c := s.ctx b
      match ret with
      | some d => [(.x d.toNat, if isLong (s.targets c f [amoPiece c m a]) then none else some 6)]
      | none => []
    hold := fun s b => let c := s.ctx b
      let ts := s.targets c f [amoPiece c m a]
      lowest (s.accessWait b true true hs (ts.filter fun t => !(windowsOf [t] != []))) (s.releaseWait b a ts)
    wait := fun s b => s.discardWait b true hs
    fault := fun s b => let c := s.ctx b
      (poisonedX c (memScalars m)).orElse fun _ => s.accessFault c f [amoPiece c m a]
    ask := fun s b t => let c := s.ctx b
      hs.foldl (fun t k =>
        if (s.accessFault c f [amoPiece c m a]).isSome then s.askHandle b k t else s.askStore b k t) t
    act := fun pre b s => let c := pre.ctx b
      pre.doAmo s b m a ret (pre.targets c f [amoPiece c m a]) }

/-- AMO (12_sync R294). -/
def amoSem (m : MemOp) (a : AmoOp) : OpSem := amoWith m a none

/-- AMOF (12_sync R294). -/
def amofSem (m : MemOp) (a : AmoOp) : OpSem := amoWith m a (some a.xr)

/-- The lanes of row `r` of an AMOS: address, data and mark of each lane of the mask. -/
def amosLanes (c : Ctx) (m : MemOp) (idx : BitVec 5) (r : Nat) : List (Nat × Word × Bool) :=
  let v := storeData c m
  let mk := c.maskOf m.mask.toNat
  ((List.range 512).filter fun k => mk.bits.getLsbD (512 * r + k)).map fun k =>
    ((memAddr c m 4 + 4 * idxLane c idx (512 * r + k)).toNat, (v.lane (512 * r + k)).setWidth 64,
      v.mark r || (m.mask != 0 && mk.marks.getLsbD r))

/-- AMOS (12_sync R295): row `r` takes effect `r` beats after issue. -/
def amosSem (m : MemOp) (_dport : BitVec 3) (aop : BitVec 4) (aw : BitVec 3) (_scp : Scope) (idx : BitVec 5) : OpSem :=
  let f := memForm m true (fun _ => 4) (fun ar _ => ar == .hearth) (storeDreg m)
  let pieces (c : Ctx) : List Piece := (maskLanes c m.mask).map fun l =>
    ⟨l, none, memAddr c m 4 + 4 * idxLane c idx l, 4, false, [(0, [0, 0, 0, 0])], false⟩
  { path := m.path
    reads := fun s b => let c := s.ctx b
      (memScalars m).map (fun x => .x x.toNat) ++ .v (c.physV idx.toNat) :: storeReads m c
    pops := storePops m
    hold := fun s b => let c := s.ctx b
      lowest (s.accessWait b true true [] (s.targets c f (pieces c))) (if s.amosGoing then some 3 else none)
    fault := fun s b => let c := s.ctx b
      (poisonedX c (memScalars m)).orElse fun _ => (idxPoison idx m.mask c).orElse fun _ =>
        if m.mode ≠ .spad then
          some { code := 0x10, info1 := evAddr (((pieces c).head?.map (·.at_)).getD (memAddr c m 4)), info2 := c.asid.toNat }
        else (baseFault c m (memAddr c m 4)).orElse fun _ => s.accessFault c f (pieces c)
    act := fun pre b s0 =>
      let c := pre.ctx b
      let s := s0.amosFlush
      let row (r : Nat) : AmosRow := ⟨pre.core.beat + r, c.uid, s.seq, aop.setWidth 5, aw, amosLanes c m idx r⟩
      let s1 := (s.touch ((row 0).lanes.map fun l => (l.1, 4))).amosRow (row 0)
      { s1 with
        seq := s1.seq + 1
        ms := { s1.ms with
          amosEnd := some (pre.core.beat + 64)
          amos := s1.ms.amos ++ (((List.range 64).drop 1).map row).filter fun r => r.lanes != [] } } }

end Sys2Proof.Machine
end

