-- ==== Sys2Proof/Machine/Cube.lean ====
section
/-! DEFINITION. Boxes, faces, rings, banks and accumulators of the cube, the tail view, and what each CB op and the ring
ops RADV and RWAIT do at issue (08_cube, 09_partitions, 12_sync R289, R290). -/

namespace Sys2Proof.Machine

/-! ## Boxes, faces, rings and banks (08_cube R183, R184, R189 to R192) -/

/-- FR and FC of a quadrant set. -/
def quadRows (q : BitVec 4) : Nat := if q = 0x5 ∨ q = 0xA ∨ q = 0xF then 512 else 256

def quadCols (q : BitVec 4) : Nat := if q = 0x3 ∨ q = 0xC ∨ q = 0xF then 512 else 256

def nQuads (q : BitVec 4) : Nat := (quadList q).length

/-- The quadrant that holds footprint position (y, x). -/
def quadAt (q : BitVec 4) (y x : Nat) : Nat := (quadList q).headD 0 + 2 * (y / 256) + x / 256

/-- The layers of a mask, top first. -/
def layersOf (m : BitVec 12) : List Nat := (List.range 12).filter fun l => m.getLsbD l

/-- Every layer of a mask lies in a range. -/
def maskIn (m : BitVec 12) (first last : Nat) : Bool := (layersOf m).all fun l => decide (first ≤ l) && decide (l ≤ last)

/-- The layers at the same offsets from another top layer. -/
def shiftMask (m : BitVec 12) (top top' : Nat) : BitVec 12 := if top ≤ top' then m <<< (top' - top) else m >>> (top - top')

/-- Scratchpad-space address of offset `o` of the area of face `f` on layer `l`. -/
def faceAddr (q : BitVec 4) (l f o : Nat) : Nat :=
  0x10000000 + l * 0x1000000 + f * 0x400000 + (quadList q).getD (o / 0x100000) 0 * 0x100000 + o % 0x100000

/-- Bytes of a block's part of one half of a bank. -/
def bankPart : Nat := 6 * 2 ^ 20

/-- The place in the weight banks of offset `o` of one half of a bank, in the part of a block. -/
def bankPlace (blk face half o : Nat) : Nat := bankPart * (2 * (2 * blk + face) + half) + o

/-- The block that holds offset `o` of a bank area on layer `l`. -/
def bankBlock (q : BitVec 4) (l o : Nat) : Nat := 4 * l + (quadList q).getD (o / bankPart) 0

/-- Positions of a face's lines. -/
def faceWidth (face : Nat) (q : BitVec 4) : Nat := if face = 0 then quadRows q else quadCols q

def ringIn (r : RingCfg) : Bool := decide (r.face.toNat < 2)

/-- S of a ring. -/
def ringS (r : RingCfg) : Nat := 24 * r.sk.toNat

def ringP (r : RingCfg) : Nat := 2 ^ r.gp.toNat

/-- Data lines and scale lines of a slot. -/
def ringLs (r : RingCfg) : Nat := if r.plane then ringS r / ringP r else ringS r / ((layersOf r.lmask).length * ringP r)

def ringLsc (r : RingCfg) : Nat := if r.mx then ringS r / 64 else 0

/-- Bs of a ring. -/
def ringBs (q : BitVec 4) (r : RingCfg) : Nat :=
  if ringIn r then (ringLs r + ringLsc r) * (2 * faceWidth r.face.toNat q) else r.sk.toNat * 2048

/-- Area offset of a slot. -/
def slotOfs (q : BitVec 4) (r : RingCfg) (slot : Nat) : Nat := r.base.toNat * 2048 + slot * ringBs q r

/-- The cause of a misconfigured CRING (08_cube R190), beside other rings. -/
def ringBad (q : BitVec 4) (others : List RingCfg) (r : RingCfg) : Bool :=
  r.slots != 0 &&
  ((ringIn r && !r.plane && (layersOf r.lmask).length * ringP r != 0 && ringS r % ((layersOf r.lmask).length * ringP r) != 0) ||
   (r.mx && ringS r % 64 != 0) ||
   decide (nQuads q * 2 ^ 20 < slotOfs q r r.slots.toNat) ||
   others.any fun t => t.face == r.face && (t.lmask &&& r.lmask) != 0 &&
     overlaps (slotOfs q r 0) (r.slots.toNat * ringBs q r) (slotOfs q t 0) (t.slots.toNat * ringBs q t))

/-! ## Cube formats (02_bundle R42, 08_cube R188, R196) -/

def cmmK (c : CmmOp) : Nat := if c.k = 0 then 65536 else c.k.toNat

/-- P of a format. -/
def fmtP (fmt : BitVec 4) : Nat := if fmt = 6 then 4 else if fmt.toNat < 2 then 1 else 2

def fmtMx (fmt : BitVec 4) : Bool := fmt == 6 || fmt == 7

/-- M and N. -/
def cmmM (c : CmmOp) : Nat := c.mm1.toNat + 1
def cmmN (c : CmmOp) : Nat := c.nm1.toNat + 1

/-- Rows and columns of the op region in the logical footprint. -/
def cmmRows (c : CmmOp) : Nat := if c.t then cmmN c else cmmM c
def cmmCols (c : CmmOp) : Nat := if c.t then cmmM c else cmmN c

/-- The source of the operand of a face, and whether its ring slots are retained. -/
def cmmSrc (c : CmmOp) (face : Nat) : BitVec 4 × Bool :=
  if (face = 0) = (c.t = false) then (c.ain, c.keepa) else (c.bin, c.keepb)

/-- Steps of an op: ceil(K / (d × P)), or ceil(K / P) in plane mode. -/
def cmmSteps (plane : Bool) (c : CmmOp) : Nat :=
  let g := if plane then fmtP c.fmt else (layersOf c.lmask).length * fmtP c.fmt
  (cmmK c + g - 1) / g

/-- Ring slots of an op: ceil(K / S). -/
def cmmSlots (c : CmmOp) (r : RingCfg) : Nat := (cmmK c + ringS r - 1) / ringS r

/-- Cursor units of a line, and the lines an op reads from a bank. -/
def lineUnits (face : Nat) (q : BitVec 4) : Nat := 2 * faceWidth face q / 512
def bankLines (plane : Bool) (c : CmmOp) : Nat := cmmSteps plane c + if fmtMx c.fmt then (cmmK c + 63) / 64 else 0

/-- A ring is not as an op needs it: unconfigured, of another face, layers, mode or format, or with too few slots. -/
def cmmRingBad (plane : Bool) (c : CmmOp) (face : Nat) (r : Option RingCfg) : Bool :=
  match r with
  | none => true
  | some r => r.face.toNat != face || r.lmask != c.lmask || r.plane != plane || ringP r != fmtP c.fmt ||
      r.mx != fmtMx c.fmt || decide (r.slots.toNat < cmmSlots c r)

/-- Element bytes of a drain format. -/
def drainBytes (d : BitVec 4) : Nat := if d = 0 ∨ d = 5 then 4 else if d = 1 ∨ d = 2 ∨ d = 6 then 2 else 1

/-! ## The tail view (08_cube R186) -/

def TailP.zero : TailP :=
  { kind := PKind.none, uid := 0, first := 0, last := 0, quads := 0, members := [], shape := 0, chain := Option.none,
    rings := [], issW := 0, issN := 0, undr := [], err := false }

def State.tail (s : State) (p : Nat) : TailP := tget s.cube.tails p TailP.zero

def State.setTail (s : State) (p : Nat) (t : TailP) : State :=
  { s with cube := { s.cube with tails := tput s.cube.tails p t TailP.zero } }

def State.modTail (s : State) (p : Nat) (f : TailP → TailP) : State := s.setTail p (f (s.tail p))

/-- The undrained bits of a box, as 2 × layer + accumulator. -/
def State.undrBits (s : State) (first last : Nat) (q : BitVec 4) : List Nat :=
  (List.range 24).filter fun k => decide (first ≤ k / 2) && decide (k / 2 ≤ last) &&
    (quadList q).any fun j => s.cube.undr.contains (2 * (4 * (k / 2) + j) + k % 2)

/-- The tail view of an id for which nothing is queued: the id as it stands. -/
def State.partView (s : State) (p : Nat) : TailP :=
  let v := s.part p
  { kind := v.kind, uid := v.uid, first := v.first, last := v.last, quads := v.quads, members := v.members,
    shape := v.shape, chain := v.chain, rings := v.rings.map fun e => (e.1, e.2.gen, e.2.cfg), issW := v.issW,
    issN := v.issN, undr := if v.kind = .part ∧ v.quads ≠ 0 then s.undrBits v.first v.last v.quads else [], err := v.err }

/-- The blocks of the box of a tail view. -/
def TailP.blocks (t : TailP) : List Nat := if t.quads = 0 then [] else blocksOf t.first t.last t.quads

/-- The partitions that an id stands for, in the order of their positions. -/
def TailP.targets (t : TailP) (p : Nat) : List Nat := if t.kind = PKind.chain then t.members else [p]

/-- An id, or a member of it, is in the error state in the tail view. -/
def State.tailErr (s : State) (p : Nat) : Bool := (s.tail p).err || ((s.tail p).targets p).any fun q => (s.tail q).err

/-- The context owns an id in the tail view. -/
def State.tailOwns (s : State) (b p : Nat) : Bool :=
  decide ((s.tail p).kind ≠ .none) && (s.tail p).uid == (s.ctx b).uid

/-- The context may queue an op of 08_cube to an id (08_cube R186, 09_partitions R215). -/
def State.cbTarget (s : State) (b p : Nat) : Bool :=
  s.tailOwns b p && (s.tail p).chain.isNone && !s.tailErr p

/-- The box of a target: that of member 0. -/
def State.tailBox (s : State) (p : Nat) : TailP := s.tail (((s.tail p).targets p).headD p)

/-- Rows and columns of the logical footprint (08_cube R183). -/
def State.tailRows (s : State) (p : Nat) : Nat :=
  let t := s.tail p
  quadRows (s.tailBox p).quads * if t.kind = .chain ∧ 2 ≤ t.shape.toNat then 2 else 1

def State.tailCols (s : State) (p : Nat) : Nat :=
  let t := s.tail p
  quadCols (s.tailBox p).quads * if t.kind = .chain then (if t.shape.toNat < 2 then t.members.length
    else if t.shape = 3 then 2 else 1) else 1

/-- The logical position of the north-west cell of the member at position `m`. -/
def memberOrg (t : TailP) (q : BitVec 4) (m : Nat) : Nat × Nat :=
  if t.kind ≠ .chain then (0, 0)
  else if t.shape.toNat < 2 then (0, m * quadCols q)
  else if t.shape = 2 then (m * quadRows q, 0)
  else (m / 2 * quadRows q, m % 2 * quadCols q)

/-- The part of a length that lies from `org` on, at most `width` long. -/
def partOf (len org width : Nat) : Nat := min width (len - org)

def ev28 (p : Nat) : Ev := { code := 0x28, info2 := p }
def ev29 (p : Nat) : Ev := { code := 0x29, info2 := p }
def ev2A (p : Nat) : Ev := { code := 0x2A, info2 := p }

/-- The first of some causes whose condition holds. -/
def firstCause (l : List (Bool × Ev)) : Option Ev := (l.find? (·.1)).map (·.2)

/-! ## The op queue (08_cube R185) -/

/-- Entries of an op queue (09_partitions R210). -/
def queueLen : Nat := 64

/-- A queue of some ids is full. -/
def State.queuesFull (s : State) (ids : List Nat) : Option Nat :=
  if ids.any fun p => decide (queueLen ≤ (s.part p).queue.length) then some 3 else none

/-- Append an op to queues: for each id, the op as its member runs it and its place in the logical footprint. -/
def State.enqueue (s : State) (b : Nat) (srs src : BitVec 32) (es : List (Nat × Instr × (Nat × Nat))) : State :=
  let e (x : Instr × (Nat × Nat)) : QEntry :=
    { gid := s.ids, op := x.1, bank := b, uid := (s.ctx b).uid, seq := s.seq, org := x.2, started := false, steps := 0,
      lastAt := 0, rpA := 0, rpB := 0, curA := 0, curB := 0, halfs := [], srs := srs, src := src, begun := 0 }
  es.foldl (fun s x => s.modPart x.1 fun p => { p with queue := p.queue ++ [e x.2] })
    { s with ids := s.ids + 1, seq := s.seq + 1 }

/-- A CB op of 08_cube: its checks after the target's, the op as the member with box `m` runs it, and its effect on the
member's tail view, whose first argument is the op's number. -/
def cbSem (p : Path) (part : PartId) (check : State → Option Ev) (op : TailP → TailP → Instr)
    (upd : Nat → TailP → TailP → TailP) : OpSem :=
  { path := p
    hold := fun s _ => s.queuesFull ((s.tail part.toNat).targets part.toNat)
    fault := fun s b => if !s.cbTarget b part.toNat then some (ev28 part.toNat) else check s
    act := fun pre b s =>
      let t := s.tail part.toNat
      let ids := t.targets part.toNat
      let box := s.tailBox part.toNat
      let s1 := s.enqueue b (pre.ctx b).srs (pre.ctx b).src
        (ids.zipIdx.map fun e => (e.1, op box (s.tail e.1), memberOrg t box.quads e.2))
      ids.foldl (fun s' q => s'.modTail q (upd s.ids box)) s1 }

/-! ## Compute ops -/

/-- The op that a member runs, its layers those of its own box. -/
def cmmFor (c : CmmOp) (box m : TailP) : CmmOp := { c with lmask := shiftMask c.lmask box.first m.first }

/-- The faults of CMM and CMMP (08_cube R186, R191, R195). -/
def cmmCheck (plane : Bool) (c : CmmOp) (s : State) : Option Ev :=
  let p := c.part.toNat
  let box := s.tailBox p
  let bad (q : Nat) : Bool :=
    let m := s.tail q
    let one (face : Nat) : Bool := let r := (cmmSrc c face).1
      decide (r.toNat < 8) && cmmRingBad plane (cmmFor c box m) face ((tfind m.rings r.toNat).map (·.2))
    one 0 || one 1
  firstCause
    [(!maskIn c.lmask box.first box.last || decide (s.tailRows p < cmmRows c) || decide (s.tailCols p < cmmCols c), ev28 p),
     (((s.tail p).targets p).any bad, ev2A p)]

/-- The undrained bits that a compute op sets: those of the layers whose accumulators it writes. -/
def cmmLayers (plane : Bool) (lmask : BitVec 12) (last : Nat) : List Nat := if plane then layersOf lmask else [last]

def cmmWith (plane : Bool) (c : CmmOp) : OpSem :=
  cbSem c.path c.part (cmmCheck plane c)
    (fun box m => if plane then .cmmp (cmmFor c box m) else .cmm (cmmFor c box m))
    (fun _ box m =>
      let ls := cmmLayers plane (cmmFor c box m).lmask m.last
      { m with undr := ls.foldl (fun u l => sadd u (2 * l + c.acc.toNat)) m.undr })

/-- CMM (08_cube R195). -/
def cmmSem (c : CmmOp) : OpSem := cmmWith false c

/-- CMMP (08_cube R195). -/
def cmmpSem (c : CmmOp) : OpSem := cmmWith true c

/-- The accumulators CZRO writes. -/
def czroAccs (acc both : Bool) : List Nat := if both then [0, 1] else [acc.toNat]

/-- CZRO (08_cube R198). -/
def czroSem (p : Path) (part : PartId) (lmask : BitVec 12) (acc both : Bool) : OpSem :=
  cbSem p part
    (fun s => let box := s.tailBox part.toNat
      firstCause [(!maskIn lmask box.first box.last, ev28 part.toNat)])
    (fun box m => .czro p part (shiftMask lmask box.first m.first) acc both)
    (fun _ box m =>
      { m with
        undr := m.undr.filter fun k => !((layersOf (shiftMask lmask box.first m.first)).contains (k / 2) && (czroAccs acc both).contains (k % 2)) })

/-! ## Drains -/

/-- The op that a member runs. -/
def cdrnFor (c : CdrnOp) (rnd : BitVec 3) (box m : TailP) : CdrnOp :=
  { c with dlay := BitVec.ofNat 4 (c.dlay.toNat + m.first - box.first), rnd := rnd }

/-- Rows and columns of the region that a member drains. -/
def drainRows (c : CdrnOp) (q : BitVec 4) (org : Nat × Nat) : Nat := partOf (c.mm1.toNat + 1) org.1 (quadRows q)
def drainCols (c : CdrnOp) (q : BitVec 4) (org : Nat × Nat) : Nat := partOf (c.nm1.toNat + 1) org.2 (quadCols q)

/-- The faults of CDRN (08_cube R186, R191, R200). -/
def cdrnCheck (c : CdrnOp) (s : State) : Option Ev :=
  let p := c.part.toNat
  let t := s.tail p
  let box := s.tailBox p
  let bad (e : Nat × Nat) : Bool :=
    let m := s.tail e.1
    let org := memberOrg t box.quads e.2
    match tfind m.rings c.ring.toNat with
    | none => true
    | some (_, r) => r.face.toNat != 2 + c.east.toNat || layersOf r.lmask != [c.dlay.toNat + m.first - box.first] ||
        decide (ringBs m.quads r < drainRows c m.quads org * drainCols c m.quads org * drainBytes c.dfmt)
  firstCause
    [(decide (c.dlay.toNat < box.first) || decide (box.last < c.dlay.toNat) ||
      decide (s.tailRows p < c.mm1.toNat + 1) || decide (s.tailCols p < c.nm1.toNat + 1), ev28 p),
     ((t.targets p).zipIdx.any bad, ev2A p)]

/-- The rounding of a drain, taken at issue. -/
def cdrnMode (c : CdrnOp) (x : Ctx) : Rnd :=
  if 1 ≤ c.dfmt.toNat ∧ c.dfmt.toNat < 5 then effMode ((Rnd.ofCode c.rnd).getD .rne) x.fpm true else .rne

/-- CDRN (08_cube R200, R201): under SR it takes SRS and SRC at issue. -/
def cdrnSem (c : CdrnOp) : OpSem :=
  { path := c.path
    hold := fun s _ => s.queuesFull ((s.tail c.part.toNat).targets c.part.toNat)
    fault := fun s b => if !s.cbTarget b c.part.toNat then some (ev28 c.part.toNat) else cdrnCheck c s
    act := fun pre b s =>
      let mode := cdrnMode c (pre.ctx b)
      let t := s.tail c.part.toNat
      let ids := t.targets c.part.toNat
      let box := s.tailBox c.part.toNat
      let s1 := (s.enqueue b (s.ctx b).srs (s.ctx b).src (ids.zipIdx.map fun e =>
        (e.1, .cdrn (cdrnFor c mode.code box (s.tail e.1)), memberOrg t box.quads e.2))).drew b (mode == .sr)
      ids.foldl (fun s' q => s'.modTail q fun m =>
        { m with undr := sdel m.undr (2 * (c.dlay.toNat + m.first - box.first) + c.acc.toNat) }) s1 }

/-! ## Banks, cursors and rings -/

/-- The half that will be active in some blocks on the faces of a CSWP, once it has taken effect (08_cube R194). -/
def State.turnHalves (s : State) (bs : List Nat) (n w : Bool) : State :=
  let keys := bs.flatMap fun b => (if w then [2 * b] else []) ++ if n then [2 * b + 1] else []
  { s with cube := { s.cube with halfT := keys.foldl (fun t k => tput t k (1 - tget t k 0) 0) s.cube.halfT } }

/-- CSWP (08_cube R194): the issued-swap counts rise at issue. -/
def cswpSem (p : Path) (part : PartId) (n w : Bool) : OpSem :=
  let sem := cbSem p part (fun _ => none) (fun _ _ => .cswp p part n w)
    (fun _ _ m => { m with issW := m.issW + w.toNat, issN := m.issN + n.toNat })
  { sem with
    act := fun pre b s => ((s.tail part.toNat).targets part.toNat).foldl (fun s q => (s.modPart q fun v =>
      { v with issW := v.issW + w.toNat, issN := v.issN + n.toNat }).turnHalves (s.tail q).blocks n w) (sem.act pre b s) }

/-- CCUR (08_cube R193). -/
def ccurSem (p : Path) (part : PartId) (north : Bool) (cur : BitVec 16) : OpSem :=
  cbSem p part (fun s => firstCause [(decide (nQuads (s.tailBox part.toNat).quads * 12288 ≤ cur.toNat), ev28 part.toNat)])
    (fun _ _ => .ccur p part north cur) (fun _ _ m => m)

/-- The configuration of a member: its `LMASK`, which its reports give too (09_partitions R224), names the layers of its own box
at the offsets of those that CRING names in the box of member 0 (DESIGN CHOICE, log 102). -/
def ringFor (r : RingCfg) (box m : TailP) : RingCfg := { r with lmask := shiftMask r.lmask box.first m.first }

/-- CRING (08_cube R190). -/
def cringSem (p : Path) (part : PartId) (r : RingCfg) : OpSem :=
  cbSem p part
    (fun s =>
      let box := s.tailBox part.toNat
      let bad (q : Nat) : Bool := let m := s.tail q
        ringBad m.quads ((m.rings.filter fun e => e.1 != r.ring.toNat).map (·.2.2)) (ringFor r box m)
      firstCause
        [(!maskIn r.lmask box.first box.last, ev28 part.toNat),
         (((s.tail part.toNat).targets part.toNat).any bad, ev2A part.toNat)])
    (fun box m => .cring p part (ringFor r box m))
    (fun gid box m =>
      let rs := if r.slots = 0 then tdel m.rings r.ring.toNat else tins m.rings r.ring.toNat (gid + 1, ringFor r box m)
      { m with rings := rs })

/-! ## Queue synchronisation and rail -/

/-- CWAIT (08_cube R202). -/
def cwaitSem (p : Path) (part : PartId) (f : FlagIx) : OpSem :=
  cbSem p part (fun _ => none) (fun _ _ => .cwait p part f) (fun _ _ m => m)

/-- CSIG (08_cube R202). -/
def csigSem (p : Path) (part : PartId) (f : FlagIx) : OpSem :=
  cbSem p part (fun _ => none) (fun _ _ => .csig p part f) (fun _ _ m => m)

/-- CRAIL (08_cube R203). -/
def crailSem (p : Path) (part : PartId) (hi : Bool) : OpSem :=
  cbSem p part (fun _ => none) (fun _ _ => .crail p part hi) (fun _ _ m => m)

/-! ## Reshapes (09_partitions R216 to R221) -/

/-- Ids of a mask. -/
def idsOf (m : BitVec 16) : List Nat := (List.range 16).filter fun k => m.getLsbD k

/-- A reshape op: its affected ids, its checks in the order of R216 (a cause of either kind), its effect on the tail
view. -/
def reshapeSem (p : Path) (part : Nat) (op : Instr) (free dsc : Bool) (affected : State → List Nat)
    (owns illegal : State → Nat → Bool) (upd : State → Nat → State) : OpSem :=
  { path := p
    hold := fun s _ => s.queuesFull (affected s)
    fault := fun s b =>
      let err := (affected s).any fun q => (s.tail q).err
      firstCause
        [(!owns s b || (!free && err), ev28 part),
         (illegal s b || (!dsc && !(free && err) && (affected s).any fun q => (s.tail q).undr != []), ev29 part)]
    act := fun _ b s =>
      let ids := affected s
      let s1 := s.enqueue b 0 0 (ids.map fun q => (q, op, (0, 0)))
      let s2 := { s1 with cube := { s1.cube with resh := s1.cube.resh ++
        [{ gid := s.ids, op := op, uid := (s.ctx b).uid, bank := b, seq := s.seq, ids := ids, met := none, low := [] }] } }
      upd (ids.foldl (fun t q => t.modTail q fun m => { m with undr := [] }) s2) b }

/-- The ids CPART writes. -/
def cpartNew (c : CpartOp) : List Nat := c.na.toNat :: if c.bv then [c.nb.toNat] else []

/-- Boxes A and B. -/
def cpartBoxes (c : CpartOp) : List (Nat × Nat × BitVec 4) :=
  (c.af.toNat, c.al.toNat, c.aq) :: if c.bv then [(c.bf.toNat, c.bl.toNat, c.bq)] else []

/-- Two lists hold the same numbers, and neither holds one twice. -/
def sameSet (a b : List Nat) : Bool := a.length == b.length && decide a.Nodup && a.all b.contains

/-- CPART (09_partitions R220). A source that is an owned chain id raises illegal reshape (DESIGN CHOICE, log 124). -/
def cpartSem (c : CpartOp) : OpSem :=
  let srcs := idsOf c.srcm
  let new := cpartNew c
  reshapeSem c.path c.part.toNat (.cpart c) false c.dsc
    (fun _ => (srcs ++ new).dedup)
    (fun s b => srcs.all fun q => s.tailOwns b q)
    (fun s _ => (srcs.any fun q => (s.tail q).kind != .part || (s.tail q).chain.isSome) ||
      !sameSet ((cpartBoxes c).flatMap fun x => blocksOf x.1 x.2.1 x.2.2) (srcs.flatMap fun q => (s.tail q).blocks) ||
      new.any fun q => !srcs.contains q && (s.tail q).kind != .none)
    (fun s b =>
      let s1 := srcs.foldl (fun s q => s.setTail q TailP.zero) s
      (new.zip (cpartBoxes c)).foldl (fun s e => s.setTail e.1
        { TailP.zero with kind := .part, uid := (s.ctx b).uid, first := e.2.1, last := e.2.2.1, quads := e.2.2.2 }) s1)

/-- The members that CJOIN names, in position order. -/
def cjoinMembers (shape : BitVec 2) (m0 m1 m2 m3 : PartId) : List Nat :=
  if shape = 1 ∨ shape = 3 then [m0.toNat, m1.toNat, m2.toNat, m3.toNat] else [m0.toNat, m1.toNat]

/-- Two boxes have the same shape (09_partitions R208). -/
def TailP.sameShape (a b : TailP) : Bool :=
  a.last - a.first == b.last - b.first && quadRows a.quads == quadRows b.quads && quadCols a.quads == quadCols b.quads

/-- CJOIN (09_partitions R221). A member that is an owned chain id raises illegal reshape (DESIGN CHOICE, log 124). -/
def cjoinSem (p : Path) (part : PartId) (shape : BitVec 2) (m0 m1 m2 m3 : PartId) (dsc : Bool) (cflag : FlagIx) : OpSem :=
  let ms := cjoinMembers shape m0 m1 m2 m3
  reshapeSem p part.toNat (.cjoin p part shape m0 m1 m2 m3 dsc cflag) false dsc
    (fun _ => ms)
    (fun s b => ms.all fun q => s.tailOwns b q)
    (fun s _ => (s.tail part.toNat).kind != .none ||
      (ms.any fun q => (s.tail q).kind != .part || (s.tail q).chain.isSome) ||
      ms.any fun q => !(s.tail (ms.headD 0)).sameShape (s.tail q))
    (fun s b =>
      (ms.foldl (fun s q => s.modTail q fun m => { m with chain := some part.toNat }) s).setTail part.toNat
        { TailP.zero with kind := .chain, uid := (s.ctx b).uid, members := ms, shape := shape })

/-- CSPLIT (09_partitions R221). -/
def csplitSem (p : Path) (part : PartId) (dsc : Bool) (cflag : FlagIx) : OpSem :=
  reshapeSem p part.toNat (.csplit p part dsc cflag) false dsc
    (fun s => (s.tail part.toNat).targets part.toNat)
    (fun s b => s.tailOwns b part.toNat && (s.tail part.toNat).kind == .chain)
    (fun _ _ => false)
    (fun s _ => ((s.tail part.toNat).members.foldl (fun s q => s.modTail q fun m => { m with chain := none }) s).setTail
      part.toNat TailP.zero)

/-- CFREE (09_partitions R221). -/
def cfreeSem (p : Path) (part : PartId) (dsc : Bool) (cflag : FlagIx) : OpSem :=
  reshapeSem p part.toNat (.cfree p part dsc cflag) true dsc
    (fun s => (s.tail part.toNat).targets part.toNat)
    (fun s b => s.tailOwns b part.toNat)
    (fun s _ => (s.tail part.toNat).chain.isSome)
    (fun s _ => (((s.tail part.toNat).targets part.toNat).foldl (fun s q => s.setTail q TailP.zero) s).setTail
      part.toNat TailP.zero)

/-! ## Suspension (09_partitions R223) -/

/-- The partitions of an id as it stands. -/
def State.membersOf (s : State) (p : Nat) : List Nat := if (s.part p).kind = .chain then (s.part p).members else [p]

/-- The ops of some queues that run: queue and op. -/
def State.running (s : State) (ids : List Nat) : List (Nat × Nat) :=
  ids.flatMap fun p => ((s.part p).queue.filter (·.started)).map fun e => (p, e.gid)

/-- An op has completed or stopped: the flags of CSUSP that waited for no other are set. -/
def State.quietOne (s : State) (p gid : Nat) : State :=
  (List.range 16).foldl (fun s k =>
    let v := s.part k
    if v.sflags = [] then s
    else
      let fl := v.sflags.map fun f => { f with ops := f.ops.filter (· != (p, gid)) }
      let s1 := s.setPart k { v with sflags := fl.filter fun f => f.ops != [] }
      (fl.filter fun f => f.ops == []).foldl (fun s f => s.releaseFlag f.uid f.bank f.seq f.flag) s1) s

/-- A CFREE of an id in the error state, which no suspension holds (09_partitions R221). -/
def State.errorFree (s : State) (r : Reshape) : Bool :=
  (match r.op with
    | .cfree .. => true
    | _ => false) && r.ids.any fun p => (s.part p).err

/-- CSUSP (09_partitions R223). -/
def csuspSem (p : Path) (part : PartId) (cflag : FlagIx) : OpSem :=
  { path := p
    priv := true
    act := fun _ b s0 =>
      let k := part.toNat
      let u := (s0.ctx b).uid
      let s := { s0 with seq := s0.seq + 1 }
      if (s.part k).kind = .none then s.releaseFlag u b s0.seq cflag.toNat
      else
        let ids := s.membersOf k
        let run := s.running ids
        let s1 := ids.foldl (fun s q => s.modPart q fun v => { v with susp := true }) s
        let again (r : Reshape) : Reshape :=
          if r.ids.any ids.contains ∧ !s.errorFree r then { r with met := none, low := [] } else r
        let s2 := { s1 with cube := { s1.cube with resh := s1.cube.resh.map again } }
        if run = [] then s2.releaseFlag u b s0.seq cflag.toNat
        else s2.modPart k fun v => { v with sflags := v.sflags ++ [⟨cflag.toNat, b, u, s0.seq, run⟩] } }

/-- CRESM (09_partitions R223). -/
def cresmSem (p : Path) (part : PartId) : OpSem :=
  { path := p
    priv := true
    act := fun _ _ s => if (s.part part.toNat).kind = .none then s
      else (s.membersOf part.toNat).foldl (fun s q => s.modPart q fun v => { v with susp := false }) s }

/-! ## CQRY (09_partitions R224) -/

/-- CQRY: queued, or, with `.now` or for an unallocated id, waiting to report within 8 beats. -/
def cqrySem (p : Path) (part : PartId) (ring : BitVec 3) (qaddr : BitVec 24) (now : Bool) (cflag : FlagIx) : OpSem :=
  let k := part.toNat
  let a := qaddr.toNat * 32
  let op : Instr := .cqry p part ring qaddr now cflag
  let atOnce (s : State) : Bool := now || (s.tail k).kind == .none
  { path := p
    hold := fun s _ => if atOnce s then none else s.queuesFull ((s.tail k).targets k)
    fault := fun s b =>
      let c := s.ctx b
      firstCause [(!c.priv && !s.tailOwns b k, ev28 k), (!s.hearthOk c a 32, protAt c a)]
    act := fun _ b s =>
      if atOnce s then
        { s with
          ids := s.ids + 1
          seq := s.seq + 1
          cube := { s.cube with qrys := s.cube.qrys ++
            [{ gid := s.ids, part := k, op := op, bank := b, uid := (s.ctx b).uid, seq := s.seq, due := s.core.beat + 8,
               seen := none }] } }
      else s.enqueue b 0 0 (((s.tail k).targets k).map fun q => (q, op, (0, 0))) }

/-! ## RADV and RWAIT (12_sync R289, R290) -/

/-- Every CRING of a ring that is queued has started. -/
def State.cringsStarted (s : State) (ids : List Nat) (ring : Nat) : Bool :=
  ids.all fun p => (s.part p).queue.all fun e => match e.op with
    | .cring _ _ r => r.ring.toNat != ring
    | _ => true

/-- A copy or RADV to a ring of some partitions that was issued before `seq` holds no claim on a slot yet
(11_copy R270, 12_sync R290). -/
def State.unclaimed (s : State) (ids : List Nat) (ring seq : Nat) : Bool :=
  (s.cube.radvs.any fun r => decide (r.seq < seq) && !r.claimed && r.ring == ring && r.ids.any ids.contains) ||
  s.copy.queues.any fun q => q.2.any fun d => decide (d.seq < seq) && d.kind == .ring && !d.claimed && match d.dst with
    | .slot _ r => r == ring && d.gens.any fun g => ids.contains g.1
    | _ => false

/-- Slots of a drain ring that RADVs of its owner are about to free. -/
def State.freeingSlots (s : State) (p ring : Nat) : Nat :=
  ((s.cube.radvs.filter fun r => r.ring == ring && r.ids.contains p).map (·.ns)).foldl (· + ·) 0

/-- The faults of RADV and RWAIT. -/
def ringFault (part : PartId) (ring : BitVec 3) (ns : BitVec 8) (s : State) (b : Nat) : Option Ev :=
  let p := part.toNat
  if !s.cbTarget b p then some (ev28 p)
  else firstCause [(((s.tail p).targets p).any fun q => match tfind (s.tail q).rings ring.toNat with
    | none => true
    | some (_, r) => decide (r.slots.toNat < ns.toNat), ev2A p)]

def Ring.free (r : Ring) : Nat := r.cfg.slots.toNat - r.fill - r.claims.length

/-- Every ring of some partitions has `n` slots that are free, on an input ring, or filled, on a drain ring, beside
those that RADVs of its owner take. -/
def State.ringsHave (s : State) (ids : List Nat) (ring n : Nat) : Bool :=
  ids.all fun p => match tfind (s.part p).rings ring with
    | some r => if ringIn r.cfg then decide (n ≤ r.free) else decide (n + s.freeingSlots p ring ≤ r.fill)
    | none => false

/-- The claims at the front of the list that are filled are counted. -/
def Ring.settle (r : Ring) : Ring :=
  let n := (r.claims.takeWhile (·.done)).length
  { r with claims := r.claims.drop n, fill := r.fill + n, counted := r.counted + n,
           tail := (r.tail + n) % r.cfg.slots.toNat }

def State.modRing (s : State) (p ring : Nat) (f : Ring → Ring) : State :=
  s.modPart p fun v => { v with rings := v.rings.map fun e => if e.1 = ring then (e.1, f e.2) else e }

/-- A RADV takes its slots of an input ring. -/
def Ring.claim (r : Ring) (id n : Nat) : Ring :=
  if ringIn r.cfg then { r with claims := r.claims ++ List.replicate n ⟨id, false⟩ } else r

/-- The claims of a copy or RADV are filled (08_cube R191). -/
def Ring.filled (r : Ring) (id : Nat) : Ring :=
  Ring.settle { r with claims := r.claims.map fun c => if c.desc = id then { c with done := true } else c }

/-- The claims of a RADV that is discarded are given up. -/
def Ring.unclaim (r : Ring) (id : Nat) : Ring := Ring.settle { r with claims := r.claims.filter fun c => c.desc != id }

/-- A RADV acts on a ring: its claimed slots are filled, or the head slots are freed. -/
def Ring.advance (r : Ring) (id n : Nat) : Ring :=
  if ringIn r.cfg then r.filled id else { r with fill := r.fill - n, head := (r.head + n) % r.cfg.slots.toNat }

/-- A RADV may claim: every earlier claim has been made, and an input ring has the slots. -/
def State.radvMay (s : State) (r : RadvE) : Bool :=
  !s.unclaimed r.ids r.ring r.seq && r.ids.all fun q => match tfind (s.part q).rings r.ring with
    | some x => !ringIn x.cfg || decide (r.ns ≤ x.free)
    | none => true

/-- A RADV claims its slots, if it may and has not. -/
def State.radvClaim (s : State) (r : RadvE) : State :=
  if r.claimed || !s.radvMay r then s
  else
    let s1 := r.ids.foldl (fun s q => s.modRing q r.ring (·.claim r.id r.ns)) s
    { s1 with cube := { s1.cube with radvs := s1.cube.radvs.map fun x => if x.id = r.id then { x with claimed := true } else x } }

/-- A RADV may act: it has its slots, and every older access of its context has performed (12_sync R290,
15_ordering R353). -/
def State.radvReady (s : State) (r : RadvE) : Bool :=
  s.allPerformed r.uid r.seq && (r.claimed || s.radvMay r)

/-- A RADV acts on its rings. -/
def State.radvActs (s : State) (r : RadvE) : State :=
  let s1 := r.ids.foldl (fun s q => s.modRing q r.ring (·.advance r.id r.ns)) (s.radvClaim r)
  { s1 with cube := { s1.cube with radvs := s1.cube.radvs.filter fun x => x.id != r.id } }

/-- The wait of RWAIT: every CRING of the ring queued before has started, and the slots are there. It is taken on the state
before the bundle, so a CRING in the CB slot of its own bundle does not count (12_sync R289, 02_bundle R30; DESIGN CHOICE,
log 101). -/
def ringWait (part : PartId) (ring : BitVec 3) (ns : BitVec 8) (s : State) : Option Nat :=
  let ids := (s.tail part.toNat).targets part.toNat
  if s.cringsStarted ids ring.toNat && s.ringsHave ids ring.toNat ns.toNat then none else some 2

/-- The wait of RADV: besides, every earlier claim has been made. -/
def advanceWait (part : PartId) (ring : BitVec 3) (ns : BitVec 8) (s : State) : Option Nat :=
  if s.unclaimed ((s.tail part.toNat).targets part.toNat) ring.toNat s.seq then some 2 else ringWait part ring ns s

/-- RADV (12_sync R290). It claims behind a CPYR of its own bundle, which comes first in slot order (02_bundle R30). -/
def radvSem (p : Path) (part : PartId) (ring : BitVec 3) (ns : BitVec 8) : OpSem :=
  { path := p
    wait := fun s _ => advanceWait part ring ns s
    fault := ringFault part ring ns
    act := fun _ b s =>
      let r : RadvE := { id := s.ids, bank := b, uid := (s.ctx b).uid, seq := s.seq,
                         ids := (s.tail part.toNat).targets part.toNat, ring := ring.toNat, ns := ns.toNat, claimed := false }
      ({ s with ids := s.ids + 1, seq := s.seq + 1, cube := { s.cube with radvs := s.cube.radvs ++ [r] } } : State).radvClaim r }

/-- RWAIT (12_sync R290). -/
def rwaitSem (p : Path) (part : PartId) (ring : BitVec 3) (ns : BitVec 8) : OpSem :=
  { path := p
    hold := fun s b => s.acquiring b
    wait := fun s _ => ringWait part ring ns s
    fault := ringFault part ring ns }

end Sys2Proof.Machine
end

