-- ==== Sys2Proof/Machine/CubeRun.lean ====
section
/-! DEFINITION. The cube's own steps: the starts, steps and completions of queued ops, reshapes, the error state, rail
hops and the damper's periods (08_cube R187 to R206, 09_partitions R212 to R224, 17_power R381 to R389). -/

namespace Sys2Proof.Machine

/-! ## Accumulators (08_cube R199) -/

def accKey (blk a r : Nat) : Nat := 65536 * (2 * blk + a) + 256 * r

def markKey (blk a r : Nat) : Nat := 256 * (2 * blk + a) + r

/-- Replace the entries of a range of keys. -/
def trange (t : Tbl Lane) (lo : Nat) (vs : List Lane) : Tbl Lane :=
  (t.filter fun e => decide (e.1 < lo)) ++
  (vs.zipIdx.filterMap fun e => if e.1 = 0 then none else some (lo + e.2, e.1)) ++
  t.filter fun e => decide (lo + vs.length ≤ e.1)

/-- The block and cell row of a footprint row, for its columns from `x` on. -/
def cellBlock (q : BitVec 4) (l y x : Nat) : Nat := 4 * l + quadAt q y x

/-- The first `n` accumulators of footprint row `y`. -/
def State.accRow (s : State) (q : BitVec 4) (l a y n : Nat) : List Lane :=
  (List.range n).map fun x => tget s.cube.acc (accKey (cellBlock q l y x) a (y % 256) + x % 256) 0

def State.setAccRow (s : State) (q : BitVec 4) (l a y : Nat) (vs : List Lane) : State :=
  let part (j : Nat) : List Lane := (vs.drop (256 * j)).take 256
  { s with cube := { s.cube with
    acc := (List.range 2).foldl (fun t j =>
      if part j = [] then t else trange t (accKey (cellBlock q l y (256 * j)) a (y % 256)) (part j)) s.cube.acc } }

/-- The blocks that a footprint row crosses. -/
def rowBlocks (q : BitVec 4) (l y : Nat) : List Nat :=
  (List.range (quadCols q / 256)).map fun j => cellBlock q l y (256 * j)

/-- A footprint row carries a mark. -/
def State.rowMark (s : State) (q : BitVec 4) (l a y : Nat) : Bool :=
  (rowBlocks q l y).any fun b => s.cube.accMark.contains (markKey b a (y % 256))

def State.setRowMark (s : State) (q : BitVec 4) (l a y : Nat) (m : Bool) : State :=
  { s with cube := { s.cube with
    accMark := (rowBlocks q l y).foldl (fun t b => sset t (markKey b a (y % 256)) m) s.cube.accMark } }

/-- Both accumulators of a block: +0, marks clear, undrained bits clear (09_partitions R212). -/
def State.zeroAcc (s : State) (blk : Nat) : State :=
  { s with cube := { s.cube with
    acc := s.cube.acc.filter fun e => e.1 / 131072 != blk
    accMark := s.cube.accMark.filter fun k => k / 512 != blk
    undr := s.cube.undr.filter fun k => k / 2 != blk } }

/-- Every row of both accumulators of a block is marked (08_cube R206). -/
def State.markAcc (s : State) (blk : Nat) : State :=
  { s with cube := { s.cube with
    accMark := (s.cube.accMark.filter fun k => decide (k < 512 * blk)) ++ ((List.range 512).map fun i => 512 * blk + i) ++
      s.cube.accMark.filter fun k => decide (512 * blk + 512 ≤ k) } }

/-- The grant of a block to another ASID (09_partitions R212): accumulators and face quarters zeroed, bank segments
foreign. -/
def State.grantBlock (s : State) (asid : BitVec 13) (blk : Nat) : State :=
  let old := tget s.cube.owner blk 0
  let s1 := { s with cube := { s.cube with owner := tins s.cube.owner blk (asid.toNat + 1) } }
  if old = asid.toNat + 1 then s1
  else
    let s2 := (List.range 4).foldl (fun t f =>
      let a := spadBase + (0x10000000 + blk / 4 * 0x1000000 + f * 0x400000 + blk % 4 * 0x100000)
      { t with ms := { t.ms with
        mem := t.ms.mem.filter fun e => !(decide (a ≤ e.1) && decide (e.1 < a + 0x100000))
        poison := t.ms.poison.filter fun k => !(decide (a ≤ 64 * k) && decide (64 * k < a + 0x100000)) } }) (s1.zeroAcc blk)
    let lo := bankPlace blk 0 0 0 / 65536
    { s2 with cube := { s2.cube with
      foreign := (s2.cube.foreign.filter fun k => decide (k < lo)) ++ ((List.range 384).map fun i => lo + i) ++
        s2.cube.foreign.filter fun k => decide (lo + 384 ≤ k) } }

/-! ## Uncorrectable errors (18_platform R400) -/

/-- A line of a weight bank is found uncorrectable, as `State.lostLine` says of other memory, whose address the record
leaves open (DESIGN CHOICE, log 21). -/
def State.lostBank (s : State) (place blk : Nat) : State :=
  let l := place / 64
  if s.cube.wpoison.contains l then s
  else
    let s1 := { s with
      free := s.free + 1
      cube := { s.cube with wbank := memWrite s.cube.wbank (64 * l) (s.freeBytes 64), wpoison := sadd s.cube.wpoison l } }
    (s1.ventNote 0x21 none (Config.freeWord s.free).toNat 3).startTest (.block blk)

/-- Read a line of the weight banks, some symbols of which are wrong (18_platform R402): one or two are corrected, and
counted in the patrol's interval; three or four lose the line; five or more lose it, or give the wrong line that is
returned. -/
def State.bankRead (s : State) (line : Nat) (errs : List (Nat × Byte)) : State × Option (List Byte) :=
  let blk := line * 64 / (4 * bankPart)
  let n := ((errs.filter fun e => decide (e.1 < 70) && e.2 != 0).map (·.1)).dedup.length
  let counted (t : State) : State :=
    { t with plat := { t.plat with patCnt := tput t.plat.patCnt (blk / 4) (tget t.plat.patCnt (blk / 4) 0 + 1) 0 } }
  if 48 ≤ blk ∨ n = 0 ∨ s.cube.wpoison.contains line then (s, none)
  else if n ≤ 2 then (counted s, none)
  else if n ≤ 4 then (s.lostBank (64 * line) blk, none)
  else
    let t : State := { s with free := s.free + 1 }
    match Config.rsMiss s.free with
    | none => (t.lostBank (64 * line) blk, none)
    | some bs => (counted t, some (bs.take 64))

/-- A line of the weight banks holds some bytes. -/
def State.putBankLine (s : State) (line : Nat) (bs : List Byte) : State :=
  { s with cube := { s.cube with wbank := memWrite s.cube.wbank (64 * line) bs } }

/-- Read some lines with their wrong symbols. Wrong lines that are returned stand in the banks, and the lines that were
there are named, to be put back after what reads them. -/
def State.bankReads (s : State) (errs : BankErrs) : State × List (Nat × List Byte) :=
  errs.foldl (fun x e =>
    let r := x.1.bankRead e.1 e.2
    match r.2 with
    | some bs => (r.1.putBankLine e.1 bs, (e.1, memRead s.cube.wbank (64 * e.1) 64) :: x.2)
    | none => (r.1, x.2)) (s, [])

/-- A parity error: the accumulator row holds open bits and is marked (08_cube R204). -/
def State.lostAccRow (s : State) (key : Nat) : State :=
  let vs := (List.range 256).map fun i => Config.lostAcc s.free i
  { s with
    free := s.free + 1
    cube := { s.cube with acc := trange s.cube.acc (256 * key) vs, accMark := sadd s.cube.accMark key } }.startTest
      (.block (key / 512))

/-- The accumulator rows of a partition in which a parity error is met: the errors supplied, in its blocks. -/
def State.parityErrors (s : State) (v : Part) (keys : List Nat) : State :=
  (keys.filter fun k => v.blocks.contains (k / 512)).foldl (fun s k => s.lostAccRow k) s

/-! ## Entries of a queue -/

/-- The ops ahead of the first op that has not started, and that op. -/
def Part.next (v : Part) : Option (List QEntry × QEntry) :=
  match v.queue.dropWhile (·.started) with
  | e :: _ => some (v.queue.takeWhile (·.started), e)
  | [] => Option.none

def State.modEntry (s : State) (p gid : Nat) (f : QEntry → QEntry) : State :=
  s.modPart p fun v => { v with queue := v.queue.map fun e => if e.gid = gid then f e else e }

/-- An op of some queue has completed: its entry is free, and its flag is set once no member still has it. For CDRN and
CSIG on a chain this means once, after the last member (DESIGN CHOICE, log 43). -/
def State.finish (s : State) (p gid flag : Nat) : State :=
  let s1 := (s.modPart p fun v => { v with queue := v.queue.filter (·.gid != gid) }).quietOne p gid
  if (List.range 16).any fun q => (s1.part q).queue.any (·.gid == gid) then s1 else s1.completeFlag flag

/-- A compute op: its operands, whether it is CMMP. -/
def asCmm : Instr → Option (CmmOp × Bool)
  | .cmm c => some (c, false)
  | .cmmp c => some (c, true)
  | _ => none

/-- Steps and fill of a compute op (08_cube R197). -/
def opSteps : Instr → Option (Nat × Nat)
  | .cmm c => some (cmmSteps false c, 1023 + (layersOf c.lmask).length)
  | .cmmp c => some (cmmSteps true c, 1024)
  | .czro .. => some (1, 0)
  | _ => none

/-- The accumulators an op works on, as 2 × layer + accumulator. -/
def opAccs (v : Part) : Instr → List Nat
  | .cmm c => [2 * v.last + c.acc.toNat]
  | .cmmp c => (layersOf c.lmask).map fun l => 2 * l + c.acc.toNat
  | .czro _ _ lm acc both => (layersOf lm).flatMap fun l => (czroAccs acc both).map fun a => 2 * l + a
  | .cdrn c => [2 * c.dlay.toNat + c.acc.toNat]
  | _ => []

def isDrain : Instr → Bool
  | .cdrn _ => true
  | _ => false

/-- Two compute ops of the same kind, layers and T, which may follow without the wait of R197. -/
def sameKind (a b : Instr) : Bool :=
  match a, b with
  | .cmm x, .cmm y => x.lmask == y.lmask && x.t == y.t
  | .cmmp x, .cmmp y => x.lmask == y.lmask && x.t == y.t
  | .czro _ _ x _ _, .czro _ _ y _ _ => x == y
  | _, _ => false

/-- The faces whose bank an op reads. -/
def readsBank (i : Instr) (face : Nat) : Bool :=
  match asCmm i with
  | some (c, _) => decide (8 ≤ (cmmSrc c face).1.toNat)
  | none => false

/-- An op uses a ring. -/
def usesRing (i : Instr) (ring : Nat) : Bool :=
  match i with
  | .cmm c | .cmmp c => (cmmSrc c 0).1.toNat == ring || (cmmSrc c 1).1.toNat == ring
  | .cdrn c => c.ring.toNat == ring
  | .cring _ _ r => r.ring.toNat == ring
  | _ => false

/-- An op has let its last step enter. -/
def QEntry.entered (e : QEntry) : Bool :=
  match opSteps e.op with
  | some (n, _) => decide (n ≤ e.steps)
  | none => true

/-! ## Cube cycles (08_cube R197, 17_power R382) -/

/-- `n` cycles that a block begins in a droop are each followed by a stretched one (17_power R382). -/
def State.stretch (s : State) (bs : List Nat) (n : Nat) : State :=
  { s with pow := { s.pow with
    slump := (bs.filter s.droops).foldl (fun t b => tput t b (tget t b 0 + BitVec.ofNat 32 n) 0) s.pow.slump } }

/-- `n` of the run cycles of a period pass. In a hop the slump counts go by the beats that pass, and these cycles, in which
an op already in flight completes, add nothing to them (17_power R382). -/
def State.pass (s : State) (p n : Nat) : State :=
  let v := s.part p
  (s.setPart p { v with cyc := v.cyc + n, budget := v.budget - n }).stretch (if v.hop.isSome then [] else v.blocks) n

/-- The slump counts of some blocks are brought up to date, as they join or leave a partition, a hop or a droop. -/
def State.settleSlump (s : State) (bs : List Nat) : State :=
  bs.foldl (fun s b => if s.droops b then
      ({ s with pow := { s.pow with droop := tins s.pow.droop b s.core.beat } } : State).stretch [b] (s.uncounted b)
    else s) s

/-- Cube cycle `t` has come or may come in this period. -/
def Part.reach (v : Part) (t : Nat) : Bool := decide (t ≤ v.cyc + v.budget)

/-- Cycles pass up to `t`. -/
def State.passTo (s : State) (p t : Nat) : State := s.pass p (t - (s.part p).cyc)

/-- The cycles of the period that have begun by now, which no event tells, are an open choice: the run cycles come first, and
those skipped count in `SKIP` (17_power R389; log 99). -/
def State.partPeriod (s : State) (p : Nat) : State :=
  let v := s.part p
  let n := (Config.freeWord s.free).toNat % (v.budget + v.step + 1)
  let skipped := n - v.budget
  let s1 := (s.pass p (min n v.budget)).stretch v.blocks skipped
  { s1.modPart p fun w => { w with skip := w.skip + BitVec.ofNat 32 skipped, step := w.step - skipped } with free := s.free + 1 }

/-- The period of a block's partition is brought up to now, before the block's droop begins or clears. -/
def State.partNow (s : State) (b : Nat) : State :=
  match s.partOfBlock b with
  | some p => if (s.part p).hop.isNone then s.partPeriod p else s
  | none => s

/-! ## Operand lines (08_cube R188, R191, R192) -/

/-- Where an op finds its lines on a face. -/
inductive LineSrc
  | ring (r : Ring) (rp : Nat)
  | bank (cur : Nat)

def State.lineSrc (s : State) (p : Nat) (e : QEntry) (c : CmmOp) (face : Nat) : LineSrc :=
  let src := (cmmSrc c face).1.toNat
  if src < 8 then
    match tfind (s.part p).rings src with
    | some r => .ring r (if face = 0 then e.rpA else e.rpB)
    | none => .bank 0
  else .bank (if face = 0 then e.curA else e.curB)

/-- A byte of the operand lines: its value and whether its line is marked. Line numbers count from the op's first. -/
def State.lineByte (s : State) (v : Part) (e : QEntry) (src : LineSrc) (face l : Nat) (scale : Bool) (line ofs : Nat) : Nat × Bool :=
  let w2 := 2 * faceWidth face v.quads
  match src with
  | .ring r rp =>
    let ls := ringLs r.cfg
    let per := if scale then ringLsc r.cfg else ls
    let slot := (rp + line / per) % r.cfg.slots.toNat
    let row := line % per + if scale then ls else 0
    let a := spadBase + faceAddr v.quads l face (slotOfs v.quads r.cfg slot + row * w2 + ofs)
    ((s.locByte a).toNat, s.locPoi a 1)
  | .bank cur =>
    let o := (cur * 512 + line * w2 + ofs) % (nQuads v.quads * bankPart)
    let blk := bankBlock v.quads l o
    let half := ((e.halfs.find? fun h => h.1 == 2 * blk + face).map (·.2)).getD 0
    let a := bankPlace blk face half (o % bankPart)
    if s.cube.foreign.contains (a / 65536) then (0, false)
    else ((memByte s.cube.wbank a).toNat, s.cube.wpoison.contains (a / 64))

/-- The lines of step `k` are readable: every fill that it reads is counted. -/
def LineSrc.ready (src : LineSrc) (k : Nat) : Bool :=
  match src with
  | .ring r rp => decide (rp + k / ringLs r.cfg < r.counted)
  | .bank _ => true

/-- Format of A and B elements (02_bundle R42). -/
def fmtA (fmt : BitVec 4) : Fmt :=
  match fmt.toNat with
  | 0 => fBF16 | 1 => fF16 | 2 | 4 | 7 => fE4M3 | 6 => fE2M1 | _ => fE5M2

def fmtB (fmt : BitVec 4) : Fmt :=
  match fmt.toNat with
  | 0 => fBF16 | 1 => fF16 | 2 | 5 | 7 => fE4M3 | 6 => fE2M1 | _ => fE5M2

/-- Element `t` of the word at a position. -/
def elemBits (pp word t : Nat) : Nat :=
  if pp = 1 then word else if pp = 2 then word / 256 ^ t % 256 else word / 16 ^ t % 16

/-- What step `k` reads for one position of a face on the `q`-th layer of the op: the elements' bits, the MX scales, and
whether a line it reads is marked. -/
def State.readPos (s : State) (v : Part) (e : QEntry) (c : CmmOp) (plane : Bool) (src : LineSrc) (face l q k w : Nat) :
    List (Nat × Nat) × Bool :=
  let pp := fmtP c.fmt
  let d := (layersOf c.lmask).length
  let b0 := s.lineByte v e src face l false k (2 * w)
  let b1 := s.lineByte v e src face l false k (2 * w + 1)
  let word := b0.1 + 256 * b1.1
  let k0 := if plane then k * pp else k * d * pp + q * pp
  let sc (t : Nat) : Nat × Bool :=
    if !fmtMx c.fmt then (127, false)
    else
      let kk := k0 + t
      match src with
      | .ring r _ =>
        let g := kk % ringS r.cfg / 32
        s.lineByte v e src face l true (kk / ringS r.cfg * ringLsc r.cfg + g / 2) (2 * w + g % 2)
      | .bank _ => s.lineByte v e src face l false (cmmSteps plane c + kk / 64) (2 * w + kk / 32 % 2)
  ((List.range pp).map fun t => (elemBits pp word t, (sc t).1),
   b0.2 || b1.2 || (List.range pp).any fun t => (sc t).2)

/-- An element's value with its scale (05_numbers R102). -/
def mxVal (f : Fmt) (mx : Bool) (x : Nat × Nat) : XR :=
  if mx then (if x.2 = 255 then .nan false else (f.val x.1).scale ((x.2 : Int) - 127)) else f.val x.1

/-! ## A compute step (08_cube R196, 05_numbers R119, R120) -/

def rneBits (x : XR) : Nat := (fF32.round x .rne false 0).1

/-- RNE32 of the sum of two FP32 values. -/
def addBits (a b : Nat) : Nat := rneBits (XR.add .rne (fF32.val a) (fF32.val b)).1

/-- The exact sum of a cell's products; terms past K count as +0. -/
def cellSum (c : CmmOp) (k0 : Nat) (a b : List (Nat × Nat)) : XR :=
  let mx := fmtMx c.fmt
  (XR.sum .rne ((a.zip b).zipIdx.map fun e =>
    if k0 + e.2 < cmmK c then
      ((XR.mul (mxVal (fmtA c.fmt) mx e.1.1) (mxVal (fmtB c.fmt) mx e.1.2)).1, false)
    else (.zero false, false))).1

/-- The integer sum of a cell's products. -/
def cellInt (c : CmmOp) (k0 : Nat) (a b : List (Nat × Nat)) : Int :=
  ((a.zip b).zipIdx.map fun e =>
    if k0 + e.2 < cmmK c then intVal true 8 e.1.1.1 * intVal (c.fmt == 8) 8 e.1.2.1 else 0).foldl (· + ·) 0

/-- One link of the chain: the value passed down so far, and the next layer's cell. -/
def chainLink (c : CmmOp) (k0 : Nat) (z : Option Nat) (a b : List (Nat × Nat)) : Option Nat :=
  if cmmK c ≤ k0 then z
  else if 8 ≤ c.fmt.toNat then some (wrapInt ((z.getD 0 : Nat) + cellInt c k0 a b) 32)
  else
    let x := cellSum c k0 a b
    match z with
    | none => some (rneBits x)
    | some y => some (rneBits (XR.add .rne (fF32.val y) x).1)

/-- The plane rule: the accumulator and the exact sum of the layer's own cell, rounded once. -/
def planeStep (c : CmmOp) (k0 acc : Nat) (a b : List (Nat × Nat)) : Nat :=
  if cmmK c ≤ k0 then acc
  else if 8 ≤ c.fmt.toNat then wrapInt ((acc : Int) + cellInt c k0 a b) 32
  else rneBits (XR.add .rne (fF32.val acc) (cellSum c k0 a b)).1

/-- The accumulator after a step of the deep rule. -/
def accumulate (c : CmmOp) (acc : Nat) (z : Option Nat) : Nat :=
  match z with
  | none => acc
  | some z => if 8 ≤ c.fmt.toNat then wrapInt ((acc + z : Nat) : Int) 32 else addBits acc z

/-- Step `k` of a compute op into one layer's accumulators, from the operands of some of its layers: for each, its first
k of the step, and what each footprint row and column reads. Marks reach the rows of the op region alone: that of a west
line its own rows, that of a north scale line all of them (DESIGN CHOICE, log 45). -/
def State.stepInto (s : State) (v : Part) (c : CmmOp) (plane : Bool) (k l rows cols : Nat)
    (ops : List (Nat × List (List (Nat × Nat) × Bool) × List (List (Nat × Nat) × Bool) × Bool)) : State :=
  let a := c.acc.toNat
  (List.range rows).foldl (fun s y =>
    let old := s.accRow v.quads l a y cols
    let start (x : Lane) : Nat := if c.init && k == 0 then 0 else x.toNat
    let vs := old.zipIdx.map fun x =>
      let cell (o : Nat × List (List (Nat × Nat) × Bool) × List (List (Nat × Nat) × Bool) × Bool) :=
        let west := (o.2.1.getD y ([], false)).1
        let north := (o.2.2.1.getD x.2 ([], false)).1
        if c.t then (north, west) else (west, north)
      BitVec.ofNat 32 (if plane then ops.foldl (fun a o => planeStep c o.1 a (cell o).1 (cell o).2) (start x.1)
        else accumulate c (start x.1) (ops.foldl (fun z o => chainLink c o.1 z (cell o).1 (cell o).2) none))
    let m := (!(c.init && k == 0) && s.rowMark v.quads l a y) ||
      ops.any fun o => decide (o.1 < cmmK c) && ((o.2.1.getD y ([], false)).2 || o.2.2.2)
    (s.setAccRow v.quads l a y vs).setRowMark v.quads l a y m) s

/-- Step `k` of the compute op `e` in partition `p`. -/
def State.computeStep (s : State) (p : Nat) (e : QEntry) : State :=
  let v := s.part p
  match e.op with
  | .czro _ _ lm acc both =>
    (layersOf lm).foldl (fun s l => (czroAccs acc both).foldl (fun s a =>
      (quadList v.quads).foldl (fun s q =>
        let b := 4 * l + q
        { s with cube := { s.cube with
          acc := s.cube.acc.filter fun x => x.1 / 65536 != 2 * b + a
          accMark := s.cube.accMark.filter fun x => x / 256 != 2 * b + a } }) s) s) s
  | i =>
    match asCmm i with
    | none => s
    | some (c, plane) =>
      let rows := partOf (cmmRows c) e.org.1 (quadRows v.quads)
      let cols := partOf (cmmCols c) e.org.2 (quadCols v.quads)
      let pp := fmtP c.fmt
      let ls := layersOf c.lmask
      let west := s.lineSrc p e c 0
      let north := s.lineSrc p e c 1
      let ops := ls.zipIdx.map fun lq =>
        let rd (src : LineSrc) (face n : Nat) := (List.range n).map fun w => s.readPos v e c plane src face lq.1 lq.2 e.steps w
        let nall := rd north 1 (quadCols v.quads)
        ((if plane then e.steps * pp else e.steps * ls.length * pp + lq.2 * pp), rd west 0 rows, nall.take cols, nall.any (·.2))
      if plane then (ls.zip ops).foldl (fun s x => s.stepInto v c true e.steps x.1 rows cols [x.2]) s
      else s.stepInto v c false e.steps v.last rows cols ops

/-! ## The starts and completions of ops (08_cube R187) -/

/-- A partition may start ops. -/
def Part.runs (v : Part) : Bool := v.kind == .part && !v.err && !v.susp

/-- The first step of a compute op can enter, but for its lines and cycles: the earlier ops have entered theirs, and one
of another kind has completed. -/
def mayFollow (before : List QEntry) (op : Instr) : Bool :=
  let cs := before.filter fun e => isCompute e.op
  cs.all (·.entered) && match cs.getLast? with
    | some e => sameKind e.op op && !(match op with | .czro .. => true | _ => false)
    | none => true

def State.linesReady (s : State) (p : Nat) (e : QEntry) : Bool :=
  match asCmm e.op with
  | some (c, _) => (s.lineSrc p e c 0).ready e.steps && (s.lineSrc p e c 1).ready e.steps
  | none => true

/-- The rail that a partition's blocks run on is the one named. -/
def State.onRail (s : State) (v : Part) (hi : Bool) : Bool := v.blocks.all fun b => s.pow.lowBlk.contains b != hi

/-- The op with its read pointers, cursors and bank halves taken (08_cube R191, R193, R194). -/
def State.takeSources (s : State) (v : Part) (e : QEntry) : QEntry :=
  match asCmm e.op with
  | none => e
  | some (c, _) =>
    let rp (face : Nat) : Nat := match tfind v.rings (cmmSrc c face).1.toNat with
      | some r => r.rptr
      | none => 0
    { e with
      rpA := rp 0, rpB := rp 1, curA := v.curW, curB := v.curN
      halfs := v.blocks.flatMap fun b => [(2 * b, tget s.cube.half (2 * b) 0), (2 * b + 1, tget s.cube.half (2 * b + 1) 0)] }

/-- Read pointers and cursors advance as a compute op starts. -/
def Part.advanceSources (v : Part) (i : Instr) : Part :=
  match asCmm i with
  | Option.none => v
  | some (c, plane) =>
    let one (v : Part) (face : Nat) : Part :=
      let src := cmmSrc c face
      if src.1.toNat < 8 then
        if src.2 then v
        else { v with rings := v.rings.map fun x =>
          if x.1 = src.1.toNat then (x.1, { x.2 with rptr := x.2.rptr + cmmSlots c x.2.cfg }) else x }
      else
        let n := bankLines plane c * lineUnits face v.quads
        let m := nQuads v.quads * 12288
        if face = 0 then { v with curW := (v.curW + n) % m } else { v with curN := (v.curN + n) % m }
    one (one v 0) 1

/-- A hop of a partition's blocks begins (17_power R381), wherever its period stands. -/
def State.beginHop (s : State) (p : Nat) (hi : Bool) (who : Option Nat) : State :=
  (((s.partPeriod p).settleSlump (s.part p).blocks)).modPart p fun v =>
    { v with hop := some (s.core.beat + 26), hopHi := hi, hopWho := who }

/-- A compute op starts (08_cube R187), not while a self-test of a block of its partition waits or runs (18_platform R400). The
partition hops high if a hold has ended (17_power R383). -/
def State.computeOpStart (s : State) (p : Nat) : Option State :=
  let v := s.part p
  match v.next with
  | some (before, e) =>
    let e' := s.takeSources v e
    if v.runs && s.allPerformed e.uid e.seq && isCompute e.op && mayFollow before e.op && decide (0 < v.budget) && v.hop.isNone && s.linesReady p e' &&
        !v.blocks.any s.tested && !(before.any fun d => isDrain d.op && (opAccs v d.op).any (opAccs v e.op).contains) then
      let s1 := (s.modEntry p e.gid fun _ => { e' with started := true, begun := v.cyc }).modPart p (·.advanceSources e.op)
      some (if v.railHi && v.heldLow.isNone && !s.onRail v true then s1.beginHop p true none else s1)
    else none
  | none => none

/-- A step of a partition's compute op enters (08_cube R197). The errors supplied with it are met by its reads. -/
def State.computeStepEntry (s : State) (p : Nat) (er : StepErrs) : Option State :=
  let v := s.part p
  match v.queue.find? fun e => e.started && isCompute e.op && !e.entered with
  | some e =>
    if decide (0 < v.budget) && v.hop.isNone && s.linesReady p e then
      let own (b : Nat) : Bool := v.blocks.contains b
      let s1 := (er.face.filter fun a => decide (area a = .face) && own (4 * faceLayer a + a / 2 ^ 20 % 4)).foldl
        (fun s a => s.lostLine (spadBase + a) (a / 64 * 64) 3 (.block (4 * faceLayer a + a / 2 ^ 20 % 4))) s
      let s2 := s1.bankReads (er.bank.filter fun x => own (64 * x.1 / (4 * bankPart)))
      let s3 := s2.2.foldl (fun t x => t.putBankLine x.1 x.2) (s2.1.computeStep p e)
      let s4 := s3.parityErrors v er.parity
      some ((s4.modEntry p e.gid fun e => { e with steps := e.steps + 1, lastAt := v.cyc }).pass p 1)
    else none
  | none => none

/-- The slots of a completed op that did not retain them are free. -/
def Part.freeSlots (v : Part) (i : Instr) : Part :=
  match asCmm i with
  | Option.none => v
  | some (c, _) =>
    let one (v : Part) (face : Nat) : Part :=
      let src := cmmSrc c face
      if src.1.toNat < 8 && !src.2 then
        { v with rings := v.rings.map fun x =>
          if x.1 = src.1.toNat then
            let n := cmmSlots c x.2.cfg
            (x.1, { x.2 with fill := x.2.fill - n, head := (x.2.head + n) % x.2.cfg.slots.toNat })
          else x }
      else v
    one (one v 0) 1

/-- The undrained bits of a partition's accumulators (08_cube R199). -/
def State.setUndr (s : State) (v : Part) (accs : List Nat) (b : Bool) : State :=
  { s with cube := { s.cube with undr := accs.foldl (fun u k => (quadList v.quads).foldl
      (fun u q => sset u (2 * (4 * (k / 2) + q) + k % 2) b) u) s.cube.undr } }

/-- A compute op completes (08_cube R197, R196). -/
def State.computeOpComplete (s : State) (p : Nat) : Option State :=
  let v := s.part p
  match v.queue.find? fun e => e.started && isCompute e.op with
  | some e =>
    match opSteps e.op with
    | some (_, f) =>
      if e.entered && v.reach (e.lastAt + 1 + f) then
        let flag := match asCmm e.op with
          | some (c, _) => c.cflag.toNat
          | none => 0
        let s1 := ((s.passTo p (e.lastAt + 1 + f)).modPart p (·.freeSlots e.op)).setUndr v (opAccs v e.op) (asCmm e.op).isSome
        some (s1.finish p e.gid flag).testsBegin
      else none
    | none => none
  | none => none

/-- A drain starts: the compute ops on its accumulator and every earlier drain have completed, and a slot is free
(08_cube R187). -/
def State.cdrnStart (s : State) (p : Nat) : Option State :=
  let v := s.part p
  match v.next with
  | some (before, e) =>
    match e.op with
    | .cdrn c =>
      let space := match tfind v.rings c.ring.toNat with
        | some r => decide (r.fill < r.cfg.slots.toNat)
        | none => false
      if v.runs && s.allPerformed e.uid e.seq && space && !(before.any fun x => isDrain x.op ||
          (isCompute x.op && (opAccs v x.op).any (opAccs v e.op).contains)) then
        some (s.modEntry p e.gid fun e => { e with started := true, begun := v.cyc })
      else none
    | _ => none
  | none => none

/-- An element as a drain writes it (08_cube R201). -/
def drainElem (c : CdrnOp) (srs src : BitVec 32) (x : Lane) (a b : Nat) : Nat :=
  let fd (f : Fmt) : Nat :=
    (f.round (fF32.val x.toNat) ((Rnd.ofCode c.rnd).getD .rne) c.sat (srBits srs src (4096 * a + b) 0)).1
  let z : Int := if c.shift = 0 then x.toInt else (x.toInt + 2 ^ (c.shift.toNat - 1)) / 2 ^ c.shift.toNat
  match c.dfmt.toNat with
  | 0 => fd fF32
  | 1 => fd fBF16
  | 2 => fd fF16
  | 3 => fd fE4M3
  | 4 => fd fE5M2
  | 5 => narrow z true 32 c.sat
  | 6 => narrow z true 16 c.sat
  | 7 => narrow z true 8 c.sat
  | _ => narrow z false 8 c.sat

/-- The elements of D in row-major order, each with its mark. -/
def State.drained (s : State) (v : Part) (e : QEntry) (c : CdrnOp) : List (Nat × Bool) :=
  let rows := drainRows c v.quads e.org
  let cols := drainCols c v.quads e.org
  let get (y x a b : Nat) : Nat × Bool :=
    (drainElem c e.srs e.src (tget s.cube.acc (accKey (cellBlock v.quads c.dlay.toNat y x) c.acc.toNat (y % 256) + x % 256) 0) a b,
     s.rowMark v.quads c.dlay.toNat c.acc.toNat y)
  if c.east then (List.range cols).flatMap fun a => (List.range rows).map fun b => get b a a b
  else (List.range rows).flatMap fun a => (List.range cols).map fun b => get a b a b

/-- Chunks of `n`. -/
def chunks {α : Type} (n : Nat) : Nat → List α → List (List α)
  | 0, _ => []
  | k + 1, l => if l.isEmpty then [] else l.take n :: chunks n k (l.drop n)

/-- Write a drained matrix from an area offset of a face: each 64-byte line that holds an element of a marked row is
written poisoned (08_cube R205). -/
def State.writeDrain (s : State) (q : BitVec 4) (l face ofs n : Nat) (es : List (Nat × Bool)) : State :=
  (chunks (64 / n) (es.length + 1) es).zipIdx.foldl (fun s x =>
    s.locWrite (spadBase + faceAddr q l face (ofs + 64 * x.2)) (x.1.flatMap fun y => leBytes n y.1) (x.1.any (·.2))) s

/-- A drain completes (08_cube R201). It reads its accumulator now (DESIGN CHOICE, log 46), meeting the parity errors
supplied; its words do not cross while a droop of its blocks lasts (17_power R384). -/
def State.cdrnComplete (s0 : State) (p : Nat) (er : StepErrs) : Option State :=
  let s := s0.parityErrors (s0.part p) er.parity
  let v := s.part p
  match v.queue.find? fun e => e.started && isDrain e.op with
  | some e =>
    match e.op with
    | .cdrn c =>
      let rows := drainRows c v.quads e.org
      let cols := drainCols c v.quads e.org
      let t := e.begun + (if c.east then cols else rows) + 32
      match tfind v.rings c.ring.toNat with
      | some r =>
        if v.reach t && !(v.blocks.any s.droops) then
          let s1 := (s.passTo p t).writeDrain v.quads c.dlay.toNat r.cfg.face.toNat (slotOfs v.quads r.cfg r.tail)
            (drainBytes c.dfmt) (s.drained v e c)
          let s2 := s1.modRing p c.ring.toNat fun r =>
            { r with fill := r.fill + 1, counted := r.counted + 1, tail := (r.tail + 1) % r.cfg.slots.toNat }
          some ((s2.setUndr v (opAccs v e.op) false).finish p e.gid c.cflag.toNat)
        else none
      | none => none
    | _ => none
  | none => none

/-- The next op of a partition that may start ops, once its context's earlier accesses have performed (15_ordering R356). -/
def State.ready (s : State) (p : Nat) : Option (List QEntry × QEntry) :=
  if (s.part p).runs then
    match (s.part p).next with
    | some n => if s.allPerformed n.2.uid n.2.seq then some n else none
    | none => none
  else none

/-- A copy to the bank of a face that was issued before `seq`, tagged with a partition's taken count, has not ended
(08_cube R194): the counts restart with a CPART, so one issued later bears a tag of its own shape (11_copy R269). -/
def State.taggedCopies (s : State) (p face tk seq : Nat) : Bool :=
  s.copy.queues.any fun q => q.2.any fun d => decide (d.seq < seq) && match d.dst with
    | .bank _ _ north _ => (north == (face == 1)) && d.swaps.contains (p, tk)
    | _ => false

/-- The bank of a face: every earlier op that reads it has let its last step enter. -/
def bankFree (before : List QEntry) (face : Nat) : Bool := before.all fun e => !readsBank e.op face || e.entered

/-- CSWP starts (08_cube R194). -/
def State.cswpStart (s : State) (p : Nat) : Option State :=
  match s.ready p with
  | some (before, e) =>
    match e.op with
    | .cswp _ _ n w =>
      let v := s.part p
      let faces := (if w then [0] else []) ++ if n then [1] else []
      if faces.all fun f => bankFree before f && !s.taggedCopies p f (if f = 0 then v.tkW else v.tkN) e.seq then
        let s1 := { s with cube := { s.cube with half := faces.foldl (fun t f => v.blocks.foldl
          (fun t b => tput t (2 * b + f) (1 - tget t (2 * b + f) 0) 0) t) s.cube.half } }
        some ((s1.modPart p fun v => { v with
          curW := if w then 0 else v.curW, curN := if n then 0 else v.curN,
          tkW := v.tkW + w.toNat, tkN := v.tkN + n.toNat }).finish p e.gid 0)
      else none
    | _ => none
  | none => none

/-- CCUR starts (08_cube R193). -/
def State.ccurStart (s : State) (p : Nat) : Option State :=
  match s.ready p with
  | some (before, e) =>
    match e.op with
    | .ccur _ _ north cur =>
      if bankFree before north.toNat then
        some ((s.modPart p fun v => if north then { v with curN := cur.toNat } else { v with curW := cur.toNat }).finish p e.gid 0)
      else none
    | _ => none
  | none => none

/-- A copy to a ring of a partition that was issued before `seq` has not ended (08_cube R187). -/
def State.ringCopies (s : State) (p ring seq : Nat) : Bool :=
  s.copy.queues.any fun q => q.2.any fun d => decide (d.seq < seq) && match d.dst with
    | .slot _ r => r == ring && d.gens.any fun g => g.1 == p
    | _ => false

/-- A RADV of a ring that issued before `seq` has not acted. -/
def State.ringAdvances (s : State) (p ring seq : Nat) : Bool :=
  s.cube.radvs.any fun r => decide (r.seq < seq) && r.ring == ring && r.ids.contains p

/-- CRING starts: the new configuration discards the ring's contents (08_cube R189, R190). -/
def State.cringStart (s : State) (p : Nat) : Option State :=
  match s.ready p with
  | some (before, e) =>
    match e.op with
    | .cring _ _ r =>
      let k := r.ring.toNat
      if !(before.any fun x => usesRing x.op k) && !s.ringCopies p k e.seq && !s.ringAdvances p k e.seq then
        let new : Ring := { cfg := r, gen := e.gid + 1, fill := 0, head := 0, tail := 0, rptr := 0, counted := 0, claims := [] }
        some ((s.modPart p fun v =>
          { v with rings := if r.slots = 0 then tdel v.rings k else tins v.rings k new }).finish p e.gid 0)
      else none
    | _ => none
  | none => none

/-- CSIG starts (08_cube R202). -/
def State.csigStart (s : State) (p : Nat) : Option State :=
  match s.ready p with
  | some (before, e) =>
    match e.op with
    | .csig _ _ f => if before = [] then some (s.finish p e.gid f.toNat) else none
    | _ => none
  | none => none

/-- CRAIL starts (08_cube R203): the request changes; the blocks hop unless they are on that rail or held low
(17_power R383). Behind a hop in progress its own follows (DEDUCED, log 47). -/
def State.crailStart (s : State) (p : Nat) : Option State :=
  match s.ready p with
  | some (before, e) =>
    match e.op with
    | .crail _ _ hi =>
      let v := s.part p
      if before.all (fun x => !isCompute x.op) then
        let s1 := s.modPart p fun v => { v with railHi := hi }
        if v.hop.isSome then some (s1.modEntry p e.gid fun e => { e with started := true })
        else if s.onRail v hi || v.heldLow.isSome then some (s1.finish p e.gid 0)
        else some ((s1.modEntry p e.gid fun e => { e with started := true }).beginHop p hi (some e.gid))
      else none
    | _ => none
  | none => none

/-! ## The error state (08_cube R206, 09_partitions R218) -/

/-- The job of a context. -/
def State.jobOf (s : State) (uid : Nat) : Option Job := s.sched.jobs.find? fun j => j.uid == some uid

def State.notifyUid (s : State) (uid code : Nat) (detail : List Nat) : State :=
  match s.jobOf uid with
  | some j => s.notify j code ((detail ++ List.replicate 7 0).take 7 |>.map fun d => BitVec.ofNat 8 d)
  | none => s

/-- The id that a reshape op names in `PART`. -/
def reshapeId : Instr → Nat
  | .cpart c => c.part.toNat
  | .cjoin _ p .. | .csplit _ p .. | .cfree _ p .. => p.toNat
  | _ => 0

/-- Every id that a reshape names: its affected ids, and the id in its `PART`. -/
def Reshape.allIds (r : Reshape) : List Nat := r.ids ++ [reshapeId r.op]

/-- The ids that a reshape would create: `NA` and `NB` outside its sources, and the chain id of a CJOIN. -/
def Reshape.made (r : Reshape) : List Nat :=
  match r.op with
  | .cpart c => (cpartNew c).filter fun k => !(idsOf c.srcm).contains k
  | .cjoin _ p .. => [p.toNat]
  | _ => []

/-- An id of an error, with its cause: the id as it stands, or, with the number of a discarded reshape, the id as that reshape
would have made it. -/
structure ErrId where
  id    : Nat
  cause : Nat
  since : Nat
  deriving DecidableEq, Repr

/-- A reshape that some errors keep from taking effect: it names an id as it stands, or one that an earlier op of those
discarded would have made. -/
def Reshape.struck (r : Reshape) (l : List ErrId) : Bool := l.any fun e => decide (e.since < r.gid) && r.allIds.contains e.id

/-- The ids that enter the error state with some ids: members of their chains, and the ids of a reshape that cannot take
effect. -/
def State.errorSet (s : State) : Nat → List ErrId → List ErrId
  | 0, l => l
  | n + 1, l =>
    let chain := l.flatMap fun e => match (if e.since = 0 then (s.part e.id).chain else none) with
      | some c => ⟨c, 4, 0⟩ :: (s.part c).members.map fun k => ⟨k, 4, 0⟩
      | none => []
    let resh := (s.cube.resh.filter (·.struck l)).flatMap fun r =>
      ((r.allIds.filter fun k => !r.made.contains k).map fun k => ⟨k, 3, 0⟩) ++ r.made.map fun k => ⟨k, 3, r.gid⟩
    let known (a : List ErrId) (e : ErrId) : Bool := a.any fun x => x.id == e.id && (x.since == 0 || e.since != 0)
    let all := (chain ++ resh).foldl (fun a e => if known a e then a else a ++ [e]) l
    if all.length = l.length then l else s.errorSet n all

/-- The half that will be active in some blocks is the one that is: no CSWP of theirs is queued any more. -/
def State.syncHalves (s : State) (bs : List Nat) : State :=
  let keys := bs.flatMap fun b => [2 * b, 2 * b + 1]
  { s with cube := { s.cube with halfT := keys.foldl (fun t k => tput t k (tget s.cube.half k 0) 0) s.cube.halfT } }

/-- One id enters the error state: its queue is emptied, its rows are marked, and its job is told unless it was in it. A
chain id is in it by its members (09_partitions R214). -/
def State.errorOne (s0 : State) (p cause blk owner bank : Nat) : State :=
  let s := { s0 with cube := { s0.cube with errNext := tdel s0.cube.errNext p } }
  let v := s.part p
  if v.kind = .chain then s
  else
    let s1 := s.setPart p { v with
      kind := .part, uid := if v.kind = .none then owner else v.uid,
      bank := if v.kind = .none then bank else v.bank, err := true, queue := [], hopWho := none }
    let s2 := (v.blocks.foldl State.markAcc s1).syncHalves v.blocks
    let s3 := v.queue.foldl (fun s e => s.quietOne p e.gid) s2
    if v.err then s3 else s3.notifyUid (s3.part p).uid 0x83 [p, cause, if cause = 0 then blk else 0]

/-- The id that a discarded reshape would have created enters the error state. It holds no block (09_partitions R218), so it
is none of what the id may stand for while an earlier reshape is still to dissolve that: the ops queued for it behind are
discarded, and the id is in error once that reshape has taken effect (DESIGN CHOICE, log 98). -/
def State.errorAhead (s : State) (e : ErrId) (uid bank : Nat) : State :=
  let s1 := s.modPart e.id fun v => { v with queue := v.queue.filter fun x => decide (x.gid < e.since) }
  let s2 : State := { s1 with cube := { s1.cube with errNext := tins s1.cube.errNext e.id (uid, bank, e.since) } }
  s2.notifyUid uid 0x83 [e.id, e.cause, 0]

/-- The ids in error that were still to be made and that nothing stands for any more are made: each is owned and holds no
block. -/
def State.settleErrors (s : State) : State :=
  s.cube.errNext.foldl (fun s e =>
    if (s.part e.1).kind = .none ∧ !(s.cube.resh.any fun r => decide (r.gid < e.2.2.2) && r.allIds.contains e.1) then
      let s1 := s.modPart e.1 fun v =>
        { Part.none with kind := .part, uid := e.2.1, bank := e.2.2.1, err := true, queue := v.queue }
      { s1 with cube := { s1.cube with errNext := tdel s1.cube.errNext e.1 } }
    else s) s

/-- Partition `p` enters the error state. An id that is in it already, and that a discarded reshape names, enters it again:
what stands in its queue, a CFREE among it, is discarded with the reshape, and its job hears nothing new (09_partitions R218;
DEDUCED, log 98). -/
def State.enterError (s : State) (p cause blk : Nat) : State :=
  if (s.part p).err then s
  else
    let l := s.errorSet 64 [⟨p, cause, 0⟩]
    let dead := s.cube.resh.filter (·.struck l)
    let live := l.filter fun e => e.since == 0
    let ahead := l.filter fun e => e.since != 0 && !live.any fun x => x.id == e.id
    let who (k : Nat) : Nat × Nat := match dead.find? fun r => r.allIds.contains k with
      | some r => (r.uid, r.bank)
      | none => (0, 0)
    let s1 := live.foldl (fun t e => t.errorOne e.id e.cause blk (who e.id).1 (who e.id).2) s
    let s2 := { s1 with cube := { s1.cube with resh := s1.cube.resh.filter fun r => !r.struck l } }
    let s3 := ahead.foldl (fun t e => t.errorAhead e (who e.id).1 (who e.id).2) s2
    -- the tail view of what was discarded is the state as it stands
    let s4 := (live.map (·.id) ++ dead.map fun r => reshapeId r.op).foldl (fun t k => t.setTail k (t.partView k)) s3
    (ahead.foldl (fun t e => t.setTail e.id { TailP.zero with kind := .part, uid := (who e.id).1, err := true }) s4).settleErrors.testsBegin

/-- CWAIT starts: its flag is nonzero, or a mark puts the partition in the error state (08_cube R202). -/
def State.cwaitStart (s : State) (p : Nat) : Option State :=
  match s.ready p with
  | some (_, e) =>
    match e.op with
    | .cwait _ _ f =>
      let w := s.flagNow f.toNat
      if w.mark then some (s.enterError p 2 0) else if w.val != 0 then some (s.finish p e.gid 0) else none
    | _ => none
  | none => none

/-! ## CQRY records (09_partitions R224) -/

/-- The 32 bytes of a record of id `k` and ring `ring`, for the context `uid`. The owning bank of an id whose context is away in
memory is the one its partition was made under (DESIGN CHOICE, log 125). -/
def State.qryBytes (s : State) (uid k ring : Nat) : List Byte :=
  let v := s.part k
  let m := if v.kind = .chain then s.part (v.members.headD 0) else v
  let pst := s.pstFor uid k
  let r := tfind m.rings ring
  let rn (f : Ring → Nat) : Nat := match r with
    | some x => f x
    | none => 0
  let cfgBits (x : Ring) : Nat := (packed [(x.cfg.ring.toNat, 49), (x.cfg.face.toNat, 47), (x.cfg.plane.toNat, 46),
    (x.cfg.gp.toNat, 44), (x.cfg.mx.toNat, 43), (x.cfg.slots.toNat, 35), (x.cfg.sk.toNat, 23), (x.cfg.base.toNat, 12),
    (x.cfg.lmask.toNat, 0)]).toNat
  let undr := if m.kind = .part ∧ m.quads ≠ 0 then bitsNat (s.undrBits m.first m.last m.quads) else 0
  let pos := match v.chain with
    | some c => (s.part c).members.idxOf k
    | none => 0
  let bank := (s.bankOf v.uid v.bank).getD v.bank
  leBytes 4 (pst.toNat % 2 ^ 32) ++ leBytes 4 m.skip.toNat ++ leBytes 2 m.curW ++ leBytes 2 m.curN ++
  leBytes 1 m.issW ++ leBytes 1 m.tkW ++ leBytes 1 m.issN ++ leBytes 1 m.tkN ++
  leBytes 1 (rn (·.fill)) ++ leBytes 1 (rn (·.head)) ++ leBytes 1 (rn (·.tail)) ++
  leBytes 1 (rn fun x => if ringIn x.cfg then x.rptr % x.cfg.slots.toNat else 0) ++ leBytes 8 (rn cfgBits) ++
  leBytes 3 undr ++ leBytes 1 (if v.kind = .none then 0 else 16 * bank + 8 + pos)

/-- Write the record of a CQRY and its flag. -/
def State.writeQry (s : State) (uid : Nat) (op : Instr) : State × Nat :=
  match op with
  | .cqry _ part ring qaddr _ f =>
    (s.locWrite (spadBase + qaddr.toNat * 32) (s.qryBytes uid part.toNat ring.toNat) false, f.toNat)
  | _ => (s, 0)

/-- The core touches the region of a CQRY's record in this beat, in which the record waits (10_memory R227). -/
def State.qryBarred (s : State) (op : Instr) : Bool :=
  match op with
  | .cqry _ _ _ qaddr _ _ => s.touchedNow (regionOf (qaddr.toNat * 32))
  | _ => false

/-- A CQRY that reports at once writes its record once the older accesses of its context have performed; till then it
keeps the state it has seen (15_ordering R351, R353). -/
def State.cqryNow (s : State) (q : QryE) : Option State :=
  if s.allPerformed q.uid q.seq && !s.qryBarred q.op then
    let s1 : State := { s with cube := { s.cube with qrys := s.cube.qrys.filter fun x => x.gid != q.gid } }
    some (match q.op, q.seen with
      | .cqry _ _ _ qaddr _ f, some bs => (s1.locWrite (spadBase + qaddr.toNat * 32) bs false).completeFlag f.toNat
      | _, _ => let r := s1.writeQry q.uid q.op; r.1.completeFlag r.2)
  else match q.op, q.seen with
    | .cqry _ part ring .., none => some { s with cube := { s.cube with qrys := s.cube.qrys.map fun x =>
        if x.gid = q.gid then { x with seen := some (s.qryBytes q.uid part.toNat ring.toNat) } else x } }
    | _, _ => none

/-- A CQRY reports: one that reports at once, or a queued one at the head of every queue it stands in. -/
def State.cqryRecord (s : State) (gid : Nat) : Option State :=
  match s.cube.qrys.find? fun q => q.gid == gid with
  | some q => s.cqryNow q
  | none =>
    let ids := (List.range 16).filter fun p => (s.part p).queue.any (·.gid == gid)
    let head := ids.all fun p => !(s.part p).susp && match (s.part p).queue.head? with
      | some e => e.gid == gid
      | none => false
    match ids with
    | [] => none
    | p :: _ =>
      match (s.part p).queue.head? with
      | some e =>
        match e.op with
        | .cqry .. =>
          if head && s.allPerformed e.uid e.seq && !s.qryBarred e.op then
            let r := s.writeQry e.uid e.op
            some (ids.foldl (fun t q => t.finish q gid r.2) r.1)
          else none
        | _ => none
      | none => none

/-! ## Reshapes (09_partitions R216 to R221) -/

/-- Copies that name an affected id and were issued before a reshape have ended (09_partitions R217). -/
def State.copiesDone (s : State) (ids : List Nat) (seq : Nat) : Bool :=
  !(s.copy.queues.any fun q => q.2.any fun d => decide (d.seq < seq) &&
    ((d.swaps.any fun x => ids.contains x.1) || d.gens.any fun x => ids.contains x.1))

/-- A query of a partition. -/
def isQuery : Instr → Bool
  | .cqry .. => true
  | _ => false

/-- The ids that a reshape creates, and the id in its `PART`, are as the reshapes issued before it leave them: none of those
is still to take effect, and an id to be created is unallocated, since an id is in one condition at a time (09_partitions
R209; R217 does not name the id of a chain, which has no queue: DESIGN CHOICE, log 111). -/
def State.idsReady (s : State) (r : Reshape) : Bool :=
  (r.made ++ [reshapeId r.op]).all (fun k => !s.cube.resh.any fun x => decide (x.gid < r.gid) && x.allIds.contains k) &&
  r.made.all fun k => (s.part k).kind == .none

/-- The conditions of a reshape hold (09_partitions R217, R221): for the CFREE of an id in the error state, neither a
suspension nor a CQRY ahead of it counts. -/
def State.reshapeMet (s : State) (r : Reshape) : Bool :=
  let free := s.errorFree r
  s.idsReady r && s.copiesDone r.ids r.seq &&
  (r.ids.all fun p => match (s.part p).queue.dropWhile fun e => free && isQuery e.op with
    | e :: _ => e.gid == r.gid
    | [] => false) &&
  (free || r.ids.all fun p => !(s.part p).susp)

/-- A reshape's last condition is met: it stands at rendezvous. -/
def State.rendezvous (s : State) (gid : Nat) : Option State :=
  match s.cube.resh.find? fun r => r.gid == gid with
  | some r =>
    if r.met.isNone && s.reshapeMet r then
      some { s with cube := { s.cube with resh := s.cube.resh.map fun x =>
        if x.gid = gid then { x with met := some s.core.beat } else x } }
    else none
  | none => none

/-- The rail that CPART leaves its new partitions on: as any source requests, unless a block of the box is held low. -/
def State.cpartHigh (s : State) (c : CpartOp) : Bool := (idsOf c.srcm).any fun q => (s.part q).railHi

/-- The end of the hold of a box's blocks. -/
def State.heldUntil (s : State) (blks : List Nat) : Option Nat :=
  blks.foldl (fun m b => match s.partOfBlock b with
    | some p => match (s.part p).heldLow, m with
      | some t, some u => some (max t u)
      | some t, none => some t
      | none, m => m
    | none => m) none

/-- Blocks of a new box change rail as a CPART takes effect. -/
def State.boxHops (s : State) (c : CpartOp) (bs : List Nat) : Bool :=
  let hi := s.cpartHigh c && (s.heldUntil bs).isNone
  bs.any fun b => s.pow.lowBlk.contains b == hi

/-- Blocks change rail as a reshape takes effect. -/
def State.reshapeHops (s : State) (i : Instr) : Bool :=
  match i with
  | .cpart c => (cpartBoxes c).any fun x => s.boxHops c (blocksOf x.1 x.2.1 x.2.2)
  | _ => false

/-- Thirteenths of a cycle of its own clock that a block runs in a beat (00_scope R3). -/
def State.blockRate (s : State) (b : Nat) : Nat := if s.pow.lowBlk.contains b then 9 else 13

/-- What a block's self-test has run, in thirteenths of a cycle. That the clock of the old rail runs on through the 26 beats
of a hop is a DESIGN CHOICE (log 87): the spec stops the entry of steps there and speaks of no clock that stands. -/
def State.testRun (s : State) (t : TestE) (b : Nat) : Nat := t.done + s.blockRate b * (s.core.beat - t.start)

/-- Blocks put on a rail. -/
def State.putRail (s : State) (bs : List Nat) (hi : Bool) : State :=
  let turn (t : TestE) : TestE := match t.unit with
    | .block b => if bs.contains b then { t with start := s.core.beat, done := s.testRun t b } else t
    | _ => t
  { s with
    pow := { s.pow with lowBlk := bs.foldl (fun t b => sset t b (!hi)) s.pow.lowBlk }
    plat := { s.plat with tests := s.plat.tests.map turn } }

/-- The blocks of an id that goes keep their hold (17_power R383). -/
def State.keepHold (s : State) (p : Nat) : State :=
  match (s.part p).heldLow with
  | some t => { s with pow := { s.pow with held := (s.part p).blocks.foldl (fun h b => tins h b t) s.pow.held } }
  | none => s

/-- The end of the hold of blocks that no partition has. -/
def State.freeHold (s : State) (blks : List Nat) : Option Nat :=
  let ts := (blks.map fun b => tget s.pow.held b 0).filter fun t => decide (s.core.beat < t)
  if ts = [] then none else some (ts.foldl max 0)

/-- The blocks of an id leave it: their hold and their slump counts are kept. -/
def State.leave (s : State) (p : Nat) : State :=
  let s1 := if (s.part p).blocks.any s.droops then s.partPeriod p else s
  (s1.keepHold p).settleSlump (s.part p).blocks

/-- Release an id: the entries of its queue stay, for the ids that later reshapes make of it. -/
def State.release (s : State) (p : Nat) : State := (s.leave p).modPart p fun v => { Part.none with queue := v.queue }

/-- A CPART takes effect: its two boxes (09_partitions R219, R220). -/
def State.doCpart (s : State) (c : CpartOp) (r : Reshape) : State :=
  let srcs := idsOf c.srcm
  let hi := s.cpartHigh c
  let boxes := (cpartNew c).zip (cpartBoxes c)
  let held := boxes.map fun x =>
    let bs := blocksOf x.2.1 x.2.2.1 x.2.2.2
    if s.boxHops c bs ∧ bs.any r.low.contains then some (s.core.beat + 4096) else s.heldUntil bs
  let s1 := srcs.foldl State.release s
  (boxes.zip held).foldl (fun s x =>
    let p := x.1.1
    let bs := blocksOf x.1.2.1 x.1.2.2.1 x.1.2.2.2
    let hold := x.2
    let count (f : Instr → Nat) (q : List QEntry) : Nat := (q.map fun e => f e.op).foldl (· + ·) 0
    let w : Instr → Nat := fun i => match i with
      | .cswp _ _ _ w => w.toNat
      | _ => 0
    let n : Instr → Nat := fun i => match i with
      | .cswp _ _ n _ => n.toNat
      | _ => 0
    (s.modPart p fun v => { Part.none with
      queue := v.queue, kind := .part, bank := r.bank, uid := r.uid, first := x.1.2.1, last := x.1.2.2.1,
      quads := x.1.2.2.2, railHi := hi, heldLow := hold, issW := count w v.queue, issN := count n v.queue }).putRail bs
      (hi && hold.isNone)) s1

/-- A reshape takes effect (09_partitions R217 to R221). -/
def State.reshapeEffect (s : State) (gid : Nat) : Option State :=
  match s.cube.resh.find? fun r => r.gid == gid with
  | some r =>
    match r.met with
    | some t =>
      if t + 32 + (if s.reshapeHops r.op then 26 else 0) ≤ s.core.beat then
        let s0 := { s with cube := { s.cube with resh := s.cube.resh.filter fun x => x.gid != gid } }
        let zero (s : State) (dsc : Bool) : State :=
          if dsc then (r.ids.flatMap fun p => (s.part p).blocks).foldl State.zeroAcc s else s
        let done (s : State) (f : FlagIx) : State :=
          (r.ids.foldl (fun s p => s.modPart p fun v => { v with queue := v.queue.filter (·.gid != gid) }) s).releaseFlag r.uid r.bank r.seq f.toNat
        some (State.settleErrors (match r.op with
          | .cpart c => done ((zero s0 c.dsc).doCpart c r) c.cflag
          | .cjoin _ part shape m0 m1 m2 m3 dsc f =>
            let ms := cjoinMembers shape m0 m1 m2 m3
            let s1 := ms.foldl (fun s q => s.modPart q fun v => { v with chain := some part.toNat }) (zero s0 dsc)
            done (s1.modPart part.toNat fun v =>
              { v with kind := .chain, bank := r.bank, uid := r.uid, members := ms, shape := shape }) f
          | .csplit _ part dsc f =>
            let s1 := r.ids.foldl (fun s q => s.modPart q fun v => { v with chain := none }) (zero s0 dsc)
            done (s1.release part.toNat) f
          | .cfree _ part dsc f => done ((r.ids.foldl State.release (zero s0 dsc)).release part.toNat) f
          | _ => s0))
      else none
    | none => none
  | none => none

/-- An id of an ended context is freed once its queue, or those of its chain, are empty, as a CFREE with `DSC` = 1 would free
it: suspension does not hold one in the error state (09_partitions R221, R222), and a hop in progress ends first (17_power
R381; DEDUCED, log 100). -/
def State.freeId (s : State) (p : Nat) : Option State :=
  let v := s.part p
  let ids := s.membersOf p
  let ended := match s.bankOf v.uid v.bank with
    | some b => (s.ctx b).ended.isSome
    | none => match s.jobOf v.uid with
      | some j => j.final.isSome
      | none => true
  if v.kind ≠ .none && ended && v.chain.isNone &&
      (((p :: ids).any fun q => (s.part q).err) || ids.all fun q => !(s.part q).susp) &&
      (ids.all fun q => (s.part q).queue.isEmpty && (s.part q).hop.isNone) && s.copiesDone ids s.seq then
    let s1 := (ids.flatMap fun q => (s.part q).blocks).foldl State.zeroAcc s
    let free (t : State) (q : Nat) : State :=
      let t1 := (t.leave q).setPart q Part.none
      if (tfind t1.cube.errNext q).isSome then t1 else t1.setTail q TailP.zero
    some ((p :: ids).foldl free s1).settleErrors
  else none

/-! ## Hops, droops and the damper's periods (17_power R381 to R384, R389) -/

/-- The CRAILs that have started and whose hop has not: the oldest hops next, or completes if nothing is to hop. -/
def State.railNext (s : State) (p : Nat) : Nat → State
  | 0 => s
  | n + 1 =>
    match (s.part p).queue.find? fun e => e.started && match e.op with
        | .crail .. => true
        | _ => false with
    | some e => match e.op with
      | .crail _ _ hi =>
        if s.onRail (s.part p) hi || (s.part p).heldLow.isSome then (s.finish p e.gid 0).railNext p n
        else s.beginHop p hi (some e.gid)
      | _ => s
    | none => s

/-- A hop ends: the blocks run on the new rail, and the period restarts, with no cycle of it skipped yet. -/
def State.hopEnd (s0 : State) (p : Nat) : Option State :=
  let v := s0.part p
  match v.hop with
  | some t =>
    if t ≤ s0.core.beat then
      let s := s0.settleSlump v.blocks
      let s1 := (s.setPart p { v with hop := none, hopWho := none, budget := 0, step := 0 }).putRail v.blocks v.hopHi
      some ((match v.hopWho with
        | some g => s1.finish p g 0
        | none => s1).railNext p 64)
    else none
  | none => none

/-- The supply of a block falls: a hop in progress goes to the low rail, and the partition is held low. -/
def State.droopBegin (s : State) (blk : Nat) : Option State :=
  if blk < 48 ∧ !s.droops blk then
    let s0 := s.partNow blk
    let s1 := { s0 with pow := { s0.pow with droop := tins s0.pow.droop blk s.core.beat } }
    let s2 := match s1.partOfBlock blk with
      | some p => s1.modPart p fun v => match v.hop with
        | some t => { v with hopHi := false, heldLow := some (t + 4096) }
        | none => v
      | none => s1
    let hopping (r : Reshape) : Bool := (match r.met with
      | some t => decide (t + 32 ≤ s.core.beat)
      | none => false) && s.reshapeHops r.op && r.ids.any fun p => (s.part p).blocks.contains blk
    some { s2 with cube := { s2.cube with resh := s2.cube.resh.map fun r => if hopping r then { r with low := sadd r.low blk } else r } }
  else none

/-- A droop clears. -/
def State.droopClear (s : State) (blk : Nat) : Option State :=
  if s.droops blk then
    let s1 := (s.partNow blk).settleSlump [blk]
    some { s1 with pow := { s1.pow with droop := tdel s1.pow.droop blk } }
  else none

/-- A hold ends (17_power R383): that of a partition, or, from 16 upward, that of a block that no partition has. -/
def State.holdEnd (s : State) (p : Nat) : Option State :=
  match (s.part p).heldLow with
  | some t => if t ≤ s.core.beat then some (s.modPart p fun v => { v with heldLow := none }) else none
  | none =>
    match (if 16 ≤ p then tfind s.pow.held (p - 16) else none) with
    | some t => if t ≤ s.core.beat then some { s with pow := { s.pow with held := tdel s.pow.held (p - 16) } } else none
    | none => none

/-- A partition begins a period of 16 cube cycles, of which the damper skips the last `step` (17_power R389): those of
the period before have now been skipped. -/
def State.damperPeriod (s : State) (p : Nat) : Option State :=
  let v := s.part p
  if v.kind = .part ∧ v.hop = none then
    let step := ((List.range (v.last + 1 - v.first)).map fun i => tget s.pow.steps (v.first + i) 0).foldl Nat.max 0
    let s1 := (s.pass p v.budget).stretch v.blocks v.step
    some (s1.modPart p fun w => { w with budget := 16 - step, step := step, skip := w.skip + BitVec.ofNat 32 v.step })
  else none

/-! ## The events -/

def execComputeOpStart (s : State) : Res := s.event ((argId s.arg).bind s.computeOpStart)

def execComputeStepEntry (s : State) : Res :=
  s.event (match s.arg with
    | .step p er => s.computeStepEntry p er
    | _ => none)

def execComputeOpComplete (s : State) : Res := s.event ((argId s.arg).bind s.computeOpComplete)
def execCdrnStart (s : State) : Res := s.event ((argId s.arg).bind s.cdrnStart)

def execCdrnComplete (s : State) : Res :=
  s.event (match s.arg with
    | .id p => s.cdrnComplete p ⟨[], [], []⟩
    | .step p er => s.cdrnComplete p er
    | _ => none)

def execCswpStart (s : State) : Res := s.event ((argId s.arg).bind s.cswpStart)
def execCcurStart (s : State) : Res := s.event ((argId s.arg).bind s.ccurStart)
def execCringStart (s : State) : Res := s.event ((argId s.arg).bind s.cringStart)
def execCwaitStart (s : State) : Res := s.event ((argId s.arg).bind s.cwaitStart)
def execCsigStart (s : State) : Res := s.event ((argId s.arg).bind s.csigStart)
def execCrailStart (s : State) : Res := s.event ((argId s.arg).bind s.crailStart)
def execCqryRecordWritten (s : State) : Res := s.event ((argId s.arg).bind s.cqryRecord)
def execRendezvousArrival (s : State) : Res := s.event ((argId s.arg).bind s.rendezvous)
def execReshapeTakesEffect (s : State) : Res := s.event ((argId s.arg).bind s.reshapeEffect)
def execContextIdsFreed (s : State) : Res := s.event ((argId s.arg).bind s.freeId)
def execDroopBegin (s : State) : Res := s.event ((argId s.arg).bind s.droopBegin)
def execDroopClear (s : State) : Res := s.event ((argId s.arg).bind s.droopClear)
def execHopComplete (s : State) : Res := s.event ((argId s.arg).bind s.hopEnd)
def execHoldLowEnd (s : State) : Res := s.event ((argId s.arg).bind s.holdEnd)
def execDamperPeriod (s : State) : Res := s.event ((argId s.arg).bind s.damperPeriod)

end Sys2Proof.Machine
end

