-- ==== Sys2Proof/Machine/Copy.lean ====
section
/-! DEFINITION. What each CP op does at issue (11_copy R261 to R273). -/

namespace Sys2Proof.Machine

/-! ## Sides -/

/-- The side that an operand names. -/
def copySide (c : Ctx) (m : Mode) (h : HReg) (x : XReg) : Side :=
  match m with
  | .spad => .spad (c.xw x).toNat
  | .face => .spad (0x10000000 + (c.xw x).toNat)
  | .handle => .virt (evAddr ((c.hv h.toNat).vbase.toNat + (c.xw x).toInt))

/-! ## Banks and rings (11_copy R269 to R271) -/

/-- The partitions that CPYW or CPYR writes: those of its target. A chain is written on its shared feed alone. -/
def State.feedOk (s : State) (p face : Nat) : Bool :=
  let t := s.tail p
  t.kind != .chain || (if t.shape.toNat < 2 then face == 0 else t.shape == 2 && face == 1)

/-- The first cause of CPYW at its bank (11_copy R269, R271). -/
def State.bankCause (s : State) (b p layer face base : Nat) (r : LRec) : Option Ev :=
  let box := s.tailBox p
  let sp := r.span r.dstr r.dsz
  if s.tailOwns b p && !s.tailErr p && decide (box.first ≤ layer) && decide (layer ≤ box.last) && s.feedOk p face &&
      decide (0 ≤ (base : Int) + sp.1) && decide ((base : Int) + sp.2 ≤ (nQuads box.quads * bankPart : Nat)) then none
  else some (ev28 p)

/-- The ring of a member in the tail view. -/
def State.tailRing (s : State) (q ring : Nat) : Option (Nat × RingCfg) := tfind (s.tail q).rings ring

/-- The first cause of CPYR at its ring (11_copy R270, R271). -/
def State.ringCause (s : State) (b p ring : Nat) (r : LRec) : Option Ev :=
  let ms := (s.tail p).targets p
  let sp := r.span r.dstr r.dsz
  let bad (q : Nat) : Bool := match s.tailRing q ring with
    | none => true
    | some (_, g) => !ringIn g || decide (sp.1 < 0) ||
        decide (((layersOf g.lmask).length * ringBs (s.tail q).quads g : Nat) < sp.2)
  let face := match s.tailRing (ms.headD p) ring with
    | some (_, g) => g.face.toNat
    | none => 0
  if !s.tailOwns b p || s.tailErr p then some (ev28 p)
  else if (s.tailRing (ms.headD p) ring).isSome && !s.feedOk p face then some (ev28 p)
  else if ms.any bad then some (ev2A p)
  else none

/-! ## Issue (11_copy R262, R263) -/

/-- What a copy op names beyond its sides. -/
inductive CpExtra
  | plain
  | stream (out : Bool) (k : Nat)
  | bank (layer : Nat) (north : Bool) (part : Nat)
  | ring (ring part : Nat)

/-- The sides of a copy that lie in memory: mode, handle, scalar, strides, element size. -/
def copySides (c : CpOp) (x : CpExtra) (r : LRec) : List (Mode × HReg × XReg × List Int × Nat) :=
  let src := (c.smode, c.shnd, c.sx, r.sstr, r.ssz)
  let dst := (c.dmode, c.dhnd, c.dx, r.dstr, r.dsz)
  match x with
  | .plain => [src, dst]
  | .stream out _ => if out then [dst] else [src]
  | .bank .. | .ring .. => [src]

/-- The modes of those sides, known before the record is. -/
def copyHandles (c : CpOp) (x : CpExtra) : List Nat :=
  (copySides c x LRec.none).filterMap fun sd => if sd.1 = .handle then some sd.2.1.toNat else none

/-- Where the part of each quadrant of a member's bank begins, in the half that is the shadow once every queued CSWP has taken
effect (08_cube R194): the blocks are those of the shape that the copy is checked against (11_copy R269). -/
def State.bankParts (s : State) (box : TailP) (layer face q : Nat) : List Nat :=
  let m := s.tail q
  (quadList m.quads).map fun j =>
    let blk := 4 * (m.first + (layer - box.first)) + j
    bankPlace blk face (1 - tget s.cube.halfT (2 * blk + face) 0) 0

/-- The cause that a copy meets at the bank or the ring that it writes. -/
def State.targetCause (s : State) (b : Nat) (x : CpExtra) (dx : Nat) (r : LRec) : Option Ev :=
  match x with
  | .bank l n p => s.bankCause b p l n.toNat dx r
  | .ring g p => s.ringCause b p g r
  | _ => none

/-- Places 3 to 6 of R263, the record being known. -/
def State.copyCause (s : State) (b : Nat) (c : CpOp) (x : CpExtra) (r : Option LRec) : Option Ev :=
  let cx := s.ctx b
  let prot : Ev := { code := 0x10, info1 := 0, info2 := cx.asid.toNat }
  match r with
  | none => some prot
  | some r =>
    let bad3 := (match x with
      | .stream out _ => !r.increasing (if out then r.sstr else r.dstr)
      | _ => false) || (c.bflag != 0 && decide (2 ^ 28 ≤ r.total))
    if bad3 then some prot
    else
      let sides := copySides c x r
      let spads := sides.filterMap fun sd => match sd.1 with
        | .handle => none
        | m => match copySide cx m sd.2.1 sd.2.2.1 with
          | .spad a => s.spadSide cx (m == .face) a r sd.2.2.2.1 sd.2.2.2.2
          | _ => none
      let first := spads.foldl (fun best e => match best with
        | some m => if e.1 < m.1 then some e else best
        | none => some e) (none : Option (Nat × Ev))
      first.map (·.2)

/-- Places 7 and 8 of R263: the target as it stands behind a CB op of the bundle, which comes first (02_bundle R30), and the
handles. -/
def State.copyLate (pre s : State) (b : Nat) (c : CpOp) (x : CpExtra) (r : LRec) : Option Ev :=
  let cx := pre.ctx b
  (s.targetCause b x (cx.xw c.dx).toNat r).orElse fun _ =>
    ((copySides c x r).filterMap fun sd => match copySide cx sd.1 sd.2.1 sd.2.2.1 with
      | .virt va => handleFault cx sd.2.1.toNat va
      | _ => none).head?

/-- A copy op. A retired channel raises protection. -/
def copySem (c : CpOp) (cadd : Bool) (x : CpExtra) : OpSem :=
  let hs := copyHandles c x
  let xs := [c.sx, c.dx]
  { path := c.path
    reads := fun _ _ => (xs.map fun n => .x n.toNat) ++ hs.map fun k => .h k
    chans := fun _ _ => [c.ch.toNat]
    hold := fun s _ => if s.chanHeld c.ch.toNat then some 3 else none
    wait := fun s b => lowestOf
      [if (s.record (s.ctx b).asid c.layout.toNat).isNone then some 3 else none,
       if hs.any fun k => ((s.ctx b).hv k).hst == .lazy then some 7 else none]
    fault := fun s b =>
      (poisonedX (s.ctx b) xs).orElse fun _ =>
      (match x with
        | .stream _ k => if ((s.ctx b).strm k).dir ≠ SDir.unbound then some ({ code := 0x31, info2 := k } : Ev) else none
        | _ => none).orElse fun _ =>
      if s.plat.xch.contains c.ch.toNat then some (protAt (s.ctx b) 0)
      else match s.record (s.ctx b).asid c.layout.toNat with
      | none => none
      | some r => s.copyCause b c x r
    check := fun pre b s => ((pre.record (pre.ctx b).asid c.layout.toNat).getD none).bind (pre.copyLate s b c x)
    ask := fun s b t =>
      let asid := (s.ctx b).asid
      hs.foldl (fun t k => if ((s.ctx b).hv k).hst = .lazy then s.askHandle b k t else t) (t.askRecord asid c.layout.toNat)
    act := fun pre b s =>
      let cx := pre.ctx b
      match pre.record cx.asid c.layout.toNat with
      | some (some r) =>
        let now := s.ctx b
        let d0 := { s.newDesc b cx .copy r c.cflag.toNat with
          cadd := cadd, rflag := c.rflag, bflag := c.bflag.toNat, srs := now.srs, srcC := now.src,
          src := copySide cx c.smode c.shnd c.sx, dst := copySide cx c.dmode c.dhnd c.dx }
        let d := match x with
          | .plain => d0
          | .stream out k => if out then { d0 with kind := .sOut, src := .stream k, str := k }
              else { d0 with kind := .sIn, dst := .stream k, str := k }
          | .bank l n p => { d0 with
              kind := .weights, dst := .bank p l n (cx.xw c.dx).toNat
              swaps := ((s.tail p).targets p).map fun q => (q, if n then (s.tail q).issN else (s.tail q).issW)
              places := ((s.tail p).targets p).map fun q => s.bankParts (s.tailBox p) l n.toNat q }
          | .ring g p => { d0 with
              kind := .ring, dst := .slot p g
              gens := ((s.tail p).targets p).map fun q => (q, ((s.tailRing q g).map (·.1)).getD 0) }
        let s1 := (s.pushDesc c.ch.toNat d).drew b r.draws
        match x with
        | .stream out k => s1.modCtx b fun v => v.setStrm k
            { dir := if out then .output else .input, chan := c.ch.toNat, desc := d.id,
              total := if out then r.sheets r.sstr r.ssz else r.sheets r.dstr r.dsz, moved := 0, buf := [] }
        | _ => s1
      | _ => s }

/-- CPY (11_copy R262). -/
def cpySem (c : CpOp) (cadd : Bool) : OpSem := copySem c cadd .plain

/-- CPYS (11_copy R267). -/
def cpysSem (c : CpOp) (cadd out : Bool) (str : BitVec 2) : OpSem := copySem c cadd (.stream out str.toNat)

/-- CPYW (11_copy R269). -/
def cpywSem (c : CpOp) (cadd : Bool) (wlay : BitVec 4) (wnorth : Bool) (wpart : PartId) : OpSem :=
  copySem c cadd (.bank wlay.toNat wnorth wpart.toNat)

/-- CPYR (11_copy R270). -/
def cpyrSem (c : CpOp) (cadd : Bool) (rring : BitVec 3) (rpart : PartId) : OpSem :=
  copySem c cadd (.ring rring.toNat rpart.toNat)

/-- An op that only queues a report on a channel. -/
def chanSem (p : Path) (ch : Nat) (xs : List XReg) (fault : State → Nat → Option Ev) (d : State → State → Nat → Desc)
    (after : Nat → Nat → State → State) : OpSem :=
  { path := p
    reads := fun _ _ => xs.map fun n => .x n.toNat
    chans := fun _ _ => [ch]
    hold := fun s _ => if s.chanHeld ch then some 3 else none
    fault := fun s b => (poisonedX (s.ctx b) xs).orElse fun _ =>
      if s.plat.xch.contains ch then some (protAt (s.ctx b) 0) else fault s b
    act := fun pre b s => after s.ids b (s.pushDesc ch (d pre s b)) }

/-- CPDRN (11_copy R272). -/
def cpdrnSem (p : Path) (ch : BitVec 4) (cflag : FlagIx) : OpSem :=
  chanSem p ch.toNat [] (fun _ _ => none)
    (fun pre s b => { s.newDesc b (pre.ctx b) .drain LRec.none cflag.toNat with
      err := if ((s.ctx b).chst ch.toNat).first = 0 then none else some ((s.ctx b).chst ch.toNat).first.toNat })
    (fun _ b s => s.modCtx b fun c => c.setChst ch.toNat { c.chst ch.toNat with first := 0 })

/-- CPRD (11_copy R273). -/
def cprdSem (p : Path) (ch : BitVec 4) (dx : XReg) (cflag : FlagIx) : OpSem :=
  chanSem p ch.toNat [dx]
    (fun s b => let c := s.ctx b
      let a := (c.xw dx).toNat
      if a % 32 = 0 ∧ s.hearthOk c a 32 then none else some (protAt c a))
    (fun pre s b => { s.newDesc b (pre.ctx b) .report LRec.none cflag.toNat with dst := .spad ((pre.ctx b).xw dx).toNat })
    (fun _ _ s => s)

/-- Change the descriptor of a name. -/
def State.modDesc (s : State) (id : Nat) (f : Desc → Desc) : State :=
  { s with copy := { s.copy with queues := s.copy.queues.map fun q =>
      (q.1, q.2.map fun d => if d.id = id then f d else d) } }

/-- CPUB (11_copy R268): the binding ends for the bundles after its own; sheets pushed stay to be written, sheets to be
popped are discarded. -/
def cpubSem (p : Path) (ch : BitVec 4) (str : BitVec 2) (cflag : FlagIx) : OpSem :=
  chanSem p ch.toNat []
    (fun s b => let st := (s.ctx b).strm str.toNat
      if st.dir = .unbound ∨ st.chan ≠ ch.toNat then some { code := 0x31, info2 := str.toNat } else none)
    (fun pre s b => { s.newDesc b (pre.ctx b) .unbind LRec.none cflag.toNat with str := str.toNat })
    (fun _ b s =>
      let st := (s.ctx b).strm str.toNat
      let s1 := s.modDesc st.desc fun d =>
        if st.dir = .output then { d with pushed := st.buf, closed := some (min st.moved st.total) } else { d with closed := some d.written }
      s1.modCtx b fun c => c.setStrm str.toNat Stream.none)

end Sys2Proof.Machine
end

