-- ==== Sys2Proof/Machine/Cells.lean ====
section
/-! DEFINITION. Sending cells, the order in which accesses in flight perform, and their landing (14_fabric R316 to R325,
15_ordering R346 to R353, 10_memory R237). -/

namespace Sys2Proof

/-- A cell belongs to a flow from this package. -/
def Cell.inFlow (c : Cell) (dst cls : Nat) : Bool := c.dst.toNat == dst && c.cls.toNat == cls

/-- The class whose flow's path a cell takes: a reservation cell takes that of the flow it is for (14_fabric R321). -/
def Cell.path (c : Cell) : Nat :=
  match c.type, c.lease with
  | .resv, some (.reserve k _) => k
  | _, _ => c.cls.toNat

/-- A cell takes the path of a flow from this package. -/
def Cell.onPath (c : Cell) (dst cls : Nat) : Bool := c.dst.toNat == dst && c.path == cls

/-- The addresses of a cell's bytes. -/
def Cell.span (c : Cell) : List Nat := (List.range c.len).map fun i => c.addr + i

/-- The addresses of the bytes that it carries. -/
def Cell.enabled (c : Cell) : List Nat := c.bytes.map (·.1)

/-- Bytes that a cell carries for some addresses. -/
def Cell.at_ (c : Cell) (a n : Nat) : List Byte :=
  (List.range n).map fun i => ((c.bytes.find? fun x => x.1 == a + i).map (·.2)).getD 0

/-- A cell marks what its poisoned halves feed (14_fabric R325). -/
def Cell.marked (c : Cell) (a n : Nat) : Bool := (List.range n).any fun i => c.poi.contains ((a + i) % 128 / 64)

/-! ## The header of a cell (14_fabric R316) -/

/-- The number of a type. That a reservation cell bears 8 is a DESIGN CHOICE (log 54). -/
def CellType.code : CellType → Nat
  | .write => 0 | .readReq => 1 | .readReply => 2 | .atomicReq => 3 | .atomicReply => 4 | .ack => 5 | .error => 6
  | .flagWrite => 7 | .lease => 8 | .resv => 8 | .post => 9

/-- The addresses a cell is about: those of its bytes, or of its span where it carries none. -/
def Cell.about (c : Cell) : List Nat := if c.bytes = [] then c.span else c.enabled

/-- The bytes of word `k` of its block that a cell is about, as a mask. -/
def Cell.wordBytes (c : Cell) (k : Nat) : Nat :=
  ((List.range 4).filter fun i => c.about.contains (c.addr / 128 * 128 + 4 * k + i)).foldl (fun n i => n + 2 ^ i) 0

/-- The words of its block that a cell is about. -/
def Cell.words (c : Cell) : List Nat := (List.range 32).filter fun k => c.wordBytes k != 0

/-- `SUB`: a write of part of a word. -/
def Cell.sub (c : Cell) : Bool := c.type == .write && c.words.any fun k => c.wordBytes k != 15

/-- `WEN`: the words of the payload that are valid, or for a sub-word write its word and byte enables. -/
def Cell.wen (c : Cell) : Nat :=
  if c.sub then let k := c.words.headD 0; k + 32 * c.wordBytes k else c.words.foldl (fun n k => n + 2 ^ k) 0

/-- The header. -/
def Cell.header (c : Cell) : Nat :=
  c.dst.toNat * 2 ^ 118 + c.src.toNat * 2 ^ 108 + c.cls.toNat * 2 ^ 106 + c.type.code * 2 ^ 102 + c.asid.toNat * 2 ^ 89 +
  c.addr % 2 ^ 48 / 128 * 2 ^ 48 + c.wen * 2 ^ 16 + c.tag.toNat * 2 ^ 4 + c.sub.toNat * 8 +
  (c.poi.foldl (fun n h => n + 2 ^ (1 + h)) 0)

/-- A cell can be carried: what it is about lies in one 128-byte block, a sub-word write is of one word, and a lease
message of at most 128 bytes. -/
def Cell.fits (c : Cell) : Bool :=
  (c.about.all fun a => a / 128 == c.addr / 128) && (!c.sub || c.words.length == 1) && (c.poi.all (· < 2)) && c.poi.Nodup &&
  match c.lease with
  | some (.discards _ gs _) => decide (gs.length ≤ 24)
  | some (.done _ gs _) => decide (gs.length ≤ 24)
  | some (.moved _ _ k bs _) => bs.length == 128 && decide (k < 16384)
  | _ => true

/-- The 144 bytes of a cell: its header, and its payload, in which what is not valid is 0. -/
def Cell.wire (c : Cell) : List Byte :=
  ((List.range 16).map fun i => BitVec.ofNat 8 (c.header >>> (8 * i))) ++
  ((match c.lease, c.atom with
    | some m, _ => Config.leasePayload m
    | none, some g => Config.atomPayload g
    | none, none => c.at_ (c.addr / 128 * 128) 128) ++ List.replicate 128 0).take 128

/-! ## The CRC of a frame (14_fabric R318) -/

/-- One bit enters the remainder. -/
def crcStep (r : BitVec 32) (b : Bool) : BitVec 32 := (r <<< 1) ^^^ (if r.msb != b then 0x04C11DB7 else 0)

/-- The remainder of some bytes, most significant bit first, from 0 (DESIGN CHOICE: 14_fabric R318 gives the polynomial
alone, log 54). -/
def crc32 (bs : List Byte) : BitVec 32 := bs.foldl (fun r b => (List.range 8).foldl (fun r i => crcStep r (b.getMsbD i)) r) 0

/-- The CRC that a frame of these contents bears, over its 64 slots. -/
def Frame.goodCrc (f : Frame) : BitVec 32 :=
  crc32 (Config.controlSlot f.seq f.ackd f.sent f.freed ++ f.cells.flatMap Cell.wire ++
    (List.replicate (63 - f.cells.length) Config.idleCell).flatten)

/-- The same of a link frame (18_platform R393). -/
def LinkFrame.goodCrc (f : LinkFrame) : BitVec 32 := crc32 (Config.linkBytes f.seq f.ackd f.reqs)

end Sys2Proof

namespace Sys2Proof.Machine

/-! ## Ports and flows (14_fabric R319) -/

def Port.zero : Port := ⟨false, 0, 0, 0, [], [], none, [], [], [], []⟩

def State.port (s : State) (k : Nat) : Port := tget s.fab.ports k Port.zero

def State.setPort (s : State) (k : Nat) (p : Port) : State :=
  { s with fab := { s.fab with ports := tput s.fab.ports k p Port.zero } }

/-- The port of a flow from this package: the first of its plane that is up, from its own on. -/
def State.flowPort (s : State) (dst cls : Nat) : Nat :=
  let plane := (s.pkg + dst + 4 * cls) % 16
  let at_ (i : Nat) : Nat := 4 * plane + (dst + i) % 4
  match (List.range 4).find? fun i => (s.port (at_ i)).up with
  | some i => at_ i
  | none => at_ 0

/-- A port holds frames with cells of a flow that have not been acknowledged. -/
def State.flowUnacked (s : State) (k dst cls : Nat) : Bool := (s.port k).unack.any fun f => f.cells.any (·.onPath dst cls)

/-- The port that a new cell of a flow takes: that of its cells still waiting or unacknowledged, if any. -/
def State.cellPort (s : State) (dst cls : Nat) : Nat :=
  match (s.fab.txq.filter fun c => c.cell.onPath dst cls).getLast? with
  | some c => c.port
  | none => ((List.range 64).find? fun k => s.flowUnacked k dst cls).getD (s.flowPort dst cls)

/-- The class of a cell type (14_fabric R319). -/
def cellClass : CellType → Nat
  | .readReq | .atomicReq | .post => 0
  | .write | .flagWrite => 1
  | .readReply | .atomicReply | .ack | .error => 2
  | .lease | .resv => 3

/-- An empty cell of this package. -/
def State.cell (s : State) (type : CellType) (dst : Nat) : Cell :=
  { dst := BitVec.ofNat 10 dst, src := BitVec.ofNat 10 s.pkg, cls := BitVec.ofNat 2 (cellClass type), type := type, asid := 0,
    addr := 0, len := 0, tag := 0, poi := [], bytes := [], atom := none, lease := none }

/-- A cell joins those that wait to be sent, for a request if it is one. -/
def State.sendFor (s : State) (c : Cell) (req : Option Nat) : State :=
  { s with fab := { s.fab with txq := s.fab.txq ++ [⟨s.cellPort c.dst.toNat c.path, c, req⟩] } }

def State.send (s : State) (c : Cell) : State := s.sendFor c none

/-- Send a request or posted cell that will be answered. -/
def State.request (s : State) (c : Cell) (why : ReqFor) : State :=
  let s1 := s.sendFor c (some s.ids)
  { s1 with
    ids := s1.ids + 1
    fab := { s1.fab with
      reqs := s1.fab.reqs ++
        [{ id := s.ids, tag := none, dst := c.dst.toNat, addr := c.addr, len := c.len, sent := s.core.beat, why := why }] } }

/-- A tag that no outstanding request to a package bears, from the next in turn on (DESIGN CHOICE, log 23). -/
def State.freeTag (s : State) (dst : Nat) : Option (BitVec 12) :=
  ((List.range 4096).find? fun i => !(s.fab.reqs.any fun r => r.dst == dst && r.tag == some (BitVec.ofNat 12 (s.fab.nextTag + i)))).map
    fun i => BitVec.ofNat 12 (s.fab.nextTag + i)

/-- Give a waiting request its tag, if there is one. -/
def State.giveTag (s : State) (c : TxCell) : State :=
  match c.req with
  | none => s
  | some id =>
    if s.fab.reqs.any fun r => r.id == id && r.tag.isSome then s
    else match s.freeTag c.cell.dst.toNat with
      | none => s
      | some t => { s with fab := { s.fab with
          nextTag := (t.toNat + 1) % 4096
          reqs := s.fab.reqs.map fun r => if r.id = id then { r with tag := some t } else r
          txq := s.fab.txq.map fun x => if x.req = some id then { x with cell := { x.cell with tag := t } } else x } }

/-- A waiting cell may be sent as far as its tag goes. -/
def State.tagged (s : State) (c : TxCell) : Bool :=
  match c.req with
  | none => true
  | some id => s.fab.reqs.any fun r => r.id == id && r.tag.isSome

/-! ## The order of accesses in flight (15_ordering R347, R351, R352, 12_sync R294) -/

/-- What a piece touches. -/
def RdPiece.span (p : RdPiece) : Home × Nat × Nat := (p.home, p.addr, p.len)

def WrPiece.spans (p : WrPiece) : List (Home × Nat × Nat) := p.runs.map fun r => (p.home, r.1, r.2.length)

/-- What of an access has not performed. -/
def Access.open_ (a : Access) : List (Home × Nat × Nat) :=
  ((a.rd.filter fun p => p.got.isNone).map (·.span)) ++ (a.wr.filter fun p => !p.done).flatMap (·.spans)

def meets (x y : Home × Nat × Nat) : Bool := x.1 == y.1 && overlaps x.2.1 x.2.2 y.2.1 y.2.2

/-- The older accesses of an access's context. -/
def State.older (s : State) (a : Access) : List Access := s.ms.flight.filter fun x => x.uid == a.uid && decide (x.seq < a.seq)

/-- Every row of an AMOS, flag write and POST of the context older than a releasing access has performed (15_ordering R353). -/
def State.othersPerformed (s : State) (a : Access) : Bool :=
  !(s.ms.amos.any fun r => r.uid == a.uid && decide (r.seq < a.seq)) && !s.posting a.uid a.seq && !s.flagInFlight a.uid a.seq

/-- An access may perform the given spans: older accesses to them have performed, older acquiring atomics and, on the
interlocked queue, older interlocked accesses are complete, and a release waits for everything older. -/
def State.mayPerform (s : State) (a : Access) (write : Bool) (sp : List (Home × Nat × Nat)) : Bool :=
  let old := s.older a
  !s.acquirePending a.uid a.seq && (old.all fun x => !x.acq && !(x.ilock && a.ilock) && (a.rel.isNone) &&
    !(write && x.rd.any fun p => p.got.isNone) && x.open_.all fun y => sp.all fun z => !meets y z) &&
  (a.rel.isNone || s.othersPerformed a)

def State.access (s : State) (id : Nat) : Option Access := s.ms.flight.find? fun a => a.id == id

def State.modAccess (s : State) (id : Nat) (f : Access → Access) : State :=
  { s with ms := { s.ms with flight := s.ms.flight.map fun a => if a.id = id then f a else a } }

/-! ## Landing (10_memory R237) -/

/-- The bound of a class. -/
def classBound (k : Nat) : Option Nat := if k = 0 then some 320 else if k = 1 then some 1600 else if k = 2 then some 4000 else none

/-- A promise missed is counted per class: an access whose data through handles or windows of a class came after its
bound. -/
def State.countMiss (s : State) (a : Access) : State :=
  (List.range 3).foldl (fun s k =>
    if a.rd.any fun p => p.lc == k && decide (a.issued + (classBound k).getD 0 < p.at_) then
      { s with ms := { s.ms with pmiss := tput s.ms.pmiss k (tget s.ms.pmiss k 0 + 1) 0 } }
    else s) s

/-- An access whose every piece has performed leaves the flight; a load or an AMOF lands its result. -/
def State.settle (s : State) (id : Nat) : State :=
  match s.access id with
  | none => s
  | some a =>
    if a.open_ = [] then
      let s1 := { s with ms := { s.ms with flight := s.ms.flight.filter fun x => x.id != id } }
      match a.dest.result (if a.bad then a.rd.map fun p => { p with got := some (List.replicate p.len 0, true) } else a.rd) with
      | some r => (s1.countMiss a).unlock a.uid a.bank id r.2
      | none => s1
    else s

/-- The pieces of a failed access that are open at some homes are given up: it will land zeros with every mark set, or
stores nothing there (14_fabric R326, R327). An atomic that fails at one home does nothing at the other: the fallback of a
mirrored page takes the value that the lender has computed (14_fabric R332). -/
def Access.fail (a : Access) (now : Nat) (at_ : Home → Bool) : Access :=
  let f (h : Home) : Bool := at_ h || (a.kind == .amo && a.open_.any fun x => at_ x.1)
  { a with
    bad := a.bad || a.rd.any fun p => p.got.isNone && f p.home
    rd := a.rd.map fun p => if p.got.isNone && f p.home then { p with got := some (List.replicate p.len 0, true), at_ := now } else p
    wr := a.wr.map fun p => if f p.home then { p with done := true } else p }

/-! ## Local and host pieces -/

/-- Read a range of local memory for an access: its bytes and mark, zeros and a mark where the unit is retired. -/
def State.homeRead (s : State) (a n : Nat) : List Byte × Bool :=
  if s.unitsGone a n then (List.replicate n 0, true) else (s.locRead a n, s.locPoi a n)

/-- A read of a retired unit is recorded. -/
def State.noteRead (s : State) (a n : Nat) : State := if s.unitsGone a n then s.noteGone a else s

/-- The bytes the host supplies, dealt out to some lengths. -/
def deal : List Nat → List Byte → List (List Byte)
  | [], _ => []
  | n :: ns, bs => ((bs ++ List.replicate n 0).take n) :: deal ns (bs.drop n)

/-! ## Local memory and the host (10_memory R237, R238, 18_platform R394) -/

/-- The access or copy that a message to the host is for. -/
def HostMsg.asker : HostMsg → Option Nat
  | .load id .. | .store id .. | .atomic id .. => some id
  | _ => none

/-- The adapter can answer what an access or copy has asked: the link is up, and has sent all of it. -/
def State.hostAnswers (s : State) (id : Nat) : Bool :=
  decide (0 < s.plat.lanes) && !s.ms.hostLost && !s.plat.hostOut.any fun m => m.asker == some id

/-- The requests of an access to host memory join what the link is to send, once it may perform there. -/
def State.sendHost (s : State) (a : Access) : State :=
  let rs := a.rd.filter fun p => p.got.isNone && p.home == .host
  let ws := a.wr.filter fun p => !p.done && p.home == .host
  if a.hsent || s.ms.hostLost || (rs = [] && ws = []) ||
      !s.mayPerform a (a.kind != .load) (rs.map (·.span) ++ ws.flatMap (·.spans)) then s
  else
    let msgs : List HostMsg := match a.amo with
      | some g => rs.map fun p => .atomic a.id p.addr g
      | none => (rs.map fun p => .load a.id p.addr p.len) ++ ws.flatMap fun p => p.runs.map fun r => .store a.id r.1 r.2
    ({ s with plat := { s.plat with hostOut := s.plat.hostOut ++ msgs } } : State).modAccess a.id fun x => { x with hsent := true }

/-- An atomic of an access performs on the piece of local memory that it names, and its old value is kept. -/
def State.atomicAt (s : State) (id : Nat) (g : AtomicArg) (poi : Bool) (p : RdPiece) : State :=
  let gone := s.unitsGone p.addr p.len
  let r := s.amoAt p.addr g poi
  (if gone then s.noteGone p.addr else r.1).modAccess id fun (x : Access) => { x with
    rd := x.rd.map fun (q : RdPiece) => if q.ix = p.ix then
      { q with got := some (if gone then (List.replicate p.len 0, true) else r.2), at_ := s.core.beat } else q
    wr := x.wr.map fun (w : WrPiece) => { w with done := true } }

/-- The data of an access arrives from local memory, of which some lines are found uncorrectable. -/
def State.localArrival (s : State) (a : Access) (ls : List Nat) : Option State :=
  let near := a.rd.filter fun p => p.got.isNone && p.home == .here
  if (near != [] || a.open_ = []) && (near.all fun p => s.unitsReady p.addr p.len) &&
      s.mayPerform a (a.kind == .amo) (near.map (·.span)) then
    let s1 := s.loseLines (ls.filter fun l => near.any fun p => overlaps p.addr p.len (l / 64 * 64) 64)
    let s2 : State := match a.amo with
      | some g => near.foldl (fun (t : State) p => t.atomicAt a.id g (a.wr.any (·.poi)) p) s1
      | none =>
        (near.foldl (fun (t : State) p => t.noteRead p.addr p.len) s1).modAccess a.id fun (x : Access) => { x with
          rd := x.rd.map fun (q : RdPiece) =>
            if q.got.isNone && q.home == .here then { q with got := some (s1.homeRead q.addr q.len), at_ := s.core.beat } else q }
    some (s2.settle a.id)
  else none

/-- The adapter answers the loads, or the atomic, of an access with bytes. -/
def State.hostArrival (s : State) (a : Access) (bs : List Byte) : Option State :=
  let near := a.rd.filter fun p => p.got.isNone && p.home == .host
  if near != [] && a.hsent && s.hostAnswers a.id then
    let data := deal (near.map (·.len)) bs
    some ((s.modAccess a.id fun x => { x with
      rd := x.rd.map fun q => if near.contains q then { q with got := some (data.getD (near.idxOf q) [], false), at_ := s.core.beat } else q
      wr := x.wr.map fun w => if x.kind == .amo && w.home == .host then { w with done := true } else w }).settle a.id)
  else none

/-- Long-load data, or the old value of an AMOF, arrives from local memory or from the host. -/
def State.longLoadArrival (s : State) (id : Nat) (how : Arrival) : Option State :=
  match s.access id with
  | some a =>
    if a.kind == .load || (a.kind == .amo && a.dest != .none) then
      match how with
      | .memory ls => s.localArrival a ls
      | .host bs => s.hostArrival a bs
      | .bank _ => none
    else none
  | none => none

/-- The pieces of an access at a home are done. -/
def Access.doneAt (a : Access) (h : Home) : Access :=
  { a with
    rd := a.rd.map fun p => if a.kind == .amo && p.home == h && p.got.isNone then { p with got := some ([], false) } else p
    wr := a.wr.map fun p => if p.home == h then { p with done := true } else p }

/-- A posted store, or an atomic that returns nothing, performs in local memory. -/
def State.localPerformed (s : State) (a : Access) : Option State :=
  let ws := a.wr.filter fun p => !p.done && p.home == .here
  let rs := a.rd.filter fun p => p.got.isNone && p.home == .here
  if (if a.kind == .store then ws != [] else rs != []) &&
      (ws.all fun p => p.runs.all fun r => s.unitsReady r.1 r.2.length) && (rs.all fun p => s.unitsReady p.addr p.len) &&
      s.mayPerform a true (rs.map (·.span) ++ ws.flatMap (·.spans)) then
    let s1 : State := match a.amo with
      | some g => rs.foldl (fun (s : State) p => if s.unitsGone p.addr p.len then s.noteGone p.addr
          else (s.amoAt p.addr g (a.wr.any (·.poi))).1) s
      | none => ws.foldl (fun (s : State) p => p.runs.foldl (fun (s : State) r => s.memStore r.1 r.2 p.poi) s) s
    some ((s1.modAccess a.id (·.doneAt .here)).settle a.id)
  else none

/-- A posted store, or an atomic that returns nothing, performs in local memory; or the adapter acknowledges it, until when
it stays in the interlocked queue (10_memory R238). -/
def State.storePerformed (s : State) (id : Nat) (how : Arrival) : Option State :=
  match s.access id with
  | some a =>
    if a.kind == .store || (a.kind == .amo && a.dest == .none) then
      match how with
      | .memory _ => s.localPerformed a
      | .bank _ => none
      | .host _ =>
        if a.hsent && s.hostAnswers id && a.open_.any fun x => x.1 == .host then
          some ((s.modAccess id (·.doneAt .host)).settle id)
        else none
    else none
  | none => none

/-! ## Pieces for other packages (14_fabric R324, R325) -/

/-- Bytes by address of some runs. -/
def runBytes (runs : List (Nat × List Byte)) : List (Nat × Byte) :=
  runs.flatMap fun r => r.2.zipIdx.map fun x => (r.1 + x.2, x.1)

/-- The last byte for each address. -/
def latest (l : List (Nat × Byte)) : List (Nat × Byte) := (l.map (·.1)).dedup.filterMap fun a => l.reverse.find? fun x => x.1 == a

/-- The block of a piece for another package. -/
def RdPiece.block (p : RdPiece) : Home × Nat := (p.home, p.addr / 128)

/-- The request of a load for one block: the bytes that its pieces want of it (14_fabric R325). -/
def State.sendRead (s : State) (a : Access) (rs : List RdPiece) (k : Home × Nat) : State :=
  let ps := rs.filter fun p => p.block == k
  match k.1, ps with
  | .peer g, p :: _ =>
    let as := (ps.flatMap fun p => (List.range p.len).map (p.addr + ·)).dedup
    let lo := as.foldl min p.addr
    s.request { s.cell .readReq g with
        asid := a.asid, addr := lo, len := as.foldl max lo + 1 - lo, bytes := as.map fun x => (x, 0) }
      (.load a.id (a.rd.idxOf p))
  | _, _ => s

/-- An access sends its cells: write cells in program order to one package, read requests and atomic requests. -/
def State.sendAccess (s : State) (a : Access) : State :=
  let far (h : Home) : Bool := match h with
    | .peer _ => true
    | _ => false
  let rs := a.rd.filter fun p => far p.home && p.got.isNone
  let ws := a.wr.filter fun p => far p.home && !p.done
  let dsts := ws.map (·.home)
  let behind := s.ms.flight.any fun x => x.uid == a.uid && decide (x.seq < a.seq) && !x.sent &&
    x.wr.any fun p => !p.done && dsts.contains p.home
  let gone := (rs.map (·.home) ++ dsts).any fun h => match h with
    | .peer g => s.fab.lost.contains g
    | _ => false
  if a.sent || (rs = [] && ws = []) || behind || gone ||
      !s.mayPerform a (a.kind != .load) (rs.map (·.span) ++ ws.flatMap (·.spans)) then s
  else
    let s1 := if a.kind = .amo then rs.foldl (fun s p => match p.home with
        | .peer g => s.request { s.cell .atomicReq g with asid := a.asid, addr := p.addr, len := p.len, atom := a.amo } (.atomic a.id)
        | _ => s) s
      else (rs.map (·.block)).dedup.foldl (fun s k => s.sendRead a rs k) s
    let s2 := ws.foldl (fun s p => match p.home with
      | .peer g => s.request { s.cell .write g with
          asid := a.asid, addr := (p.runs.headD (0, [])).1 / 128 * 128, len := 128, bytes := latest (runBytes p.runs) }
          (.write a.id (a.wr.idxOf p))
      | _ => s) s1
    s2.modAccess a.id fun x => { x with sent := true }

/-! ## Posts and lease messages that wait to be sent -/

/-- A POST to another package is sent once everything older has performed (13_jobs R313); one to a lost package fails. A
descriptor address that is not 128-byte aligned, which the home would refuse and a cell's header cannot carry, is refused
without a cell (DESIGN CHOICE, log 117). -/
def State.sendPost (s : State) (p : PostE) : State :=
  if p.sent || p.pkg == s.pkg || p.bank == 16 then s
  else if s.fab.lost.contains p.pkg ∨ p.qaddr % 128 ≠ 0 then
    let s1 := { s with sched := { s.sched with posts := s.sched.posts.filter fun x => x.id != p.id } }
    s1.answer p.uid p.bank p.id (if s.fab.lost.contains p.pkg then 0xFFFFFFFFFFFFFFFD else 0xFFFFFFFFFFFFFFFE)
  else if s.allPerformed p.uid p.seq then
    let s1 := s.request { s.cell .post p.pkg with
      asid := p.asid, addr := p.qaddr, len := 128, bytes := p.card.zipIdx.map fun x => (p.qaddr + x.2, x.1) } (.post p.id)
    { s1 with sched := { s1.sched with posts := s1.sched.posts.map fun x => if x.id = p.id then { x with sent := true } else x } }
  else s

/-- Send a lease message, which bears the ASID of its lease, or of the context that issued its op (14_fabric R316). -/
def State.sendLease (s : State) (g : Nat) (asid : BitVec 13) (m : LeaseMsg) : State :=
  s.send { s.cell .lease g with asid := asid, lease := some m }

/-- Send a lease message that the other end answers: its count runs until then (14_fabric R327; DEDUCED, log 34). -/
def State.askLease (s : State) (g : Nat) (asid : BitVec 13) (m : LeaseMsg) : State :=
  s.request { s.cell .lease g with asid := asid, lease := some m } (.ask m)

/-- Lease messages of a kind to a package have been answered. -/
def State.answered (s : State) (g : Nat) (p : LeaseMsg → Bool) : State :=
  { s with fab := { s.fab with reqs := s.fab.reqs.filter fun r => match r.why with
    | .ask m => !(r.dst == g && p m)
    | _ => true } }

/-- Zeroing that writes have asked for goes to the lender (14_fabric R332). -/
def State.sendZeroing (s : State) (k : Nat) : State :=
  let l := s.lease k
  if l.lst = .active then
    let gs := l.dzero.filter fun g => decide (g < zeroSent)
    (gs.foldl (fun s g => s.askLease l.peer.toNat l.asid (.zeroGranule l.pidx.toNat g)) s).setLease k
      { l with dzero := l.dzero.map fun g => if g < zeroSent then g + zeroSent else g }
  else s

/-- Accesses and copies have requests outstanding, or still to be sent, to the frames of a borrowed lease. -/
def State.leaseBusy (s : State) (l : Lease) : Bool :=
  (s.ms.flight.any fun a => a.open_.any fun x => x.1 == .peer l.peer.toNat && overlaps x.2.1 x.2.2 l.base (leaseBytes l)) ||
  s.fab.reqs.any fun r => r.dst == l.peer.toNat && overlaps r.addr r.len l.base (leaseBytes l)

/-- A list of granules in parts of 24, each with whether it is the last. -/
def parts24 (gs : List Nat) : List (List Nat × Bool) :=
  let n := max 1 ((gs.length + 23) / 24)
  (List.range n).map fun i => ((gs.drop (24 * i)).take 24, i + 1 == n)

/-- Step 3 of a recall (14_fabric R334): the discard set goes to the lender once the older accesses are answered. -/
def State.sendDiscards (s : State) (k : Nat) : State :=
  let l := s.lease k
  if l.lst = .recalling ∧ !l.discSet ∧ !s.leaseBusy l then
    ((parts24 l.disc).foldl (fun s x => s.sendLease l.peer.toNat l.asid (.discards l.pidx.toNat x.1 x.2)) s).setLease k
      { l with discSet := true }
  else s

/-- Everything that may be sent joins the cells that wait. -/
def State.pump (s : State) : State :=
  let s1 := s.ms.flight.foldl (fun t a => (t.sendAccess a).sendHost a) s
  let s2 := s1.sched.posts.foldl (fun t p => t.sendPost p) s1
  (List.range 64).foldl (fun t k => (t.sendZeroing k).sendDiscards k) s2

end Sys2Proof.Machine
end

