-- ==== Sys2Proof/Machine/CopyMove.lean ====
section
/-! DEFINITION. Where the bytes of copies lie, what stops an element, how elements move, and what they ask for
(11_copy R256 to R271). -/

namespace Sys2Proof.Machine

/-! ## Where the bytes of a side lie (11_copy R261, R266, R269 to R271) -/

/-- A place a byte is read from or written to; one of a mirrored lease has a fallback (14_fabric R332). -/
inductive Place
  | here (a : Nat)
  | peer (g a : Nat) (fall : Option Nat)
  | host (a : Nat)
  | bank (k : Nat)
  | sheet (o : Nat)
  | zeros
  deriving DecidableEq, Repr

/-- Where a byte lies; or it must wait; or it ends the copy with a code. A byte of a chain's bank or ring lies in every
member. -/
inductive Look
  | ok (ps : List Place)
  | wait
  | err (code : Nat)
  deriving DecidableEq, Repr

/-- A byte of the scratchpad space. That a running copy ends with the code of protection where it meets a face block which
its context no longer owns, or a window no longer configured for its ASID, is a DESIGN CHOICE: 11_copy R266 lists no code
for either (log 103). -/
def State.lookSpad (s : State) (d : Desc) (a : Nat) : Look :=
  match area a with
  | .hearth => if s.regionsOk d.rmask a 1 then .ok [.here (spadBase + a)] else .err 0x10
  | .face =>
    let owned := match s.partOfBlock (4 * faceLayer a + a / 2 ^ 20 % 4) with
      | some p => (s.part p).uid == d.uid
      | none => false
    if owned then .ok [.here (spadBase + a)] else .err 0x10
  | .window w =>
    let v := s.window w
    if s.fab.lost.contains v.peer.toNat then .err 0x19
    else if v.fail then .err 0x18
    else if !v.cfg || v.wasid != d.asid then .err 0x10
    else .ok [.peer v.peer.toNat (spadBase + v.pbase.toNat * 2 ^ 25 + a % 2 ^ 25) none]
  | _ => .err 0x10

/-- A byte of the virtual space of the copy's ASID. A frame where the package has nothing ends the copy with the code of
protection (10_memory R232). A page that the host has asked for back waits,
and one behind a lost link ends the copy (18_platform R395, R396). -/
def State.lookVirt (s : State) (d : Desc) (va : Nat) (write : Bool) : Look :=
  if 2 ^ 57 ≤ va then .err 0x11
  else if (s.tlbHit d.asid va).isNone && !s.walkReady d.asid va then .wait
  else match (s.translate d.asid va).2 with
    | none => .err 0x11
    | some t =>
      let e := t.pte.toNat
      let pa := pteAddr e + (va - t.page)
      let l := s.lease (pteLease e)
      let leased := pteLease e != 0
      let dis := pteBit e 6
      if write && !pteBit e 1 then .err 0x12
      else if pteBit e 2 then (if s.flipRefused d.asid t.page then .err 0x14 else .wait)
      else if s.pageWanted d.asid t.page then .wait
      else if leased && l.lst == .dead && (write || !dis) then .err 0x17
      else if leased && l.lst == .recalling then (if write && dis then .err 0x16 else .wait)
      else if dis then (if write then .wait else .ok [.zeros])
      else match s.homeOf (pteAddr e) (bitsOf e 3 2) with
        | .host => if s.ms.hostLost then .err 0x19 else .ok [.host pa]
        | .peer g =>
          if s.fab.lost.contains g then .err 0x19
          else .ok [.peer g (pa % 2 ^ 48) (if write && pteBit e 7 && l.lst == .active then some (l.fbase + (va - l.vbase)) else none)]
        | .here =>
          let a := pa % 2 ^ 48
          if inAlias a 1 then s.lookSpad d (a - spadBase)
          else if present a 1 then .ok [.here a] else .err 0x10

/-- Scratchpad-space address of a byte of a slot image. -/
def slotPlace (v : Part) (r : Ring) (slot o : Nat) : Nat :=
  let bs := ringBs v.quads r.cfg
  spadBase + faceAddr v.quads ((layersOf r.cfg.lmask).getD (o / bs) 0) r.cfg.face.toNat (slotOfs v.quads r.cfg slot + o % bs)

/-- The slot that a copy has claimed. -/
def Ring.slotOf (r : Ring) (id : Nat) : Option Nat :=
  match r.claims.findIdx? fun c => c.desc == id with
  | some i => some ((r.tail + i) % r.cfg.slots.toNat)
  | none => Option.none

/-- The places of a byte of the bank area that a copy writes, one for each member. -/
def Desc.bankAt (d : Desc) (o : Nat) : List Nat := d.places.map fun l => l.getD (o / bankPart) 0 + o % bankPart

/-- The places of the byte at offset `o` from a side's base. -/
def State.lookSide (s : State) (d : Desc) (side : Side) (write : Bool) (o : Int) : Look :=
  match side with
  | .none => .ok []
  | .spad b => if (b : Int) + o < 0 ∨ 2 ^ 32 ≤ (b : Int) + o then .err 0x10 else s.lookSpad d ((b : Int) + o).toNat
  | .virt va => s.lookVirt d (evAddr ((va : Int) + o)) write
  | .stream _ => .ok [.sheet o.toNat]
  | .bank _ _ _ ofs => .ok ((d.bankAt ((ofs : Int) + o).toNat).map .bank)
  | .slot _ ring =>
    .ok (d.gens.filterMap fun x => match tfind (s.part x.1).rings ring with
      | some r => (r.slotOf d.id).map fun k => .here (slotPlace (s.part x.1) r k o.toNat)
      | none => none)

/-! ## Elements (11_copy R260) -/

/-- The indices of the `n`-th element of pattern order. -/
def LRec.index (r : LRec) (n : Nat) : List Nat :=
  let c (k : Nat) : Nat := r.cnt.getD k 1
  [n % c 0, n / c 0 % c 1, n / (c 0 * c 1) % c 2, n / (c 0 * c 1 * c 2)]

def dotIdx (i : List Nat) (st : List Int) : Int := (i.zip st).foldl (fun a x => a + (x.1 : Int) * x.2) 0

/-- Source and destination offsets of the `n`-th element. -/
def LRec.srcOf (r : LRec) (n : Nat) : Int := dotIdx (r.index n) r.sstr

def LRec.dstOf (r : LRec) (n : Nat) : Int :=
  let i := r.index n
  let i0 := i.getD 0 0
  let i1 := i.getD 1 0
  let j := if r.trans = 0 then [i0, i1] else [64 * (i0 / 64) + i1 % 64, 64 * (i1 / 64) + i0 % 64]
  dotIdx (j ++ i.drop 2) r.dstr

/-- The destination bytes of an element. -/
def LRec.convert (r : LRec) (srs src : BitVec 32) (n : Nat) (bs : List Byte) : List Byte :=
  if r.conv = 0 then bs
  else
    let f := if r.conv = 1 then fBF16 else if r.conv = 2 then fE4M3 else fE5M2
    leBytes r.dsz (f.round (fF32.val (leNat bs)) ((Rnd.ofCode (BitVec.ofNat 3 r.rnd)).getD .rne) r.sat
      (srBits srs src (n % 2 ^ 32) 0)).1

/-- A copy being moved: its descriptor, and the number and the contents of the sheet that an output binding writes. -/
structure Mover where
  d     : Desc
  base  : Nat
  sheet : Sheet

/-- A byte of a sheet, and its row's mark. -/
def Sheet.byteAt (v : Sheet) (o : Nat) : Byte × Bool :=
  (BitVec.ofNat 8 ((v.lane (o / 4)).toNat >>> (8 * (o % 4))), v.mark (o / 2048))

/-- Under what key a copy keeps the byte it has read at a host address, above those of the packages. -/
def hostKey (a : Nat) : Nat := 2 ^ 58 + a

/-- The byte at a source place, if it is known. -/
def State.fetchByte (s : State) (m : Mover) (p : Place) : Option (Byte × Bool) :=
  match p with
  | .here a => if !s.unitsReady a 1 then none else if s.unitsGone a 1 then some (0, true) else some (s.locByte a, s.locPoi a 1)
  | .peer g a _ =>
    let k := g * 2 ^ 48 + a
    ((m.d.got.find? fun x => x.1 == k).map (·.2)).map fun b => (b, m.d.gotPoi.contains k)
  | .host a => ((m.d.got.find? fun x => x.1 == hostKey a).map (·.2)).map fun b => (b, false)
  | .bank _ => none
  | .sheet o => some (if o / 131072 = m.base then m.sheet.byteAt (o % 131072) else m.d.prev.byteAt (o % 131072))
  | .zeros => some (0, false)

def State.srcLooks (s : State) (d : Desc) (n : Nat) : List Look :=
  (List.range d.rec_.ssz).map fun (i : Nat) => s.lookSide d d.src false (d.rec_.srcOf n + i)

def State.dstLooks (s : State) (d : Desc) (n : Nat) : List Look :=
  (List.range d.rec_.dsz).map fun (i : Nat) => s.lookSide d d.dst true (d.rec_.dstOf n + i)

def Look.places : Look → List Place
  | .ok ps => ps
  | _ => []

/-- Home of a place. -/
def Place.home : Place → Home
  | .peer g _ _ => .peer g
  | .host _ => .host
  | _ => .here

def Place.far (p : Place) : Bool := p.home != .here

/-- The home of a byte of a side, by its translation alone; none if it has none. -/
def State.sideHome (s : State) (d : Desc) (side : Side) (o : Int) : Option Home :=
  let spad (a : Nat) : Home := match area a with
    | .window w => if (s.window w).cfg then .peer (s.window w).peer.toNat else .here
    | _ => .here
  match side with
  | .spad b => some (spad ((b : Int) + o).toNat)
  | .virt b =>
    let va := evAddr ((b : Int) + o)
    if 2 ^ 57 ≤ va then none
    else (s.translate d.asid va).2.map fun t =>
      let pa := pteAddr t.pte.toNat + (va - t.page)
      match s.homeOf (pteAddr t.pte.toNat) (bitsOf t.pte.toNat 3 2) with
      | .here => if inAlias (pa % 2 ^ 48) 1 then spad (pa % 2 ^ 48 - spadBase) else .here
      | h => h
  | _ => some .here

/-- The home of the first destination byte, as the copy first met it. That a flag whose home was never known stays in the
issuing package is a DESIGN CHOICE (log 52). -/
def State.flagHome (s : State) (d : Desc) : Home :=
  d.home.getD ((s.sideHome d d.dst (d.rec_.dstOf 0)).getD .here)

/-- The block in whose memory a place lies. -/
def Place.block : Place → Option Nat
  | .here a =>
    let x := a - spadBase
    if decide (spadBase ≤ a) && area x == .face then some (4 * faceLayer x + x / 2 ^ 20 % 4) else none
  | .bank k => some (k / (4 * bankPart))
  | _ => none

/-- The region of the hearth scratchpad in which a place lies. -/
def Place.region : Place → Option Nat
  | .here a => if decide (spadBase ≤ a) && area (a - spadBase) == .hearth then some (regionOf (a - spadBase)) else none
  | _ => none

/-- The engine reaches a place in this beat: the core does not touch its region (10_memory R227), and its block is in no
droop, in which no word crosses (17_power R384). -/
def State.reaches (s : State) (p : Place) : Bool :=
  (match p.region with
    | some g => !s.touchedNow g
    | none => true) &&
  match p.block with
  | some b => !s.droops b
  | none => true

/-- What stops element `n`: nothing; a wait; or an error. -/
def State.elemTrouble (s : State) (m : Mover) (n : Nat) : Option (Option Nat) :=
  let src := s.srcLooks m.d n
  let dst := s.dstLooks m.d n
  match (src ++ dst).find? fun l => match l with
    | .ok _ => false
    | _ => true with
  | some (.err c) => some (some c)
  | some _ => some none
  | none =>
    let bytes := (src.flatMap Look.places).map (s.fetchByte m)
    let places := dst.flatMap Look.places
    if m.d.rflag && places.any fun p => p.home != s.flagHome m.d then some (some 0x10)
    else if bytes.any Option.isNone || places.any fun p => match p with
        | .here a => !s.unitsReady a 1
        | _ => false then some none
    else if (bytes.any fun b => match b with
        | some x => x.2
        | none => false) && places.any Place.far then some (some 0x20)
    else none

/-- The first element of a list that is stopped, and by what. -/
def State.firstTrouble (s : State) (m : Mover) (ns : List Nat) : Option (Nat × Option Nat) :=
  ns.findSome? fun n => (s.elemTrouble m n).map fun t => (n, t)

/-- A target partition is in the error state. -/
def State.targetErr (s : State) (d : Desc) : Bool := (d.swaps ++ d.gens).any fun x => (s.part x.1).err

/-! ## Movement -/

abbrev Wr := Place × Byte × Bool

/-- The writes of some elements, in pattern order. `pick` says what the copy reads at a local address that it writes too. -/
def State.elemWrites (s : State) (m : Mover) (ns : List Nat) (pick : Nat → Byte × Bool → Byte × Bool) : List Wr :=
  ns.flatMap fun n =>
    let got := ((s.srcLooks m.d n).flatMap Look.places).map fun p =>
      let x := (s.fetchByte m p).getD (0, false)
      match p with
      | .here a => pick a x
      | _ => x
    let poi := got.any (·.2)
    let bs := m.d.rec_.convert m.d.srs m.d.srcC n (got.map (·.1))
    ((s.dstLooks m.d n).zip bs).flatMap fun x => x.1.places.map fun p => (p, x.2, poi)

/-- The last byte written to a local address. -/
def lastHere (ws : List Wr) (a : Nat) : Option Byte := (ws.reverse.find? fun w => w.1 == .here a).map (·.2.1)

/-- A source byte that the copy itself writes is read old or new, as an open choice for its word says (11_copy R260,
log 14): `x` stands there now, `ws` are writes still to come. -/
def State.pickByte (s : State) (m : Mover) (ws : List Wr) (a : Nat) (x : Byte × Bool) : Byte × Bool :=
  if (Config.freeWord (2 ^ 64 * (s.free + 1) + a / 4)).getLsbD 0 then ((lastHere ws a).getD x.1, x.2)
  else ((m.d.old.find? fun o => o.1 == a).map (·.2)).getD x

/-- The writes of elements that nothing stops, each overlapping source word having been chosen. -/
def State.settledWrites (s : State) (m : Mover) (ns : List Nat) : Nat → List Wr
  | 0 => s.elemWrites m ns (s.pickByte m [])
  | k + 1 => s.elemWrites m ns (s.pickByte m (s.settledWrites m ns k))

/-- The last byte for each of the `n` addresses from `a`, among writes by address. -/
def lastBytes (ws : List (Nat × Byte × Bool)) (a n : Nat) : List (Option Byte) :=
  (List.range n).map fun i => (ws.reverse.find? fun w => w.1 == a + i).map (·.2.1)

/-- Write bytes of local memory, line by line: a line is marked if any byte for it is, and a line written whole takes
the mark of what is written (10_memory R251). -/
def State.writeLines (s : State) (ws : List (Nat × Byte × Bool)) : State :=
  (ws.map (·.1 / 64)).dedup.foldl (fun s k =>
    let l := ws.filter fun w => w.1 / 64 == k
    let poi := l.any (·.2.2)
    let bs := lastBytes l (64 * k) 64
    if bs.all Option.isSome then s.memStore (64 * k) (bs.map (·.getD 0)) poi
    else bs.zipIdx.foldl (fun s x => match x.1 with
      | some b => s.memStore (64 * k + x.2) [b] poi
      | none => s) s) s

/-- A foreign segment of a bank reads zero from the first write on (09_partitions R212). -/
def State.ownSegment (s : State) (seg : Nat) : State :=
  if s.cube.foreign.contains seg then
    { s with cube := { s.cube with
      foreign := sdel s.cube.foreign seg
      wbank := s.cube.wbank.filter fun e => e.1 / 65536 != seg
      wpoison := s.cube.wpoison.filter fun l => l / 1024 != seg } }
  else s

/-- Write bytes of the weight banks. A line that is written in part is read, with the wrong symbols given for it, and
corrected first (18_platform R402). -/
def State.writeBank (s : State) (ws : List (Nat × Byte × Bool)) (errs : BankErrs) : State :=
  let s0 := (ws.map (·.1 / 65536)).dedup.foldl State.ownSegment s
  (ws.map (·.1 / 64)).dedup.foldl (fun s0 k =>
    let l := ws.filter fun w => w.1 / 64 == k
    let poi := l.any (·.2.2)
    let bs := lastBytes l (64 * k) 64
    let whole := bs.all Option.isSome
    let s := if whole then s0 else (s0.bankReads (errs.filter fun e => e.1 == k)).1
    { s with cube := { s.cube with
      wbank := bs.zipIdx.foldl (fun m x => match x.1 with
        | some b => memWrite m (64 * k + x.2) [b]
        | none => m) s.cube.wbank
      wpoison := if poi then sadd s.cube.wpoison k else if whole then sdel s.cube.wpoison k else s.cube.wpoison } }) s0

/-- Runs of bytes at consecutive addresses, the last write of each. -/
def bytesAt (ws : List (Nat × Byte × Bool)) : List (Nat × Byte) :=
  (ws.map (·.1)).dedup.filterMap fun a => ((lastBytes ws a 1).headD none).map fun b => (a, b)

/-- Bytes of one block as cells carry them: the whole words in one, and each part of a word in one of its own
(14_fabric R316). -/
def wordCells (bs : List (Nat × Byte)) : List (List (Nat × Byte)) :=
  let whole (w : Nat) : Bool := (List.range 4).all fun i => bs.any fun x => x.1 == 4 * w + i
  let ws := (bs.map (·.1 / 4)).dedup
  (match bs.filter fun x => whole (x.1 / 4) with
    | [] => []
    | l => [l]) ++ (ws.filter fun w => !whole w).map fun w => bs.filter fun x => x.1 / 4 == w

/-- The cells that carry bytes to a package. Those of mirrored pages go to the fallback once each is acknowledged, in the
lender's order (15_ordering R358). -/
def State.sendBytes (s : State) (ch : Nat) (d : Desc) (g : Nat) (ws : List (Nat × Byte)) (fall : Nat → Option Nat) : State :=
  (ws.map (·.1 / 128)).dedup.foldl (fun s k =>
    (wordCells (ws.filter fun w => w.1 / 128 == k)).foldl (fun s bs =>
      s.request { s.cell .write g with asid := d.asid, addr := 128 * k, len := 128, bytes := bs }
        (.copyWrite d.id ch (bs.filterMap fun x => (fall x.1).map fun f => (f, x.2)))) s) s

def hereOf : Wr → Option (Nat × Byte × Bool)
  | (.here a, x) => some (a, x)
  | _ => none

def bankOf' : Wr → Option (Nat × Byte × Bool)
  | (.bank a, x) => some (a, x)
  | _ => none

def hostOf : Wr → Option (Nat × Byte × Bool)
  | (.host a, x) => some (a, x)
  | _ => none

def peerOf (g : Nat) : Wr → Option (Nat × Byte × Bool)
  | (.peer g' a _, x) => if g' = g then some (a, x) else none
  | _ => none

/-- The pages of some elements are translated (10_memory R231). -/
def State.touchPages (s : State) (d : Desc) (ns : List Nat) : State :=
  let one (s : State) (side : Side) (o : Int) (n : Nat) : State := match side with
    | .virt va => [o, o + (n : Int) - 1].foldl (fun s o =>
        if evAddr ((va : Int) + o) < 2 ^ 57 then (s.translate d.asid (evAddr ((va : Int) + o))).1 else s) s
    | _ => s
  ns.foldl (fun s n => one (one s d.src (d.rec_.srcOf n) d.rec_.ssz) d.dst (d.rec_.dstOf n) d.rec_.dsz) s

/-- The records of the retired units that some elements read, one for each line (18_platform R399). -/
def State.noteSources (s : State) (d : Desc) (ns : List Nat) : State :=
  let gone := ((ns.flatMap fun n => (s.srcLooks d n).flatMap Look.places).filterMap fun p => match p with
    | .here a => if s.unitsGone a 1 then some (a / 64) else none
    | _ => none).dedup
  gone.foldl (fun (t : State) k => t.noteGone (64 * k)) s

/-- The local bytes that some elements overwrite and later ones read, as they stand. -/
def State.overwritten (s : State) (m : Mover) (ws : List Wr) (later : List Nat) : List (Nat × Byte × Bool) :=
  let needed := (later.flatMap fun n => (s.srcLooks m.d n).flatMap Look.places).dedup
  ((ws.filterMap hereOf).map (·.1)).dedup.filterMap fun a =>
    if needed.contains (.here a) && !(m.d.old.any fun o => o.1 == a) then (s.fetchByte m (.here a)).map fun x => (a, x)
    else none

/-- Move the elements `ns`, which nothing stops, of the elements `known` that nothing stops and the elements `rest` that are
still to move. The second part is the bytes of a sheet. -/
def State.moveElems (s : State) (ch : Nat) (m : Mover) (ns known rest : List Nat) (errs : BankErrs) :
    State × List (Nat × Byte × Bool) :=
  let ws := s.elemWrites m ns (s.pickByte m (s.settledWrites m known known.length))
  let old := s.overwritten m ws (rest.drop ns.length)
  let s1 := ((s.touchPages m.d ns).noteSources m.d ns).writeLines (ws.filterMap hereOf)
  let s2 := s1.writeBank (ws.filterMap bankOf') errs
  let hs := bytesAt (ws.filterMap hostOf)
  let s3 := ({ s2 with
    free := s2.free + 1
    plat := { s2.plat with hostOut := s2.plat.hostOut ++ hs.map fun x => .store m.d.id x.1 [x.2] } } : State).modDesc m.d.id
      fun d => { d with old := d.old ++ old, hostWr := d.hostWr ++ hs.map (·.1) }
  let gs := (ws.filterMap fun w => match w.1 with
    | .peer g _ _ => some g
    | _ => none).dedup
  let fall (g a : Nat) : Option Nat := ws.findSome? fun w => match w.1 with
    | .peer g' a' f => if g' = g ∧ a' = a then f else none
    | _ => none
  (gs.foldl (fun s g => s.sendBytes ch m.d g (bytesAt (ws.filterMap (peerOf g))) (fall g)) s3,
   ws.filterMap fun w => match w.1 with
     | .sheet o => some (o, w.2)
     | _ => none)

/-! ## What a copy asks for while it waits -/

/-- The source blocks of other packages that are not known and have not been asked for. -/
def State.missing (s : State) (m : Mover) (ns : List Nat) : List (Nat × Nat) :=
  ((ns.flatMap fun n => (s.srcLooks m.d n).flatMap Look.places).filterMap fun p => match p with
    | .peer g a _ => if (s.fetchByte m p).isNone && !(s.fab.reqs.any fun r => r.dst == g && r.addr == a / 128 * 128 &&
        match r.why with
        | .copyRead d _ => d == m.d.id
        | _ => false) then some (g, a / 128) else none
    | _ => none).dedup

/-- What the byte of a virtual side asks for: a flip of its page, or the zeroing of its granule. -/
def State.askVirt (s : State) (d : Desc) (side : Side) (write : Bool) (o : Int) : State :=
  match side with
  | .virt b =>
    let va := evAddr ((b : Int) + o)
    match (if s.lookSide d side write o = .wait ∧ va < 2 ^ 57 then (s.translate d.asid va).2 else none) with
    | some t =>
      let e := t.pte.toNat
      let l := (s.lease (pteLease e)).lst
      if pteBit e 2 then s.askFlip d.asid t.page
      else if write && pteBit e 6 && (l == .active || l == .returned) then s.askZero (pteLease e) t.page
      else s
    | none => s
  | _ => s

/-- Host addresses that some elements read, not known and not asked for, are asked for. -/
def State.askHost (s : State) (m : Mover) (ns : List Nat) : State :=
  let as := ((ns.flatMap fun n => (s.srcLooks m.d n).flatMap Look.places).filterMap fun p => match p with
    | .host a => if (s.fetchByte m p).isNone && !m.d.hostAsk.contains a then some a else none
    | _ => none).dedup
  if as = [] then s
  else ({ s with plat := { s.plat with hostOut := s.plat.hostOut ++ as.map fun a => .load m.d.id a 1 } } : State).modDesc m.d.id
    fun d => { d with hostAsk := d.hostAsk ++ as }

/-- Everything some elements ask for. -/
def State.copyAsk (s : State) (ch : Nat) (m : Mover) (ns : List Nat) : State :=
  let s1 := (s.missing m ns).foldl (fun s x =>
    s.request { s.cell .readReq x.1 with asid := m.d.asid, addr := 128 * x.2, len := 128 } (.copyRead m.d.id ch)) (s.askHost m ns)
  ns.foldl (fun s n =>
    let s2 := (List.range m.d.rec_.ssz).foldl (fun (t : State) (i : Nat) => t.askVirt m.d m.d.src false (m.d.rec_.srcOf n + i)) s
    (List.range m.d.rec_.dsz).foldl (fun (t : State) (i : Nat) => t.askVirt m.d m.d.dst true (m.d.rec_.dstOf n + i)) s2) s1

end Sys2Proof.Machine
end

