-- ==== Sys2Proof/Machine/CopyRun.lean ====
section
/-! DEFINITION. The copy engine's own steps: record arrivals, aperture starts, the start, movement, completion and error
of copies, stream sheets, drains and reports (11_copy R255 to R274). -/

namespace Sys2Proof.Machine

/-! ## Completion flags, barriers and counts (11_copy R264 to R266, R272, R273) -/

/-- The update of a completion flag: 1, plus 1, or the failure word. -/
def Desc.flagUpd (d : Desc) (code : Option Nat) : FlagUpd :=
  match code with
  | some c => .set ⟨BitVec.ofNat 32 (2 ^ 31 + c), false⟩
  | none => if d.cadd then .count else .set ⟨1, false⟩

/-- A barrier's update travels as an atomic of this number, which no instruction has. -/
def barAop : BitVec 5 := 31

/-- Write the completion flag and the barrier of a copy, here or at the home of its data. That a copy whose first destination
byte is host memory, which has no flag array, writes them in the issuing package is a DESIGN CHOICE (log 52). -/
def State.copyFlags (s : State) (d : Desc) (home : Home) (bytes : Nat) (code : Option Nat) : State :=
  match (if d.rflag then home else .here) with
  | .peer g =>
    let flagCell (n : Nat) (c : Cell) : Cell := { c with asid := d.asid, addr := spadBase + 0x1C000000 + 4 * n, len := 4 }
    let at_ (n : Nat) : Cell := flagCell n (s.cell .flagWrite g)
    let s1 :=
      if d.cflag = 0 then s
      else match d.flagUpd code with
        | .count => s.request { at_ d.cflag with atom := some ⟨0, 2, 1, 0⟩ } (.flag d.id)
        | .set v => s.request { at_ d.cflag with
            bytes := (leBytes 4 v.val.toNat).zipIdx.map fun x => (spadBase + 0x1C000000 + 4 * d.cflag + x.2, x.1) } (.flag d.id)
        | _ => s
    if d.bflag = 0 then s1
    else s1.request { at_ d.bflag with
      atom := some ⟨barAop, 2, BitVec.ofNat 64 (2 ^ 28 - bytes % 2 ^ 28), if code.isSome then 1 else 0⟩ } (.flag d.id)
  | _ =>
    let s1 := if d.cflag = 0 then s else s.updFlag d.cflag (d.flagUpd code)
    if d.bflag = 0 then s1 else s1.updFlag d.bflag (.bar (2 ^ 28 - bytes % 2 ^ 28) 0 code.isSome)

/-- Remove a descriptor. -/
def State.dropDesc (s : State) (ch id : Nat) : State :=
  { s with copy := { s.copy with queues := tput s.copy.queues ch ((tget s.copy.queues ch []).filter (·.id != id)) [] } }

/-- A flag or barrier of a copy at another package has not been acknowledged. -/
def State.flagUnacked (s : State) (id : Nat) : Bool := s.fab.reqs.any fun r => r.why == .flag id

/-- A copy has ended. It keeps its place in its channel until its flag at another package is acknowledged, so that no later
copy's flag is set before (11_copy R255). -/
def State.closeDesc (s : State) (ch id : Nat) : State :=
  if s.flagUnacked id then s.modDesc id fun d => { d with ended := true } else s.dropDesc ch id

/-- The slots that a copy claimed are filled (11_copy R270, R271). -/
def State.fillClaims (s : State) (d : Desc) : State :=
  match d.dst with
  | .slot _ ring => d.gens.foldl (fun s x => s.modRing x.1 ring (·.filled d.id)) s
  | _ => s

/-- Change what a context's reports on a channel count. -/
def State.modChst (s : State) (d : Desc) (ch : Nat) (f : ChStat → ChStat) : State :=
  match s.bankOf d.uid d.bank with
  | some b => s.modCtx b fun c => c.setChst ch (f (c.chst ch))
  | none =>
    let note (j : Job) : Job :=
      if j.uid = some d.uid then { j with chans := tput j.chans ch (f (tget j.chans ch ChStat.zero)) ChStat.zero } else j
    { s with sched := { s.sched with jobs := s.sched.jobs.map note } }

/-- A copy completes without error. -/
def State.copyDone (s : State) (ch : Nat) (d : Desc) (bytes : Nat) : State :=
  let home := s.flagHome d
  let s1 := (s.fillClaims d).modChst d ch fun v => { v with done := v.done + 1, bytes := v.bytes + BitVec.ofNat 64 bytes }
  (s1.copyFlags d home bytes none).closeDesc ch d.id

/-- The lines that the error of a CPYW or CPYR leaves poisoned. -/
def State.poisonTarget (s : State) (d : Desc) : State :=
  match d.dst with
  | .bank _ _ _ ofs =>
    let sp := d.rec_.span d.rec_.dstr d.rec_.dsz
    let lo := ((ofs : Int) + sp.1).toNat
    let hi := ((ofs : Int) + sp.2).toNat
    ((List.range ((hi + 63) / 64 - lo / 64)).flatMap fun i => d.bankAt (64 * (lo / 64 + i))).foldl (fun s k =>
      { s.writeBank ((s.freeBytes 64).zipIdx.map fun b => (k + b.2, b.1, true)) [] with free := s.free + 1 }) s
  | .slot _ ring => d.gens.foldl (fun s x => match tfind (s.part x.1).rings ring with
      | some r =>
        match r.slotOf d.id with
        | some k => (List.range ((layersOf r.cfg.lmask).length * ringBs (s.part x.1).quads r.cfg / 64)).foldl (fun s i =>
            { s.locWrite (slotPlace (s.part x.1) r k (64 * i)) (s.freeBytes 64) true with free := s.free + 1 }) s
        | none => s
      | none => s) s
  | _ => s

/-- A copy ends in error (11_copy R266, R269, R270). A CPDRN that is already queued reports it; else the next will. That the
stream of a binding which ends so stays bound, and its later pops and pushes hold, is a DESIGN CHOICE (log 104). -/
def State.copyFail (s : State) (ch : Nat) (d : Desc) (code : Nat) : State :=
  let home := s.flagHome d
  let v := 2 ^ 31 + code
  let later := (tget s.copy.queues ch []).find? fun x => x.kind == .drain && x.uid == d.uid
  let s1 := ((s.poisonTarget d).fillClaims d).modChst d ch fun c =>
    { c with lerr := BitVec.ofNat 32 v, nerr := c.nerr + 1,
             first := if later.isNone && c.first == 0 then BitVec.ofNat 32 v else c.first }
  let s2 := match later with
    | some x => s1.modDesc x.id fun x => { x with err := some (x.err.getD v) }
    | none => s1
  (s2.copyFlags d home d.rec_.total (some code)).closeDesc ch d.id

/-! ## The start of a copy (11_copy R255, R269, R270) -/

/-- Copies, as against drains, reports and unbindings. -/
def CopyKind.moves : CopyKind → Bool
  | .drain | .report | .unbind => false
  | _ => true

/-- The ids whose reshapes a copy waits for. -/
def Desc.targetIds (d : Desc) : List Nat :=
  (match d.dst with
    | .bank p .. => [p]
    | .slot p _ => [p]
    | _ => []) ++ (d.swaps ++ d.gens).map (·.1)

/-- What a copy to a bank or a ring waits for before it starts. -/
def State.targetReady (s : State) (d : Desc) : Bool :=
  !(s.cube.resh.any fun r => decide (r.seq < d.seq) && r.ids.any d.targetIds.contains) &&
  match d.dst with
  | .bank _ _ north _ => d.swaps.all fun x => (if north then (s.part x.1).tkN else (s.part x.1).tkW) == x.2
  | .slot _ ring => !s.unclaimed (d.gens.map (·.1)) ring d.seq && d.gens.all fun x => match tfind (s.part x.1).rings ring with
      | some r => r.gen == x.2 && decide (0 < r.free)
      | none => false
  | _ => true

/-- A copy claims the tail slot of its ring in every member. -/
def State.claim (s : State) (d : Desc) : State :=
  match d.dst with
  | .slot _ ring => d.gens.foldl (fun s x => s.modRing x.1 ring fun r => { r with claims := r.claims ++ [⟨d.id, false⟩] }) s
  | _ => s

def Desc.mover (d : Desc) : Mover := ⟨d, 0, Sheet.zero⟩

/-- The elements of a copy that is not a stream binding. -/
def Desc.elems (d : Desc) : List Nat := List.range d.rec_.elems

/-- The next descriptor of a channel starts once its context's earlier accesses have performed (15_ordering R356). -/
def State.copyStart (s : State) (ch : Nat) : Option State :=
  match (tget s.copy.queues ch []).find? fun d => !d.started && d.kind.moves with
  | some d =>
    if s.allPerformed d.uid d.seq && (s.targetReady d || s.targetErr d) then
      let ready := s.targetReady d
      let d' := { d with started := true, begun := s.core.beat, claimed := true }
      let s1 := (if ready then s.claim d else s).modDesc d.id fun _ => d'
      some (if d.kind = .sIn ∨ d.kind = .sOut ∨ !ready then s1 else s1.copyAsk ch d'.mover d.elems)
    else none
  | none => none

/-! ## Completion and error -/

/-- The head of a channel's queue. -/
def State.chanHead (s : State) (ch : Nat) : Option Desc := (tget s.copy.queues ch []).head?

/-- Bytes that a copy has sent to another package or to the host have not been acknowledged. -/
def State.copyUnacked (s : State) (d : Desc) : Bool := !d.hostWr.isEmpty || s.fab.reqs.any fun r => match r.why with
  | .copyWrite k _ _ => k == d.id
  | _ => false

/-- The bytes that a channel may still move in this beat (11_copy R256). -/
def State.room (s : State) (ch : Nat) : Nat :=
  let b := tget s.copy.busy ch (0, 0)
  if b.1 = s.core.beat then 256 - b.2 else 256

/-- A channel moves some bytes in this beat, and the home of the copy's flag is known. -/
def State.noteMoved (s : State) (ch : Nat) (d : Desc) (bytes : Nat) : State :=
  let s1 := s.modDesc d.id fun x => { x with home := some (s.flagHome d) }
  { s1 with copy := { s1.copy with busy := tput s1.copy.busy ch (s.core.beat, 256 - s.room ch + bytes) (0, 0) } }

/-- The first descriptor of a channel that has started, is no stream binding, and has its bytes still to move. -/
def State.moving (s : State) (ch : Nat) : Option Desc :=
  (tget s.copy.queues ch []).find? fun d => d.started && !d.sent && !d.ended && d.kind.moves && d.kind != .sIn && d.kind != .sOut

/-- Sheets of a stream binding that are to be moved. -/
def Desc.sheetsDue (d : Desc) : Nat :=
  match d.closed with
  | some n => n
  | none => if d.kind = .sOut then d.rec_.sheets d.rec_.sstr d.rec_.ssz else d.rec_.sheets d.rec_.dstr d.rec_.dsz

/-- The descriptor at the head of a channel completes, if everything it wrote is acknowledged (11_copy R255, R264). An
unbinding follows the older accesses of its context, as a release does (15_ordering R356). -/
def State.copyFinish (s : State) (ch : Nat) : Option State :=
  match s.chanHead ch with
  | some d =>
    if d.ended then (if s.flagUnacked d.id then none else some (s.dropDesc ch d.id))
    else match d.kind with
    | .sIn | .sOut =>
      if d.started && decide (d.sheetsDue ≤ d.written) && !s.copyUnacked d && d.err.isNone then some (s.copyDone ch d d.bytes)
      else none
    | .unbind => if s.allPerformed d.uid d.seq then some ((s.completeFlag d.cflag).dropDesc ch d.id) else none
    | .drain | .report => none
    | _ => if d.sent && !s.copyUnacked d && d.err.isNone && !s.targetErr d then some (s.copyDone ch d d.rec_.total) else none
  | none => none

/-- The elements that fall in the next sheet of a binding: input, every element with a byte of it; output, those whose
last byte it holds. -/
def Desc.sheetElems (d : Desc) : List Nat :=
  let t : Int := d.written
  d.elems.filter fun n =>
    if d.kind = .sOut then decide ((d.rec_.srcOf n + d.rec_.ssz - 1) / 131072 = t)
    else decide ((d.rec_.dstOf n) / 131072 ≤ t) && decide (t ≤ (d.rec_.dstOf n + d.rec_.dsz - 1) / 131072)

/-- The stream that a binding's descriptor still serves. -/
def State.boundStream (s : State) (d : Desc) : Option (Nat × Stream) :=
  match s.bankOf d.uid d.bank with
  | some b => let st := (s.ctx b).strm d.str
    if st.dir ≠ .unbound ∧ st.desc = d.id then some (b, st) else none
  | none => none

/-- The sheet that an output binding writes next. -/
def State.outSheet (s : State) (d : Desc) : Option Sheet :=
  match d.pushed with
  | v :: _ => some v
  | [] => (s.boundStream d).bind fun x => x.2.buf.head?

/-- The mover of a binding's next sheet. -/
def State.sheetMover (s : State) (d : Desc) : Mover := ⟨d, d.written, (s.outSheet d).getD Sheet.zero⟩

/-- What a descriptor moves next: the elements that have not moved, and its mover. -/
def State.nextMove (s : State) (d : Desc) : List Nat × Mover :=
  if d.kind = .sIn ∨ d.kind = .sOut then (d.sheetElems.drop d.moved, s.sheetMover d) else (d.elems.drop d.moved, d.mover)

/-- The line of local memory or of a bank in which an element's destination begins. -/
def State.destLine (s : State) (d : Desc) (n : Nat) : Option Nat :=
  ((s.dstLooks d n).flatMap Look.places).findSome? fun p => match p with
    | .here a => some (a / 64)
    | .bank k => some (k / 64)
    | _ => none

/-- The elements that a channel moves in this beat, of those that nothing stops, which come first of those still to move: as
many as its bandwidth lets it and it can reach, from 16 beats after the start on (11_copy R256). They end, where they can,
with a line of the destination, so that a copy of whole lines writes each whole (DESIGN CHOICE, log 105). -/
def State.piece (s : State) (ch : Nat) (d : Desc) (known rest : List Nat) : List Nat :=
  if s.core.beat < d.begun + 16 then []
  else
    let ns := (known.take (s.room ch / d.rec_.dsz)).takeWhile fun n =>
      (s.srcLooks d n ++ s.dstLooks d n).all fun l => l.places.all s.reaches
    match rest.drop ns.length with
    | [] => ns
    | n :: _ =>
      let cut := (ns.reverse.dropWhile fun k => (s.destLine d n).isSome && s.destLine d k == s.destLine d n).reverse
      if cut = [] then ns else cut

/-- A copy, or a sheet of a binding, moves what it can in this beat, or asks for what its next element lacks
(11_copy R256, R260). -/
def State.movePiece (s : State) (ch : Nat) (d : Desc) (errs : BankErrs) : Option State :=
  let x := s.nextMove d
  let known := x.1.takeWhile fun n => (s.elemTrouble x.2 n).isNone
  let ns := s.piece ch d known x.1
  if ns = [] then
    if known = [] ∧ (s.firstTrouble x.2 (x.1.take 1)).map (·.2) = some none then some (s.copyAsk ch x.2 x.1) else none
  else
    let r := s.moveElems ch x.2 ns known x.1 errs
    some ((r.1.noteMoved ch d (ns.length * d.rec_.dsz)).modDesc d.id fun e => { e with
      moved := e.moved + ns.length, part := e.part ++ r.2
      sent := e.sent || (!(d.kind == .sIn || d.kind == .sOut) && d.moved + ns.length == d.rec_.elems) })

/-- Uncorrectable lines of the sources of what a copy has still to move are found (18_platform R400). -/
def State.loseSources (s : State) (d : Desc) (ls : List Nat) : Option State :=
  let x := s.nextMove d
  let own := ls.filter fun l => x.1.any fun n => (s.srcLooks d n).any fun k => k.places.any fun p => match p with
    | .here a => a / 64 == l / 64
    | _ => false
  if own = [] then none else some (s.loseLines own)

/-- A copy goes on: its next piece moves, or lines of its sources are lost. -/
def State.copyOn (s : State) (ch : Nat) (d : Desc) (how : Arrival) : Option State :=
  match how with
  | .memory [] => s.movePiece ch d []
  | .memory ls => s.loseSources d ls
  | .bank bs => s.movePiece ch d bs
  | .host _ => none

/-- The host answers what a copy of a channel has asked for, in the order of asking, or acknowledges what it has written
(10_memory R238, 18_platform R394). -/
def State.copyHost (s : State) (ch : Nat) (bs : List Byte) : Option State :=
  let q := tget s.copy.queues ch []
  match (if bs = [] then q.find? fun d => !d.hostWr.isEmpty else q.find? fun d => !d.hostAsk.isEmpty) with
  | some d =>
    if !s.hostAnswers d.id then none
    else if bs = [] then some (s.modDesc d.id fun e => { e with hostWr := [] })
    else some (s.modDesc d.id fun e => { e with
      got := e.got ++ (e.hostAsk.map hostKey).zip bs, hostAsk := e.hostAsk.drop bs.length })
  | none => none

/-- A started copy of a channel moves. -/
def State.copyMove (s : State) (ch : Nat) (how : Arrival) : Option State :=
  match s.moving ch with
  | some d => if d.err.isSome || s.targetErr d then none else s.copyOn ch d how
  | none => none

/-- A copy of a channel moves its bytes, and the one at the head completes once it can. -/
def State.copyComplete (s : State) (ch : Nat) (how : Arrival) : Option State :=
  match s.copyFinish ch, how with
  | some t, _ => some t
  | none, .host bs => s.copyHost ch bs
  | none, _ => (s.copyMove ch how).map fun t => (t.copyFinish ch).getD t

/-- The address that a copy's refused flip concerns. -/
def Desc.flipPage (d : Desc) (n : Nat) : Nat :=
  (match d.dst, d.src with
    | .virt va, _ => evAddr ((va : Int) + d.rec_.dstOf n)
    | _, .virt va => evAddr ((va : Int) + d.rec_.srcOf n)
    | _, _ => 0) / 2 ^ 21 * 2 ^ 21

/-- The error that a copy has met, and the element it met it at, all before that having moved. -/
def State.copyErr (s : State) (d : Desc) : Option (Option Nat × Nat) :=
  match d.err with
  | some c => some (none, c)
  | none =>
    if s.targetErr d then some (none, 0x28)
    else if d.sent ∨ (d.kind = .sOut ∧ s.outSheet d = none) ∨ ((d.kind = .sIn ∨ d.kind = .sOut) ∧ d.sheetsDue ≤ d.written) then none
    else match s.firstTrouble (s.nextMove d).2 ((s.nextMove d).1.take 1) with
      | some (n, some c) => some (some n, c)
      | _ => none

/-- The copy at the head of its channel ends in error, once the bytes that it has sent are acknowledged: its flag is a release
(11_copy R266, R272). -/
def State.copyError (s : State) (ch : Nat) : Option State :=
  match s.chanHead ch with
  | some d =>
    if !d.started || !d.kind.moves || d.ended then none
    else (s.copyErr d).bind fun e =>
      if s.copyUnacked d then (if d.err.isSome then none else some (s.modDesc d.id fun x => { x with err := some e.2 }))
      else
        let s1 := if e.2 = 0x14 then s.clearRefusal d.asid (d.flipPage (e.1.getD 0)) else s
        some (s1.copyFail ch { d with home := some (s.flagHome d) } e.2)
  | none => none

/-! ## Streams (11_copy R267, R268) -/

/-- A descriptor by its name, with its channel. -/
def State.descOf (s : State) (id : Nat) : Option (Nat × Desc) :=
  s.copy.queues.findSome? fun q => (q.2.find? fun d => d.id == id).map fun d => (q.1, d)

/-- The sheet made of the bytes that fall in it, sheet `t`. -/
def sheetFrom (t : Nat) (ws : List (Nat × Byte × Bool)) : Sheet :=
  let own := ws.filter fun w => w.1 / 131072 == t
  Sheet.make
    (fun l => BitVec.ofNat 32 (leNat ((lastBytes own (131072 * t + 4 * l) 4).map (·.getD 0))))
    (fun r => own.any fun w => w.2.2 && w.1 % 131072 / 2048 == r)

/-- Every element of the sheet that a binding moves has moved. -/
def Desc.sheetMoved (d : Desc) : Bool := decide (d.sheetElems.length ≤ d.moved)

/-- The sheet that an input binding has moved becomes poppable. -/
def State.popSheet (s : State) (d : Desc) (b : Nat) : State :=
  let own := d.part.filter fun w => w.1 / 131072 == d.written
  (s.modDesc d.id fun d => { d with written := d.written + 1, bytes := d.bytes + own.length, moved := 0, part := [] }).modCtx b
    fun c => c.setStrm d.str { c.strm d.str with buf := (c.strm d.str).buf ++ [sheetFrom d.written own] }

/-- A sheet of an input binding moves, and becomes poppable with its last element. -/
def State.sheetPoppable (s : State) (id : Nat) (how : Arrival) : Option State :=
  match s.descOf id with
  | some (ch, d) =>
    match s.boundStream d with
    | some (b, st) =>
      if d.started && d.kind == .sIn && d.err.isNone && decide (st.buf.length < 2) && decide (d.written < d.sheetsDue) then
        if d.sheetMoved then some (s.popSheet d b)
        else (s.copyOn ch d how).map fun t => match t.descOf id with
          | some (_, e) => if e.sheetMoved then t.popSheet e b else t
          | none => t
      else none
    | none => none
  | none => none

/-- The sheet that an output binding has moved has been written, and leaves its buffer. -/
def State.sheetDone (s : State) (d : Desc) (v : Sheet) : State :=
  let s1 := s.modDesc d.id fun d => { d with
    written := d.written + 1, bytes := d.bytes + d.sheetElems.length * d.rec_.dsz, moved := 0, part := [], prev := v
    pushed := d.pushed.tail }
  match d.pushed, s.boundStream d with
  | [], some (b, _) => s1.modCtx b fun c =>
    if d.sheetsDue ≤ d.written + 1 then c.setStrm d.str Stream.none
    else c.setStrm d.str { c.strm d.str with buf := (c.strm d.str).buf.tail }
  | _, _ => s1

/-- A sheet of an output binding moves, and has been written with its last element. -/
def State.sheetWritten (s : State) (id : Nat) (how : Arrival) : Option State :=
  match s.descOf id with
  | some (ch, d) =>
    match s.outSheet d with
    | some v =>
      if d.started && d.kind == .sOut && d.err.isNone && decide (d.written < d.sheetsDue) then
        if d.sheetMoved then some (s.sheetDone d v)
        else (s.copyOn ch d how).map fun t => match t.descOf id with
          | some (_, e) => if e.sheetMoved then t.sheetDone e v else t
          | none => t
      else none
    | none => none
  | none => none

/-! ## Drains and reports (11_copy R272, R273) -/

def State.cpdrnComplete (s : State) (ch : Nat) : Option State :=
  match s.chanHead ch with
  | some d =>
    if d.kind = .drain ∧ s.allPerformed d.uid d.seq then
      let v : FlagW := ⟨match d.err with | some e => BitVec.ofNat 32 e | none => 1, false⟩
      some ((s.setFlag d.cflag v).dropDesc ch d.id)
    else none
  | none => none

/-- The 32 bytes of a report. -/
def State.reportBytes (s : State) (ch : Nat) (d : Desc) : List Byte :=
  let c := match s.bankOf d.uid d.bank with
    | some b => s.ctx b
    | none => { Ctx.zero with chans := ((s.sched.jobs.find? fun (j : Job) => j.uid == some d.uid).map Job.chans).getD [] }
  let v := c.chst ch
  let st (k : Nat) : Nat := match (c.strm k).dir with
    | .unbound => 0
    | .input => 1
    | .output => 2
  leBytes 4 (tget s.copy.queues ch []).length ++ leBytes 4 v.done.toNat ++ leBytes 8 v.bytes.toNat ++ leBytes 4 v.lerr.toNat ++
  leBytes 4 v.nerr.toNat ++ leBytes 1 (st 0 + 4 * st 1 + 16 * st 2 + 64 * st 3) ++ leBytes 7 0

def State.cprdWritten (s : State) (ch : Nat) : Option State :=
  match s.chanHead ch with
  | some d =>
    match d.kind, d.dst with
    | .report, .spad a =>
      if s.allPerformed d.uid d.seq && s.reaches (.here (spadBase + a)) then
        some (((s.locWrite (spadBase + a) (s.reportBytes ch d) false).completeFlag d.cflag).dropDesc ch d.id)
      else none
    | _, _ => none
  | none => none

/-! ## Layout records and the aperture (11_copy R259, R274) -/

/-- A record that an op waits for arrives. -/
def State.recordArrival (s : State) (asid id : Nat) : Option State :=
  if s.ms.laymiss.contains (asid, id) then
    let a13 := BitVec.ofNat 13 asid
    let s1 := { s with ms := { s.ms with laymiss := s.ms.laymiss.filter (· != (asid, id)) } }
    match s.recordAt a13 id with
    | some a => if s.unitsReady a 64 then some (s1.cacheRecord a13 id (s.readRecord a)) else none
    | none => some s1
  else none

/-- Acknowledge the writer of an aperture start: a package, or, past the last package, the host. -/
def State.apReply (s : State) (r : Option (Nat × Nat)) : State :=
  match r with
  | some (g, t) =>
    if g < 1024 then s.send { s.cell .ack g with tag := BitVec.ofNat 12 t }
    else { s with plat := { s.plat with hostOut := s.plat.hostOut ++ [.done] } }
  | none => s

/-- A copy started through the aperture enters its channel's queue, or is refused. -/
def State.apertureStart (s : State) (id : Nat) : Option State :=
  match s.copy.apert.find? fun p => p.id == id with
  | some p =>
    let first := match s.copy.apert.find? fun q => q.chan == p.chan with
      | some q => q.id == id
      | none => false
    let ready := match s.recordAt p.asid p.layout with
      | some a => s.unitsReady a 64
      | none => true
    let s0 := { s with copy := { s.copy with apert := s.copy.apert.filter fun q => q.id != id } }
    let found : State × Option LRec := match s.record p.asid p.layout with
      | some r => (s0, r)
      | none => match s.recordAt p.asid p.layout with
        | some a => (s0.cacheRecord p.asid p.layout (s.readRecord a), some (s.readRecord a))
        | none => (s0, none)
    if !first || !ready || !(s.plat.rch.contains p.chan || s.plat.xch.contains p.chan) then none
    else (found.1.apRun p found.2).map fun t => t.apReply p.reply
  | none => none

/-! ## The events -/

def execLayoutRecordArrival (s : State) : Res :=
  s.event (match s.arg with
    | .two asid id => s.recordArrival asid id
    | _ => none)

def execApertureCopyStart (s : State) : Res := s.event ((argId s.arg).bind s.apertureStart)

def execCopyStart (s : State) : Res := s.event ((argId s.arg).bind s.copyStart)

/-- An event's subject, with what arrives for it. -/
def argArrival : Arg → Option (Nat × Arrival)
  | .id n => some (n, .memory [])
  | .arrival n how => some (n, how)
  | _ => none

def execStreamSheetPoppable (s : State) : Res := s.event ((argArrival s.arg).bind fun x => s.sheetPoppable x.1 x.2)

def execStreamSheetWritten (s : State) : Res := s.event ((argArrival s.arg).bind fun x => s.sheetWritten x.1 x.2)

def execCopyComplete (s : State) : Res := s.event ((argArrival s.arg).bind fun x => s.copyComplete x.1 x.2)

def execCopyError (s : State) : Res := s.event ((argId s.arg).bind s.copyError)

def execCpdrnComplete (s : State) : Res := s.event ((argId s.arg).bind s.cpdrnComplete)

def execCprdRecordWritten (s : State) : Res := s.event ((argId s.arg).bind s.cprdWritten)

end Sys2Proof.Machine
end

