-- ==== Sys2Proof/Machine/Fabric.lean ====
section
/-! DEFINITION. Frames, ports and cells as they arrive (14_fabric R316 to R327): the home's checks and performing of
requests, the replies at the requester, and the loss of a package. -/

namespace Sys2Proof.Machine

/-! ## The home's checks (14_fabric R326) -/

/-- The rights a grant gives. -/
inductive Right
  | read | write | atomic | aperture
  deriving DecidableEq, Repr

def Grant.has (g : Grant) : Right → Bool
  | .read => g.rd
  | .write => g.wr
  | .atomic => g.at_
  | .aperture => g.ap

/-- A grant matches a request to some bytes. -/
def State.granted (s : State) (src : Nat) (asid : BitVec 13) (loc : Bool) (r : Right) (as : List Nat) : Bool :=
  s.fab.grants.any fun e => e.2.local_ == loc && e.2.has r && (e.2.any || e.2.pkg.toNat == src) && e.2.asid == asid &&
    as.all fun a => decide (e.2.base ≤ a) && decide (a < e.2.base + e.2.size)

/-- A lent lease in use by a package covers some bytes. -/
def State.lentTo (s : State) (src : Nat) (as : List Nat) : Bool :=
  s.fab.leases.any fun e => decide (64 ≤ e.1) && e.2.peer.toNat == src && (e.2.lst == .active || e.2.lst == .recalling) &&
    as.all fun a => decide (e.2.base ≤ a) && decide (a < e.2.base + leaseBytes e.2)

/-- A write to some bytes is one to the copy aperture. -/
def apertureOnly (r : Right) (as : List Nat) : Bool :=
  r == .write && as.all fun a => decide (spadBase ≤ a) && area (a - spadBase) == .aperture

/-- Bytes that a remote request may reach: of the areas of the scratchpad space that R326 names, or of local memory. -/
def State.homeArea (s : State) (r : Right) (as : List Nat) : Bool :=
  if as.all fun a => inAlias a 1 then
    (as.map (· - spadBase)).all fun x => (area x == .hearth && s.plat.rrgn.contains (regionOf x) && !s.plat.xrgn.contains (regionOf x)) ||
      area x == .flags || (r == .write && area x == .aperture)
  else as.all fun a => inHbm a 1 || inTier2 a 1

/-- A grant covers a request. -/
def State.grantPass (s : State) (src : Nat) (asid : BitVec 13) (r : Right) (as : List Nat) : Bool :=
  if as.all fun a => inAlias a 1 then
    s.granted src asid false (if apertureOnly r as then .aperture else r) (as.map (· - spadBase))
  else s.granted src asid true r as

/-- The right that a cell asks for. -/
def cellRight (c : Cell) : Right :=
  match c.type with
  | .readReq => .read
  | .atomicReq => .atomic
  | _ => .write

/-- The bytes that a request asks for. -/
def cellAsks (c : Cell) : List Nat := if c.type = .write then c.enabled else c.about

/-- A request passes: a grant covered it when it arrived (14_fabric R340), or a lent lease covers it. -/
def State.homePass (s : State) (x : RxCell) : Bool :=
  let as := cellAsks x.cell
  s.homeArea (cellRight x.cell) as && (x.grant || ((as.all fun a => !inAlias a 1) && s.lentTo x.cell.src.toNat as))

/-! ## Ports and frames (14_fabric R317 to R321) -/

/-- Slots reserved on a port. -/
def State.reservedOn (s : State) (k : Nat) : Nat :=
  (s.fab.resv.filter fun e => e.2.port == k).foldl (fun n e => n + e.2.slots) 0

/-- Flows whose port is down move once nothing they sent there is unacknowledged; a reservation moves with its flow, there
and back, where there is room, and ends where there is none (14_fabric R319, R321). -/
def State.moveFlows (s : State) : State :=
  let onto (dst cls k : Nat) : Nat := if (s.port k).up || s.flowUnacked k dst cls then k else s.flowPort dst cls
  let s1 : State := { s with fab := { s.fab with
    txq := s.fab.txq.map fun c : TxCell => { c with port := onto c.cell.dst.toNat c.cell.path c.port } } }
  s1.fab.resv.foldl (fun s e =>
    let k := s.cellPort e.2.dst.toNat e.2.cls.toNat
    if k = e.2.port then s
    else
      let t := if s.reservedOn k + e.2.slots ≤ 48 then tins s.fab.resv e.1 { e.2 with port := k } else tdel s.fab.resv e.1
      { s with fab := { s.fab with resv := t } }) s1

/-- Frames acknowledged up to a sequence number leave the sender. -/
def ackFrames (l : List Frame) (a : BitVec 16) : List Frame := l.filter fun f => decide ((a - f.seq).toNat ≥ 32768)

/-- Class totals of a control slot. -/
def totals (l : List (BitVec 32)) : Tbl (BitVec 32) := (l.zipIdx.map fun x => (x.2, x.1)).filter fun e => e.2 != 0

/-- A frame arrives: one already accepted changes nothing, and one whose CRC fails starts the port's self-test
(18_platform R400). Cells for this package are delivered, each
with whether a grant covers it now. -/
def State.frameReceived (s : State) (k : Nat) (f : Frame) : Option State :=
  let p := s.port k
  if p.up && f.crc != f.goodCrc then some (s.startTest (.port k))
  else if p.up && f.seq == p.rxSeq && decide (f.cells.length ≤ 63) && f.cells.all Cell.fits then
    let s1 := s.setPort k { p with
      rxSeq := p.rxSeq + 1, unack := ackFrames p.unack f.ackd, again := ackFrames p.again f.ackd, freed := totals f.freed
      rxSent := totals f.sent }
    some ({ s1 with fab := { s1.fab with
      inbox := s1.fab.inbox ++ (f.cells.filter fun c => c.dst == BitVec.ofNat 10 s.pkg).map fun c =>
        ⟨k, c, s.grantPass c.src.toNat c.asid (cellRight c) (cellAsks c)⟩ } } : State).moveFlows
  else none

/-- The allowance of a class on a port (14_fabric R320). -/
def Port.allowance (p : Port) (cls : Nat) : Nat := 128 - (tget p.sent cls 0 - tget p.freed cls 0).toNat

/-- Cells of a class among those taken. -/
def classCount (l : List Cell) (cls : Nat) : Nat := (l.filter fun c => c.cls.toNat == cls).length

/-- A cell may be taken: its class has allowance, and it is the first of its flow still waiting. -/
def takeable (p : Port) (taken : List Cell) (wait : List Cell) (c : Cell) : Bool :=
  decide (classCount taken c.cls.toNat < p.allowance c.cls.toNat) &&
  match wait.find? (·.inFlow c.dst.toNat c.cls.toNat) with
  | some d => d == c
  | none => false

/-- Take cells of one flow into its reserved slots. -/
def takeReserved (p : Port) (dst cls : Nat) : Nat → List Cell → List Cell → List Cell × List Cell
  | 0, taken, wait => (taken, wait)
  | n + 1, taken, wait =>
    match wait.find? fun c => c.inFlow dst cls && takeable p taken wait c with
    | some c => takeReserved p dst cls n (taken ++ [c]) (wait.erase c)
    | none => (taken, wait)

/-- Share the other slots round-robin: the next cell is of the flow with the fewest cells shared so far. -/
def takeShared (p : Port) : Nat → List Cell → List Cell → List Cell → List Cell × List Cell
  | 0, taken, _, wait => (taken, wait)
  | n + 1, taken, shared, wait =>
    let of (c : Cell) : Nat := (shared.filter fun d => d.inFlow c.dst.toNat c.cls.toNat).length
    let ok := wait.filter (takeable p taken wait)
    match ok.foldl (fun (m : Option Cell) c => match m with
      | some d => if of c < of d then some c else m
      | none => some c) none with
    | some c => takeShared p n (taken ++ [c]) (shared ++ [c]) (wait.erase c)
    | none => (taken, wait)

/-- Take the sent cells out of those that wait at a port: the requests that were sent, and what still waits. -/
def takenOf (k : Nat) : List Cell → List TxCell → List Nat × List TxCell
  | _, [] => ([], [])
  | sent, c :: rest =>
    if c.port = k ∧ sent.contains c.cell then
      let r := takenOf k (sent.erase c.cell) rest
      (c.req.toList ++ r.1, r.2)
    else
      let r := takenOf k sent rest
      (r.1, c :: r.2)

/-- A port sends its cells in a new frame (14_fabric R317, R320, R321). -/
def State.frameNew (s0 : State) (k : Nat) : State :=
  let s1 := s0.pump
  let s := (s1.fab.txq.filter fun c => c.port == k).foldl State.giveTag s1
  let p := s.port k
  let mine := (s.fab.txq.filter fun c => c.port == k && s.tagged c).map (·.cell)
  let r := (s.fab.resv.filter fun e => e.2.port == k && e.2.held).foldl (fun (t : List Cell × List Cell) e =>
    takeReserved p e.2.dst.toNat e.2.cls.toNat e.2.slots t.1 t.2) (([] : List Cell), mine)
  let t := takeShared p (63 - r.1.length) r.1 [] r.2
  let sent := (List.range 4).map fun c => tget p.sent c 0 + BitVec.ofNat 32 (classCount t.1 c)
  let f0 : Frame := { crc := 0, seq := p.txSeq, ackd := p.rxSeq - 1, sent := sent,
                      freed := (List.range 4).map fun c => tget p.rxFreed c 0, cells := t.1 }
  let f := { f0 with crc := f0.goodCrc }
  let gone := takenOf k t.1 s.fab.txq
  let s2 := s.setPort k { p with txSeq := p.txSeq + 1, unack := p.unack ++ [f], wire := some f, sent := totals sent }
  { s2 with fab := { s2.fab with
    txq := gone.2
    reqs := s2.fab.reqs.map fun q => if gone.1.contains q.id then { q with sent := s.core.beat } else q } }

/-- At a frame boundary a port that is up sends a frame again, if there is one to be sent again, or else a new one
(14_fabric R318). -/
def State.frameSend (s : State) (k : Nat) : Option State :=
  let p := s.port k
  if !p.up then none
  else match p.again with
    | f :: rest => some (s.setPort k { p with again := rest, wire := some f })
    | [] => some (s.frameNew k)

/-- A port retrains with `n` lanes, and its self-test begins if it waits (18_platform R400); with none it is down. It then
sends again from the first frame not acknowledged; the same happens, with as many lanes as before, when the other end has
found a bad CRC (14_fabric R318, R319; DEDUCED, log 54). -/
def State.linkRetrain (s : State) (k n : Nat) : Option State :=
  if k < 64 ∧ n ≤ 4 - tget s.plat.xlane k 0 ∧ s.plat.rport.contains k then
    some ((s.setPort k { s.port k with up := decide (0 < n), lanes := n, again := (s.port k).unack }).moveFlows.beginTests (· == .port k))
  else none

/-! ## Cells that arrive -/

/-- The cell at a place of the inbox, if no earlier cell of its flow waits. None is acted on before the steward has started
(18_platform R403). -/
def State.rxAt (s : State) (k : Nat) : Option RxCell :=
  match s.fab.inbox[k]? with
  | some c =>
    if !s.plat.started then none
    else if (s.fab.inbox.take k).any fun d => d.cell.src == c.cell.src && d.cell.cls == c.cell.cls then none else some c
  | none => none

def State.cellAt (s : State) (k : Nat) : Option Cell := (s.rxAt k).map (·.cell)

/-- A cell has been acted on: its buffer is free. -/
def State.takeCell (s : State) (k : Nat) : State :=
  match s.fab.inbox[k]? with
  | some c =>
    let p := s.port c.port
    let n := c.cell.cls.toNat
    let s1 := s.setPort c.port { p with rxFreed := tput p.rxFreed n (tget p.rxFreed n 0 + 1) 0 }
    { s1 with fab := { s1.fab with inbox := s1.fab.inbox.eraseIdx k } }
  | none => s

/-- Answer a cell; a reply to a lost package is dropped (14_fabric R327). -/
def State.reply (s : State) (c : Cell) (type : CellType) (bytes : List (Nat × Byte)) (poi : List Nat) : State :=
  if s.fab.lost.contains c.src.toNat then s
  else s.send { s.cell type c.src.toNat with
    asid := c.asid, addr := c.addr, len := c.len, tag := c.tag, bytes := bytes, poi := poi }

/-! ## Performing at the home (14_fabric R324, R325) -/

/-- Bytes written by address, memory line by line. A flag word keeps its other bytes, and its mark unless the write is of
the whole word (12_sync R278; DESIGN CHOICE, log 86). -/
def State.writeBytes (s : State) (bs : List (Nat × Byte)) : State :=
  let isFlag (a : Nat) : Bool := decide (spadBase ≤ a) && area (a - spadBase) == .flags
  let fl := bs.filter fun x => isFlag x.1
  let s1 := (fl.map fun x => x.1 / 4).dedup.foldl (fun s w =>
    s.locWrite (4 * w) ((List.range 4).map fun i => ((fl.reverse.find? fun x => x.1 == 4 * w + i).map (·.2)).getD (s.locByte (4 * w + i)))
      (!(List.range 4).all (fun i => fl.any fun x => x.1 == 4 * w + i) && s.locPoi (4 * w) 4)) s
  s1.writeLines ((bs.filter fun x => !isFlag x.1).map fun x => (x.1, x.2, false))

/-- Units behind some addresses are ready. -/
def State.allReady (s : State) (as : List Nat) : Bool := as.all fun a => s.unitsReady a 1

/-- The number that stands for another package's or the host's writer of an aperture start. -/
def remoteUid : Nat := 2 ^ 64

/-- A remote aperture store joins the starts of its channel. -/
def State.remoteStart (s : State) (x data : Nat) (asid : BitVec 13) (who : Nat × Nat) : State :=
  { s with
    ids := s.ids + 1
    copy := { s.copy with apert := s.copy.apert ++
      [{ id := s.ids, chan := (x - 0x1C010000) / 64, data := BitVec.ofNat 32 data, asid := asid, bank := none,
         uid := remoteUid, rmask := BitVec.allOnes 64, reply := some who }] } }

/-- A store to the aperture is one word at the start of a channel's slot (10_memory R225). -/
def apertureWord (bs : List (Nat × Byte)) : Option (Nat × Nat) :=
  match bs with
  | (a, _) :: _ =>
    if decide (bs.length = 4) && decide (spadBase ≤ a) && area (a - spadBase) = .aperture && (a - spadBase) % 64 == 0 &&
        (bs.map (·.1)) == [a, a + 1, a + 2, a + 3] then some (a - spadBase, leNat (bs.map (·.2)))
    else none
  | [] => none

/-- A posted write cell is checked, performs, and is acknowledged. A granule moved by a lender's recall arrives the same
way (14_fabric R334). -/
def State.writeCell (s : State) (k : Nat) : Option State :=
  match s.rxAt k with
  | some x =>
    let c := x.cell
    match c.type, c.lease with
    | .write, _ =>
      if !s.allReady c.enabled then none
      else
        let s1 := s.takeCell k
        let pass := s.homePass x
        match apertureWord c.bytes with
        | some (x, w) => some (if pass then s1.remoteStart x w c.asid (c.src.toNat, c.tag.toNat) else s1.reply c .error [] [])
        | none =>
          if pass && !(c.enabled.any fun a => decide (spadBase ≤ a) && area (a - spadBase) == .aperture) then
            some ((s1.writeBytes c.bytes).reply c .ack [] [])
          else some (s1.reply c .error [] [])
    | .lease, some (.moved e g blk bs poi) =>
      let l := s.lease e
      let a := l.fbase + 2 ^ 21 * g + 128 * blk
      if !s.unitsReady a 128 then none
      else
        let s1 := s.takeCell k
        if l.lst = .recalling ∧ l.peer = c.src ∧ g < l.gcnt ∧ blk < 16384 then
          let s2 := (s1.memStore a (bs.take 64) (poi.contains 0)).memStore (a + 64) (bs.drop 64) (poi.contains 1)
          let n := tget l.part g 0 + 1
          let l1 := if n = 16384 then { l with moved := sadd l.moved g, part := tdel l.part g } else { l with part := tput l.part g n 0 }
          some ((s2.setLease e l1).reply c .ack [] [])
        else some s1
    | _, _ => none
  | none => none

/-- The marked halves of some bytes of a block. -/
def State.halves (s : State) (as : List Nat) : List Nat :=
  (List.range 2).filter fun h => as.any fun a => a % 128 / 64 == h && s.readPoi a 1

/-- A read request is checked and answered; some lines are found uncorrectable as it reads them (log 106). -/
def State.readRequest (s : State) (k : Nat) (ls : List Nat) : Option State :=
  match s.rxAt k with
  | some x =>
    let c := x.cell
    if c.type = .readReq ∧ s.allReady c.about then
      let s1 := s.takeCell k
      if s.homePass x then
        let gone := s.unitsGone c.addr c.len
        let s2 := if gone then s1.noteGone c.addr else s1.meetLines ls c.addr c.len
        some (s2.reply c .readReply (c.about.map fun a => (a, if gone then 0 else s2.locByte a)) (s2.halves c.about))
      else some (s1.reply c .error [] [])
    else none
  | none => none

/-- The flag area takes the 4-byte integer atomics alone (12_sync R294). -/
def amoFits (a : Nat) (g : AtomicArg) : Bool :=
  !(decide (spadBase ≤ a) && area (a - spadBase) == .flags) || g.aw == 1 || g.aw == 2

/-- A remote atomic is checked and performs as one update; some lines are found uncorrectable as it reads (log 106). -/
def State.atomicRequest (s : State) (k : Nat) (ls : List Nat) : Option State :=
  match s.rxAt k with
  | some x =>
    let c := x.cell
    match c.type, c.atom with
    | .atomicReq, some g =>
      if !s.allReady c.span then none
      else
        let s1 := s.takeCell k
        if s.homePass x && amoFits c.addr g then
          if s.unitsGone c.addr c.len then
            some ((s1.noteGone c.addr).reply c .atomicReply (c.span.map fun a => (a, 0)) [c.addr % 128 / 64])
          else
            let r := (s1.meetLines ls c.addr c.len).amoAt c.addr g false
            some (r.1.reply c .atomicReply (c.span.zip r.2.1) (if r.2.2 then [c.addr % 128 / 64] else []))
        else some (s1.reply c .error [] [])
    | _, _ => none
  | none => none

/-- A copy's flag write arrives after its data (11_copy R264, R265). -/
def State.flagWriteCell (s : State) (k : Nat) : Option State :=
  match s.rxAt k with
  | some x =>
    let c := x.cell
    if c.type = .flagWrite then
      let s1 := s.takeCell k
      let n := flagOf (c.addr - spadBase)
      if s.homePass x && c.span.all fun a => area (a - spadBase) == .flags then
        let s2 := match c.atom with
          | some g => if g.aop = barAop then s1.updFlag n (.bar g.v.toNat 0 (g.c != 0)) else s1.updFlag n .count
          | none => s1.writeBytes c.bytes
        some (s2.reply c .ack [] [])
      else some (s1.reply c .error [] [])
    else none
  | none => none

/-- A posted card reaches the home's scheduler. -/
def State.postCell (s : State) (k : Nat) : Option State :=
  match s.cellAt k with
  | some c =>
    if c.type = .post then
      let s1 := s.takeCell k
      some { s1 with
        ids := s1.ids + 1
        sched := { s1.sched with posts := s1.sched.posts ++
          [{ id := s1.ids, bank := 16, uid := c.src.toNat, seq := c.tag.toNat, pkg := s.pkg, qaddr := c.addr, asid := c.asid,
             priv := false, card := c.bytes.map (·.2), sent := true }] } }
    else none
  | none => none

/-! ## Replies at the requester (14_fabric R324 to R327) -/

def State.reqOf (s : State) (c : Cell) : Option Req := s.fab.reqs.find? fun r => r.tag == some c.tag && r.dst == c.src.toNat

def State.dropReq (s : State) (r : Req) : State := { s with fab := { s.fab with reqs := s.fab.reqs.filter fun x => x.id != r.id } }

/-- The open pieces of an access in the block of its piece `i` receive their data. -/
def Access.setBlock (a : Access) (now i : Nat) (f : RdPiece → List Byte × Bool) : Access :=
  match a.rd[i]? with
  | some q => { a with rd := a.rd.map fun p => if p.got.isNone && p.block == q.block then { p with got := some (f p), at_ := now } else p }
  | none => a

def Access.setDone (a : Access) (i : Nat) : Access :=
  { a with wr := a.wr.zipIdx.map fun x => if x.2 = i then { x.1 with done := true } else x.1 }

/-- A read reply arrives. -/
def State.readReply (s : State) (k : Nat) : Option State :=
  match s.cellAt k with
  | some c =>
    if c.type = .readReply then
      let s1 := s.takeCell k
      match s.reqOf c with
      | some r =>
        match r.why with
        | .load id i =>
          some (((s1.dropReq r).modAccess id fun x =>
            x.setBlock s.core.beat i fun p => (c.at_ p.addr p.len, c.marked p.addr p.len)).settle id)
        | .copyRead d _ =>
          let key (a : Nat) : Nat := r.dst * 2 ^ 48 + a
          some ((s1.dropReq r).modDesc d fun d => { d with
            got := d.got ++ c.bytes.map fun x => (key x.1, x.2)
            gotPoi := d.gotPoi ++ (c.bytes.filter fun x => c.marked x.1 1).map fun x => key x.1 })
        | _ => some s1
      | none => some s1
    else none
  | none => none

/-- An atomic's old value arrives; with mirror mode its new value goes to the fallback (14_fabric R332). -/
def State.atomicReply (s : State) (k : Nat) : Option State :=
  match s.cellAt k with
  | some c =>
    if c.type = .atomicReply then
      let s1 := s.takeCell k
      match s.reqOf c with
      | some r =>
        match r.why with
        | .atomic id =>
          let home := match s.access id with
            | some a => a.wr.all fun w => w.runs.all fun x => s.unitsReady x.1 x.2.length
            | none => true
          if home then
            match s.access id with
            | some a =>
              let n := match a.rd with
                | p :: _ => p.len
                | [] => 0
              let old := c.at_ r.addr n
              let new := match a.amo with
                | some g => leBytes n (amoNew g.aop g.aw (leNat old) g.v.toNat g.c.toNat)
                | none => []
              let s2 := a.wr.foldl (fun s w => w.runs.foldl (fun s x => s.memStore x.1 new (c.marked r.addr n)) s) (s1.dropReq r)
              some ((s2.modAccess id fun x => { x.setBlock s.core.beat 0 (fun _ => (old, c.marked r.addr n)) with
                wr := x.wr.map fun w => { w with done := true } }).settle id)
            | none => some (s1.dropReq r)
          else none
        | _ => some s1
      | none => some s1
    else none
  | none => none

/-- A cell of a window is answered: `OUT` falls, and `ACKD` rises if it was acknowledged (14_fabric R324). -/
def State.windowAck (s : State) (w : Option Nat) (ok : Bool) : State :=
  match w with
  | some w =>
    let v := s.window w
    s.setWindow w { v with out := v.out - 1, ackd := if ok then v.ackd + 1 else v.ackd, fail := v.fail || !ok }
  | none => s

/-- A window store's or copy's write of mirrored bytes, acknowledged by the lender, is written to the fallback
(14_fabric R332, 15_ordering R358). -/
def Req.mirror (r : Req) (s : State) : List (Nat × List Byte) :=
  match r.why with
  | .write id i =>
    match (s.access id).bind fun a => a.wr[i]? with
    | some p => match p.fall with
      | some d => p.runs.map fun x => (((x.1 : Int) + d).toNat, x.2)
      | none => []
    | none => []
  | .copyWrite _ _ m => m.map fun x => (x.1, [x.2])
  | _ => []

/-- The window of a write piece. -/
def State.pieceWindow (s : State) (id i : Nat) : Option Nat := (s.access id).bind fun a => (a.wr[i]?).bind (·.win)

/-- Land the result of a POST (13_jobs R313). -/
def State.landPost (s : State) (id : Nat) (v : Word) : State :=
  match s.sched.posts.find? fun p => p.id == id with
  | some p =>
    ({ s with sched := { s.sched with posts := s.sched.posts.filter fun x => x.id != id } } : State).answer p.uid p.bank id v
  | none => s

/-- An acknowledgement arrives. -/
def State.ackCell (s : State) (k : Nat) : Option State :=
  match s.cellAt k with
  | some c =>
    if c.type = .ack then
      let s0 := s.takeCell k
      match s.reqOf c with
      | some r =>
        let m := r.mirror s
        if !(m.all fun x => s.unitsReady x.1 x.2.length) then none
        else
          let s1 := m.foldl (fun t x => t.memStore x.1 x.2 false) s0
          match r.why with
          | .write id i => some ((((s1.dropReq r).windowAck (s.pieceWindow id i) true).modAccess id (·.setDone i)).settle id)
          | .move e g =>
            let s2 := s1.dropReq r
            some (if s2.fab.reqs.any fun x => x.why == .move e g then s2
              else s2.setLease e { s2.lease e with moved := sadd (s2.lease e).moved g })
          | .post _ => none
          | _ => some (s1.dropReq r)
      | none => some s0
    else none
  | none => none

/-- The answer to a POST of another package's queue arrives: an acknowledgement that carries the result. -/
def State.postReply (s : State) (k : Nat) : Option State :=
  match s.cellAt k with
  | some c =>
    if c.type = .ack then
      match s.reqOf c with
      | some r =>
        match r.why with
        | .post id => some (((s.takeCell k).dropReq r).landPost id (BitVec.ofNat 64 (leNat (c.bytes.map (·.2)))))
        | _ => none
      | none => none
    else none
  | none => none

/-- The error a reply brings to a copy. -/
def State.copyHit (s : State) (d code : Nat) : State := s.modDesc d fun d => { d with err := some (d.err.getD code) }

/-- An error reply arrives (14_fabric R326). -/
def State.errorReply (s : State) (k : Nat) : Option State :=
  match s.cellAt k with
  | some c =>
    if c.type = .error then
      let s1 := s.takeCell k
      match s.reqOf c with
      | some r =>
        let s0 := s1.dropReq r
        let s2 := s0.ventNote 0x1A none c.addr (c.asid.toNat + c.src.toNat * 2 ^ 16)
        match r.why with
        | .load id i =>
          some ((s2.modAccess id fun a => { a.setBlock s.core.beat i (fun p => (List.replicate p.len 0, true)) with bad := true }).settle id)
        | .atomic id => some ((s2.modAccess id fun a => a.fail s.core.beat fun _ => true).settle id)
        | .write id i => some (((s2.windowAck (s.pieceWindow id i) false).modAccess id (·.setDone i)).settle id)
        | .copyRead d _ => some (s2.copyHit d 0x1A)
        | .copyWrite d _ _ => some (s2.copyHit d 0x1A)
        | .post id => some (s2.landPost id 0xFFFFFFFFFFFFFFFE)
        | _ => some s2
      | none => some s1
    else none
  | none => none

/-! ## Events -/

def execFrameReceived (s : State) : Res :=
  s.event (match s.arg with
    | .frame k f => s.frameReceived k f
    | _ => none)


def execLinkRetraining (s : State) : Res :=
  s.event (match s.arg with
    | .two k n => s.linkRetrain k n
    | _ => none)

def execWriteCell (s : State) : Res := s.event ((argId s.arg).bind s.writeCell)
def execReadRequest (s : State) : Res := s.event ((argArrival s.arg).bind fun x => s.readRequest x.1 (arrivalLines x.2))
def execReadReply (s : State) : Res := s.event ((argId s.arg).bind s.readReply)
def execAtomicRequest (s : State) : Res := s.event ((argArrival s.arg).bind fun x => s.atomicRequest x.1 (arrivalLines x.2))
def execAtomicReply (s : State) : Res := s.event ((argId s.arg).bind s.atomicReply)
def execErrorReply (s : State) : Res := s.event ((argId s.arg).bind s.errorReply)
def execFlagWriteCell (s : State) : Res := s.event ((argId s.arg).bind s.flagWriteCell)
def execPostCell (s : State) : Res := s.event ((argId s.arg).bind s.postCell)
def execPostReply (s : State) : Res := s.event ((argId s.arg).bind s.postReply)

def execLongLoadArrival (s : State) : Res := s.event ((argArrival s.arg).bind fun x => s.longLoadArrival x.1 x.2)
def execStorePerformed (s : State) : Res := s.event ((argArrival s.arg).bind fun x => s.storePerformed x.1 x.2)

end Sys2Proof.Machine
end

