-- ==== Sys2Proof/Machine/Lease.lean ====
section
/-! DEFINITION. The lease agent, reservations, windows and grants (14_fabric R321 to R343), and the loss of a package
(R327, R337). -/

namespace Sys2Proof.Machine

/-! ## Ops of the agent (14_fabric R339) -/

/-- The logic takes one op of each kind at a time. -/
def agentKind : Instr → Nat
  | .loffer .. => 0
  | .lacc .. => 1
  | .lrcl _ => 2
  | .ldisc _ => 3
  | .lret .. => 4
  | .lqry _ => 5
  | .frsv .. => 6
  | .frel .. => 7
  | _ => 8

/-- An op lands its result and leaves. -/
def State.finishOp (s : State) (o : AgentOp) (v : Word) : State :=
  ({ s with fab := { s.fab with agent := s.fab.agent.filter fun x => x.id != o.id } } : State).answer o.uid o.bank o.id v

def State.failOp (s : State) (o : AgentOp) (st : Nat) : State := s.finishOp o (statusWord st)

def State.modOp (s : State) (id : Nat) (f : AgentOp → AgentOp) : State :=
  { s with fab := { s.fab with agent := s.fab.agent.map fun x => if x.id = id then f x else x } }

/-- The op in progress that satisfies a test. -/
def State.opFor (s : State) (f : AgentOp → Bool) : Option AgentOp := s.fab.agent.find? fun o => o.began && f o

/-- A field of an op's block. -/
def AgentOp.field (o : AgentOp) (ofs n : Nat) : Nat := leNat ((o.blk.drop ofs).take n)

/-- Bytes of a block that must be 0. -/
def AgentOp.zeros (o : AgentOp) (ofs : Nat) : Bool := (o.blk.drop ofs).all (· == 0)

/-! ## Page tables of a lease (14_fabric R331) -/

/-- The level-4 table of an address, through valid tables. -/
def State.tableFrom (s : State) (va : Nat) : List Nat → Nat → Option Nat
  | [], t => if t % 4096 ≠ 0 ∨ !inHbm t 4096 then none else some t
  | sh :: rest, t =>
    let a := t + 8 * bitsOf va sh 9
    if t % 4096 ≠ 0 ∨ !inHbm t 4096 ∨ s.readPoi a 8 then none
    else
      let e := s.rd 8 a
      if !pteBit e 0 ∨ pteBit e 8 ∨ e % 4096 ≠ 1 ∨ 2 ^ 58 ≤ e then none else s.tableFrom va rest (e - 1)

/-- Where the level-4 entry of an address lies. -/
def State.ptePlace (s : State) (asid : BitVec 13) (va : Nat) : Option Nat :=
  (s.tableFrom va [48, 39, 30] (tget s.ms.ptb asid.toNat 0).toNat).map fun t => t + 8 * bitsOf va 21 9

def Lease.granules (l : Lease) : List Nat := List.range l.gcnt

/-- The virtual address and fallback of a granule. -/
def Lease.va (l : Lease) (g : Nat) : Nat := l.vbase + 2 ^ 21 * g

def Lease.fall (l : Lease) (g : Nat) : Nat := l.fbase + 2 ^ 21 * g

/-- Rewrite the PTEs of some granules. -/
def State.editPtes (s : State) (l : Lease) (gs : List Nat) (f : Nat → Nat → Nat) : State :=
  gs.foldl (fun s g => match s.ptePlace l.asid (l.va g) with
    | some a => s.setPte l.asid (l.va g) a (f g (s.rd 8 a))
    | none => s) s

/-- A PTE of a borrowed granule. -/
def newPte (k : Nat) (l : Lease) (g : Nat) : Nat :=
  1 + 2 + 2 * 8 + (if l.mir then 128 else 0) + (l.peer.toNat * 2 ^ 48 + (l.base + 2 ^ 21 * g)) + k * 2 ^ 58

/-- A PTE with its frame in this package, mirror mode off (DEDUCED, log 24), and other bits changed. -/
def State.repoint (s : State) (e a lc : Nat) (lease dis : Nat) : Nat :=
  e % 8 + lc * 8 + e / 32 % 2 * 32 + dis * 64 + e / 256 % 4 * 256 + (s.pkg * 2 ^ 48 + a) + lease * 2 ^ 58

/-- Set or clear `D` of some granules. -/
def State.setDisc (s : State) (k : Nat) (gs : List Nat) (on : Bool) : State :=
  let l := s.lease k
  let s1 := s.editPtes l gs fun _ e => if on then e ||| 64 else e - (e / 64 % 2) * 64
  s1.setLease k { s1.lease k with disc := gs.foldl (fun d g => sset d g on) l.disc }

/-- Write zeros, with marks clear. -/
def State.zeroRange (s : State) (a n : Nat) : State := s.memStore a (List.replicate n 0) false

/-- Write poison into every line of a range; the bytes are open (log 12). -/
def State.poisonRange (s : State) (a n : Nat) : State := { s.memStore a (s.freeBytes n) true with free := s.free + 1 }

/-! ## Notices (14_fabric R338) -/

def le3 (n : Nat) : List Nat := [n % 256, n / 256 % 256, n / 65536 % 256]

/-- Notice 0x80 to every job in flight of the lease's ASID. -/
def State.demote (s : State) (k reason : Nat) : State :=
  let l := s.lease k
  (s.sched.jobs.filter fun j => j.disp.isSome && (s.qdesc j.qaddr).qasid == l.asid.toNat).foldl
    (fun s j => s.notify j 0x80 (([k, reason] ++ le3 l.lost.length ++ [0, 0]).map fun d => BitVec.ofNat 8 d)) s

/-! ## Ends of a recall (14_fabric R334, R335, R337) -/

/-- Step 6 at the borrower: some granules are LOST, the PTEs name the fallback, and the entry is RETURNED. -/
def State.toFallback (s : State) (k : Nat) (unmoved : List Nat) (reason : Nat) : State :=
  let l := s.lease k
  let s1 := unmoved.foldl (fun s g => s.poisonRange (l.fall g) (2 ^ 21)) s
  let s2 := s1.editPtes l l.granules fun g e => s1.repoint e (l.fall g) 1 k (e / 64 % 2)
  -- the lender answers no zeroing that it was asked for before
  let s3 := (s2.answered l.peer.toNat fun m => match m with
    | .zeroGranule n _ => n == l.pidx.toNat
    | _ => false).setLease k { s2.lease k with
    lst := .returned, lost := unmoved, reason := reason, dzero := [],
    rbeats := if l.lst = .recalling then s.core.beat - l.start else l.rbeats }
  s3.demote k reason

/-- A lent entry becomes RETURNED: its flag is written, and the job that recalled it is told. -/
def State.lentBack (s : State) (k : Nat) (lost : List Nat) : State :=
  let l := s.lease k
  let s1 := s.setLease k { l with
    lst := .returned, lost := lost, dline := none, rbeats := if l.lst = .recalling then s.core.beat - l.start else l.rbeats }
  if l.lst = .recalling then
    let s2 := if l.flag = 0 then s1 else s1.setFlag l.flag ⟨1, false⟩
    match l.who with
    | some u => s2.notifyUid u 0x81 ([k, 0] ++ le3 lost.length ++ [0, 0])
    | none => s2
  else s1

/-- The granules that a recall moves, as the lender knows them. -/
def Lease.toMove (l : Lease) : List Nat := if l.mir then [] else l.granules.filter fun g => !l.disc.contains g

/-- The deadline (14_fabric R335). -/
def Lease.deadline (l : Lease) : Nat :=
  let b := 2 ^ 21 * (if l.discSet then l.toMove.length else if l.mir then 0 else l.gcnt)
  l.since + 2 ^ 22 + (b + 191) / 192

/-- Granules not moved when a lent entry's deadline passes. -/
def Lease.unmoved (l : Lease) : List Nat := l.toMove.filter fun g => !l.moved.contains g

/-- Granules that a lender whose borrower is lost has not moved (14_fabric R337). -/
def Lease.unreturned (l : Lease) : List Nat := l.granules.filter fun g => !l.moved.contains g && !(l.discSet && l.disc.contains g)

/-- A recall begins at the lender; its deadline counts from the issue of its LRCL, or from now (14_fabric R335). -/
def State.startRecall (s : State) (k : Nat) (o : Option AgentOp) (flag : Nat) : State :=
  let l := s.lease k
  let job := o.bind fun o => if o.bank = 15 then none else some o.uid
  let l1 := { l with
    lst := .recalling, start := s.core.beat, since := (o.map AgentOp.issued).getD s.core.beat, flag := flag, who := job, whoBank := 0, discSet := false, moved := [], disc := [],
    lost := [], part := [] }
  (s.setLease k { l1 with dline := some l1.deadline }).askLease l.peer.toNat l.asid (.recall l.pidx.toNat)

/-- Recalls that this package runs as lender or receives as borrower. -/
def State.recalls (s : State) (lender : Bool) : Nat :=
  (s.fab.leases.filter fun e => decide (64 ≤ e.1) == lender && e.2.lst == .recalling).length

/-! ## What each op does when its turn comes -/

/-- LOFFER (14_fabric R330, R341). -/
def State.runLoffer (s : State) (o : AgentOp) : State :=
  let base := o.field 0 8
  let n := o.field 8 4
  let g := o.field 12 2
  let fl := o.field 16 2
  let bad := base % 2 ^ 21 != 0 || n == 0 || decide (65536 < n) || decide (1024 ≤ g) || decide (1 < o.field 14 1) ||
    o.field 15 1 != 0 || decide (4094 ≤ fl) || !o.zeros 18
  if bad || !inHbm base (2 ^ 21 * n) || s.fab.leases.any fun e => decide (64 ≤ e.1) && e.2.lst != .free &&
      overlaps base (2 ^ 21 * n) e.2.base (leaseBytes e.2) then s.failOp o 0x02
  else match (List.range 127).find? fun k => decide (64 ≤ k) && (s.lease k).lst == .free with
    | none => s.failOp o 0x01
    | some k =>
      if s.fab.lost.contains g then s.failOp o 0x03
      else (s.modOp o.id fun o => { o with ent := k }).askLease g o.asid (.offer k n (o.field 14 1 == 1) base (BitVec.ofNat 12 fl))

/-- LACC (14_fabric R331, R342). -/
def State.runLacc (s : State) (o : AgentOp) : State :=
  let k := o.field 0 1
  let acc := o.field 1 1
  let asid := o.field 2 2
  let fb := o.field 8 8
  let vb := o.field 16 8
  let l := s.lease k
  if decide (1 < acc) || decide (8192 ≤ asid) || o.field 4 4 != 0 || !o.zeros 24 || k == 0 || decide (64 ≤ k) || vb % 2 ^ 21 != 0 ||
      decide (2 ^ 57 ≤ vb) then s.failOp o 0x02
  else if l.lst ≠ .offered then s.failOp o 0x05
  else if s.fab.lost.contains l.peer.toNat then s.failOp o 0x03
  else if acc = 0 then
    ((s.setLease k Lease.zero).sendLease l.peer.toNat o.asid (.acceptance l.pidx.toNat false 0)).finishOp o (BitVec.ofNat 64 k)
  else
    let n := leaseBytes l
    let l1 := { l with asid := BitVec.ofNat 13 asid, fbase := fb, vbase := vb, accept := true, zLender := false, zFall := !l.mir }
    if fb % 2 ^ 21 ≠ 0 ∨ !inTier2 fb n ∨ s.fab.leases.any fun e => decide (e.1 < 64) && e.1 != k && e.2.reserves && overlaps fb n e.2.fbase (leaseBytes e.2)
    then s.failOp o 0x06
    else if l.granules.any fun g => match s.ptePlace l1.asid (l1.va g) with
        | some a => decide (2 ^ 57 ≤ l1.va g) || s.readPoi a 8 || pteBit (s.rd 8 a) 0
        | none => true then s.failOp o 0x07
    -- the frames of the reservation have no leaf from here on, so what the translation unit holds of them goes (R329)
    else (((s.setLease k l1).revokeFrames fb n).modOp o.id fun o => { o with ent := k }).askLease l.peer.toNat
      l1.asid (.acceptance l.pidx.toNat true fb)

/-- LRCL (14_fabric R334, R335). -/
def State.runLrcl (s : State) (o : AgentOp) : State :=
  let k := o.xa.toNat
  let l := s.lease k
  if k < 64 ∨ 126 < k then s.failOp o 0x02
  else if l.lst ≠ .active then s.failOp o 0x05
  else if 8 ≤ s.recalls true then s.failOp o 0x09
  else if s.fab.lost.contains l.peer.toNat then s.failOp o 0x03
  else (s.startRecall k (some o) (o.xb.toNat % 4096)).modOp o.id fun o => { o with ent := k }

/-- LDISC (14_fabric R333). -/
def State.runLdisc (s : State) (o : AgentOp) : State :=
  let va := o.xa.toNat
  let n := o.xb.toNat
  let hit := s.fab.leases.find? fun e => decide (e.1 < 64) && !(e.2.lst == .free || e.2.lst == .offered) && e.2.asid == o.asid &&
    decide (e.2.vbase ≤ va) && decide (va + 2 ^ 21 * n ≤ e.2.vbase + leaseBytes e.2)
  if va % 2 ^ 21 ≠ 0 ∨ n = 0 ∨ 65536 < n then s.failOp o 0x02
  else match hit with
    | none => s.failOp o 0x02
    | some e =>
      if e.2.lst ≠ .active then s.failOp o 0x05
      else (s.setDisc e.1 ((List.range n).map fun i => (va - e.2.vbase) / 2 ^ 21 + i) true).finishOp o (BitVec.ofNat 64 n)

/-- A RETURNED or DEAD borrowed entry is given up: its discarded granules are zero, its PTEs name the fallback as
ordinary memory, and its reservation ends (14_fabric R336). -/
def State.freeLease (s : State) (k : Nat) : State :=
  let l := s.lease k
  let s1 := l.disc.foldl (fun s g => s.zeroRange (l.fall g) (2 ^ 21)) s
  let s2 := s1.editPtes l l.granules fun g e => s1.repoint e (l.fall g) (e / 8 % 4) 0 0
  s2.setLease k Lease.zero

/-- LRET (14_fabric R336). -/
def State.runLret (s : State) (o : AgentOp) (drop : Bool) : State :=
  let k := o.xa.toNat
  let l := s.lease k
  let done := BitVec.ofNat 64 k
  if k = 0 ∨ 126 < k then s.failOp o 0x02
  else if 64 ≤ k then (if l.lst = .returned then (s.setLease k Lease.zero).finishOp o done else s.failOp o 0x05)
  else match l.lst with
    | .offered =>
      -- a LACC that waits for this entry's zeroing ends with the entry in the wrong state (DESIGN CHOICE, log 57)
      let s1 := (s.setLease k Lease.zero).sendLease l.peer.toNat o.asid (.acceptance l.pidx.toNat false 0)
      let s2 := match (if l.accept then s.opFor fun x => agentKind x.op == 1 && x.ent == k else none) with
        | some x => s1.failOp x 0x05
        | none => s1
      s2.finishOp o done
    | .active =>
      if s.fab.lost.contains l.peer.toNat then s.failOp o 0x03
      else
        let s1 := if drop then s.setDisc k l.granules true else s
        (s1.modOp o.id fun o => { o with ent := k }).askLease l.peer.toNat l.asid (.recallRequest l.pidx.toNat)
    | .returned | .dead =>
      if l.disc = [] then (s.freeLease k).finishOp o done else s.modOp o.id fun o => { o with ent := k }
    | _ => s.failOp o 0x05

/-- The 48 bytes of an entry (14_fabric R343). The lender has its ASID from the acceptance. -/
def State.leaseRecord (s : State) (k : Nat) : List Byte :=
  let l := s.lease k
  let far := decide (k < 64)
  let live := l.lst != .free
  leBytes 8 l.word.toNat ++
  leBytes 8 (if live then (if far then l.peer.toNat else s.pkg) * 2 ^ 48 + l.base else 0) ++
  leBytes 8 (if far then l.fbase else 0) ++ leBytes 8 (if far then l.vbase else 0) ++ leBytes 2 l.asid.toNat ++
  leBytes 2 0 ++ leBytes 4 l.disc.length ++ leBytes 4 l.rbeats ++ leBytes 4 0

/-- LQRY (14_fabric R343). -/
def State.runLqry (s : State) (o : AgentOp) : State :=
  let k := o.xa.toNat
  if k = 0 ∨ 126 < k then s.failOp o 0x02
  else (s.locWrite (spadBase + o.xb.toNat) (s.leaseRecord k) false).finishOp o (BitVec.ofNat 64 (s.lease k).lst.num)

/-- FRSV (14_fabric R321). -/
def State.runFrsv (s : State) (o : AgentOp) : State :=
  let w := o.xa.toNat
  let dst := w % 1024
  let cls := w / 1024 % 4
  let n := w / 4096 % 64
  if w / 2 ^ 18 ≠ 0 ∨ n = 0 ∨ 48 < n then s.failOp o 0x02
  else match (List.range 256).find? fun k => k != 0 && (tfind s.fab.resv k).isNone with
    | none => s.failOp o 0x01
    | some k =>
      let port := s.cellPort dst cls
      if s.fab.lost.contains dst then s.failOp o 0x03
      else if 48 < s.reservedOn port + n then s.failOp o 0x08
      else
        let r : Resv := { dst := BitVec.ofNat 10 dst, cls := BitVec.ofNat 2 cls, slots := n, port := port, held := false }
        (({ s with fab := { s.fab with resv := tins s.fab.resv k r } } : State).modOp o.id fun o => { o with ent := k }).request
          { s.cell .resv dst with asid := o.asid, lease := some (.reserve cls n) } (.resv k)

/-- FREL (14_fabric R339). -/
def State.runFrel (s : State) (o : AgentOp) : State :=
  let k := o.xa.toNat
  let s1 : State := if k < 256 ∧ ((tfind s.fab.resv k).map (·.held)) = some true then
      { s with fab := { s.fab with resv := tdel s.fab.resv k } } else s
  s1.finishOp o 0

/-- A WSET block that its kind allows (14_fabric R340). -/
def AgentOp.wsetOk (o : AgentOp) : Bool :=
  let kind := o.field 0 1
  let ix := o.field 1 1
  let pkg := o.field 2 2
  let asid := o.field 4 2
  let lim := o.field 6 2
  let base := o.field 8 8
  let size := o.field 16 8
  o.zeros 25 &&
  (if kind = 0 then decide (ix < 16) && decide (pkg < 1024) && decide (asid < 8192) && decide (lim < 32768) && base % 2 ^ 25 == 0 &&
      decide (base < 2 ^ 32) && size == 0 && o.field 24 1 == 0
   else if kind = 1 then decide (ix < 64) && pkg / 1024 % 32 == 0 && decide (asid < 8192) && decide (lim < 16) && size % 4096 == 0 &&
      decide (o.field 24 1 < 2)
   else if kind = 2 then ix == 0 && decide (pkg < 1024) && asid == 0 && lim == 0 && base == 0 && size == 0 && o.field 24 1 == 0
   else false)

/-- WSET (14_fabric R340): a grant or a revival applies at once; a window waits. -/
def State.runWset (s : State) (o : AgentOp) : State :=
  let ix := o.field 1 1
  let pkg := o.field 2 2
  let lim := o.field 6 2
  if !o.wsetOk then s.failOp o 0x02
  else if o.field 0 1 = 0 then s
  else if o.field 0 1 = 1 then
    let g : Grant :=
      { any := decide (32768 ≤ pkg), pkg := BitVec.ofNat 10 pkg, asid := BitVec.ofNat 13 (o.field 4 2),
        rd := lim.testBit 0, wr := lim.testBit 1, at_ := lim.testBit 2, ap := lim.testBit 3, base := o.field 8 8,
        size := o.field 16 8, local_ := o.field 24 1 == 1 }
    let t := if o.field 16 8 = 0 then tdel s.fab.grants ix else tins s.fab.grants ix g
    ({ s with fab := { s.fab with grants := t } } : State).finishOp o 0
  else
    ({ s with
      fab := { s.fab with lost := sdel s.fab.lost pkg }
      ms := { s.ms with hostLost := s.ms.hostLost && pkg != s.pkg } } : State).finishOp o 0

/-- The work of an op whose turn has come. -/
def State.runOp (s : State) (o : AgentOp) : State :=
  match o.op with
  | .loffer .. => s.runLoffer o
  | .lacc .. => s.runLacc o
  | .lrcl _ => s.runLrcl o
  | .ldisc _ => s.runLdisc o
  | .lret _ _ _ drop => s.runLret o drop
  | .lqry _ => s.runLqry o
  | .frsv .. => s.runFrsv o
  | .frel .. => s.runFrel o
  | .wset .. => s.runWset o
  | _ => s

/-- Ops whose turn has come begin, in issue order. -/
def State.agentKick (s : State) : State :=
  s.fab.agent.foldl (fun s o =>
    match s.fab.agent.find? fun x => agentKind x.op == agentKind o.op with
    | some x => if x.id = o.id ∧ !x.began then (s.modOp o.id fun o => { o with began := true }).runOp x else s
    | none => s) s

/-! ## The ops at issue (14_fabric R339) -/

/-- An op of the agent: its scalars, its result, whether it is privileged, the block it reads, and its other causes and
waits. -/
def agentSem (p : Path) (op : Instr) (priv : Bool) (xs : List XReg) (xd : XReg) (blk : Option (Nat × Nat))
    (cause : State → Nat → Option Ev) (wait : State → Nat → Option Nat) : OpSem :=
  let xa := xs.headD 0
  { path := p
    priv := priv
    reads := fun _ _ => xs.map fun n => .x n.toNat
    writes := fun _ _ => [(.x xd.toNat, none)]
    hold := wait
    fault := fun s b =>
      let c := s.ctx b
      let a := (c.xw xa).toNat
      (poisonedX c xs).orElse fun _ =>
      (match blk with
        | some (al, n) => if a % al = 0 ∧ s.hearthOk c a n then none else some (protAt c a)
        | none => none).orElse fun _ => cause s b
    act := fun pre b s0 =>
      let c := pre.ctx b
      let s := if blk.isSome || agentKind op == 5 then s0.amosFlush else s0
      let o : AgentOp :=
        { id := s.ids
          bank := b
          uid := c.uid
          op := op
          xa := c.xw xa
          xb := c.xw (xs.getD 1 0)
          asid := c.asid
          issued := pre.core.beat
          ent := 0
          began := false
          blk := match blk with
            | some (_, n) => s.locRead (spadBase + (c.xw xa).toNat) n
            | none => [] }
      let s1 := s.lockReg b (.x xd.toNat) s.ids
      ({ s1 with ids := s1.ids + 1, fab := { s1.fab with agent := s1.fab.agent ++ [o] } } : State).agentKick }

def noCause (_ : State) (_ : Nat) : Option Ev := none

def noWait (_ : State) (_ : Nat) : Option Nat := none

/-- The waits of an op that reads its block as it issues: a FENCE that covers the read, and what acquires (15_ordering R353). -/
def State.blockWait (s : State) (b : Nat) : Option Nat := lowest (s.fenceWait b true false) (s.acquiring b)

/-- LOFFER (14_fabric R330, R341). -/
def lofferSem (p : Path) (xa xd : XReg) : OpSem := agentSem p (.loffer p xa xd) true [xa] xd (some (32, 32)) noCause State.blockWait

/-- LACC (14_fabric R331, R342). -/
def laccSem (p : Path) (xa xd : XReg) : OpSem := agentSem p (.lacc p xa xd) true [xa] xd (some (32, 32)) noCause State.blockWait

/-- LRCL (14_fabric R334, R335). -/
def lrclSem (o : SyOp) : OpSem := agentSem o.path (.lrcl o) true [o.xa, o.xb] o.xd none noCause noWait

/-- LDISC (14_fabric R333): it acts as a store, so it follows the context's earlier accesses (15_ordering R347, R351;
DEDUCED, log 25). -/
def ldiscSem (o : SyOp) : OpSem :=
  agentSem o.path (.ldisc o) false [o.xa, o.xb] o.xd none noCause fun s b =>
    lowest (s.fenceWait b false true) (lowest (s.acquiring b) (if s.allPerformed (s.ctx b).uid s.seq then none else some 7))

/-- LRET (14_fabric R336). -/
def lretSem (p : Path) (xa xd : XReg) (drop : Bool) : OpSem :=
  agentSem p (.lret p xa xd drop) true [xa] xd none noCause noWait

/-- LQRY (14_fabric R339, R343), whose record is a write (15_ordering R351, R353). -/
def lqrySem (o : SyOp) : OpSem :=
  agentSem o.path (.lqry o) false [o.xa, o.xb] o.xd none
    (fun s b =>
      let c := s.ctx b
      let a := (c.xw o.xb).toNat
      let k := (c.xw o.xa).toNat
      let l := s.lease k
      if a % 16 ≠ 0 ∨ !s.hearthOk c a 48 then some (protAt c a)
      else if !c.priv && (k == 0 || decide (64 ≤ k) || l.lst == .free || l.lst == .offered || l.asid != c.asid) then some (protAt c 0)
      else none)
    State.flagWriteWait

/-- FRSV (14_fabric R321). -/
def frsvSem (p : Path) (xa xd : XReg) : OpSem := agentSem p (.frsv p xa xd) true [xa] xd none noCause noWait

/-- FREL (14_fabric R321). -/
def frelSem (p : Path) (xa : XReg) : OpSem := agentSem p (.frel p xa) true [xa] 0 none noCause noWait

/-- WSET (14_fabric R340). -/
def wsetSem (p : Path) (xa xd : XReg) : OpSem := agentSem p (.wset p xa xd) true [xa] xd (some (32, 32)) noCause State.blockWait

/-! ## Windows and reservations -/

/-- The oldest window change applies once its window's `OUT` is 0 (14_fabric R340). -/
def State.windowChange (s : State) : Option State :=
  match s.opFor fun o => agentKind o.op == 8 with
  | some o =>
    let w := o.field 1 1
    let v := s.window w
    if v.out = 0 then
      let lim := o.field 6 2
      some (((s.setWindow w { v with
        cfg := decide (lim ≠ 0), pbase := BitVec.ofNat 7 (o.field 8 8 / 2 ^ 25), peer := BitVec.ofNat 10 (o.field 2 2),
        wasid := BitVec.ofNat 13 (o.field 4 2), lim := lim, fail := false }).finishOp o 0).agentKick)
    else none
  | none => none

/-- The hops answer a reservation cell that has been sent: each has granted the slots, or one has refused. A refusal of a
reservation that is held ends it: the other end has been through a warm reset (14_fabric R321). -/
def State.resvReply (s : State) (k : Nat) (ok : Bool) : Option State :=
  match tfind s.fab.resv k with
  | some r =>
    let t := if ok then tins s.fab.resv k { r with held := true } else tdel s.fab.resv k
    let s1 : State := { s with fab := { s.fab with resv := t, reqs := s.fab.reqs.filter fun q => q.why != .resv k } }
    if r.held then (if ok then none else some s1)
    else if s.fab.txq.any fun c => s.fab.reqs.any fun q => c.req == some q.id && q.why == .resv k then none
    else match s.opFor fun o => agentKind o.op == 6 && o.ent == k with
      | some o => some ((s1.finishOp o (if ok then BitVec.ofNat 64 k else statusWord 0x08)).agentKick)
      | none => some s1
  -- it ended while its cell was on the way
  | none => (s.opFor fun o => agentKind o.op == 6 && o.ent == k).map fun o => (s.failOp o 0x08).agentKick

/-- A reservation cell of another package arrives: the slots it asks for are of the ports on its way, and its end takes the
cell and acknowledges it (DESIGN CHOICE, log 54). -/
def State.resvCell (s : State) (k : Nat) : Option State :=
  match s.cellAt k with
  | some c => if c.type = .resv then some ((s.takeCell k).reply c .ack [] []) else none
  | none => none

/-! ## Messages of the lease agents -/

/-- A lease message at a place of the inbox. -/
def State.msgAt (s : State) (k : Nat) : Option (Nat × LeaseMsg) :=
  match s.cellAt k with
  | some c => if c.type = .lease then c.lease.map fun m => (c.src.toNat, m) else none
  | none => none

/-- The ASID that it bears. -/
def State.msgAsid (s : State) (k : Nat) : BitVec 13 := ((s.cellAt k).map (·.asid)).getD 0

/-- The entry of a message is held with the package that sent it; other messages are dropped (14_fabric R326). -/
def State.fromPeer (s : State) (src k : Nat) : Bool := (s.lease k).peer.toNat == src && (s.lease k).lst != .free

/-- An offer arrives at the borrower (14_fabric R330). -/
def State.leaseOffer (s : State) (k : Nat) : Option State :=
  match s.msgAt k with
  | some (src, .offer lent n mir base fl) =>
    let s1 := s.takeCell k
    some (match (List.range 64).find? fun e => e != 0 && (s.lease e).lst == .free with
      | some e =>
        let s2 := s1.setLease e { Lease.zero with
          lst := .offered, mir := mir, peer := BitVec.ofNat 10 src, gcnt := n, pidx := BitVec.ofNat 7 lent, base := base, bflag := fl.toNat }
        let s3 := if fl = 0 then s2 else s2.updFlag fl.toNat .count
        s3.sendLease src (s.msgAsid k) (.offerAnswer lent (some e))
      | none => s1.sendLease src (s.msgAsid k) (.offerAnswer lent none))
  | _ => none

/-- The answer to an offer arrives at the lender (14_fabric R330): the range is lent. -/
def State.offerAnswer (s : State) (k : Nat) : Option State :=
  match s.msgAt k with
  | some (src, .offerAnswer lent ans) =>
    let s1 := (s.takeCell k).answered src fun m => match m with
      | .offer k _ _ _ _ => k == lent
      | _ => false
    match s.opFor fun o => agentKind o.op == 0 && o.ent == lent && o.field 12 2 == src with
    | some o =>
      match ans with
      | some e =>
        let base := o.field 0 8
        let n := o.field 8 4
        let s2 := s1.setLease lent { Lease.zero with
          lst := .offered, mir := o.field 14 1 == 1, peer := BitVec.ofNat 10 src, gcnt := n, pidx := BitVec.ofNat 7 e, base := base }
        some (((s2.revokeFrames base (2 ^ 21 * n)).finishOp o (BitVec.ofNat 64 lent)).agentKick)
      | none => some ((s1.failOp o 0x04).agentKick)
    | none => some s1
  | _ => none

/-- The lender receives an acceptance, and zeroes the range, or a decline (14_fabric R331). -/
def State.leaseAcceptance (s : State) (k : Nat) : Option State :=
  match s.msgAt k with
  | some (src, .acceptance lent acc fb) =>
    let s1 := s.takeCell k
    let l := s.lease lent
    if !s.fromPeer src lent || !(l.lst == .offered || (l.lst == .active && !acc)) then some s1
    else if acc then
      if s.unitsReady l.base (leaseBytes l) then
        some (((s1.zeroRange l.base (leaseBytes l)).setLease lent { l with lst := .active, asid := s.msgAsid k, fbase := fb }).sendLease src
          (s.msgAsid k) (.zeroed l.pidx.toNat none))
      else none
    else some (s1.setLease lent Lease.zero)
  | _ => none

/-- The borrower maps an accepted lease once the lender, and in mirror mode itself, have zeroed (14_fabric R331). -/
def State.mapLease (s : State) (e : Nat) : State :=
  let l := s.lease e
  if l.accept && l.zLender && l.zFall then
    let l1 := { l with lst := .active, accept := false }
    let s1 := (s.setLease e l1).editPtes l1 l1.granules fun g _ => newPte e l1 g
    match s1.opFor fun o => agentKind o.op == 1 && o.ent == e with
    | some o => (s1.finishOp o (BitVec.ofNat 64 e)).agentKick
    | none => s1
  else s

/-- Stages of a granule whose zeroing has been asked: asked, sent, zero at the lender, zero in the fallback. -/
def zeroStage (g k : Nat) : Nat := g + k * zeroSent

/-- A discarded granule is zero where its lease needs it, and `D` is cleared (14_fabric R332). -/
def State.undiscard (s : State) (e g : Nat) : State :=
  let s1 := s.setDisc e [g] false
  s1.setLease e { s1.lease e with dzero := (s1.lease e).dzero.filter fun x => x % zeroSent != g }

/-- The lender confirms zeroing (14_fabric R331, R332). -/
def State.zeroingConfirmed (s : State) (k : Nat) : Option State :=
  match s.msgAt k with
  | some (src, .zeroed e g) =>
    let l := s.lease e
    let s1 := (s.takeCell k).answered src fun m => g.any fun g => m == .zeroGranule l.pidx.toNat g
    if !s.fromPeer src e then some s1
    else match g with
      | none => some (((s1.answered src (· == .acceptance l.pidx.toNat true l.fbase)).setLease e { l with zLender := true }).mapLease e)
      | some g =>
        if l.lst ≠ .active ∨ !l.dzero.contains (zeroStage g 1) then some s1
        else if l.mir then
          if l.dzero.contains (zeroStage g 3) then some (s1.undiscard e g)
          else some (s1.setLease e { l with dzero := l.dzero.map fun x => if x = zeroStage g 1 then zeroStage g 2 else x })
        else some (s1.undiscard e g)
  | _ => none

/-- The lender zeroes a discarded granule that is to be written (14_fabric R332). -/
def State.granuleZeroing (s : State) (k : Nat) : Option State :=
  match s.msgAt k with
  | some (src, .zeroGranule lent g) =>
    let s1 := s.takeCell k
    let l := s.lease lent
    if !s.fromPeer src lent || !(l.lst == .active || l.lst == .recalling) || decide (l.gcnt ≤ g) then some s1
    else if s.unitsReady (l.base + 2 ^ 21 * g) (2 ^ 21) then
      some ((s1.zeroRange (l.base + 2 ^ 21 * g) (2 ^ 21)).sendLease src l.asid (.zeroed l.pidx.toNat (some g)))
    else none
  | _ => none

/-- Zeroing of a fallback ends: for an acceptance in mirror mode, or for an LRET (14_fabric R331, R336). -/
def State.fallbackZeroed (s : State) (e : Nat) : Option State :=
  let l := s.lease e
  if !s.unitsReady l.fbase (leaseBytes l) then none
  else if l.accept && l.mir && !l.zFall then
    some (((s.zeroRange l.fbase (leaseBytes l)).setLease e { l with zFall := true }).mapLease e)
  else if l.lst = .returned ∨ l.lst = .dead then
    match s.opFor fun o => agentKind o.op == 4 && o.ent == e with
    | some o => some (((s.freeLease e).finishOp o (BitVec.ofNat 64 e)).agentKick)
    | none => none
  else none

/-- The same for a discarded granule that is to be written, in mirror mode or after a recall (14_fabric R332). -/
def State.granuleFallback (s : State) (e g : Nat) : Option State :=
  let l := s.lease e
  let asked := l.dzero.any fun x => x % zeroSent == g && decide (x / zeroSent < 3)
  if e = 0 ∨ 64 ≤ e ∨ !asked ∨ !s.unitsReady (l.fall g) (2 ^ 21) then none
  else
    let s1 := s.zeroRange (l.fall g) (2 ^ 21)
    if l.lst = .returned then some (s1.undiscard e g)
    else if l.lst = .active ∧ l.mir then
      if l.dzero.contains (zeroStage g 2) then some (s1.undiscard e g)
      else if l.dzero.contains (zeroStage g 3) then none
      else some (s1.setLease e { l with dzero := l.dzero ++ [zeroStage g 3] })
    else none

/-- The lender receives a request to recall (14_fabric R334, R336). -/
def State.recallRequest (s : State) (k : Nat) : Option State :=
  match s.msgAt k with
  | some (src, .recallRequest lent) =>
    let s1 := s.takeCell k
    let l := s.lease lent
    if !s.fromPeer src lent || l.lst != .active then some s1
    else if 8 ≤ s.recalls true then some (s1.sendLease src l.asid (.recallRefused l.pidx.toNat 0))
    else some (s1.startRecall lent none 0)
  | _ => none

/-- The borrower receives a recall (14_fabric R334). -/
def State.recallArrives (s : State) (k : Nat) : Option State :=
  match s.msgAt k with
  | some (src, .recall e) =>
    let s1 := s.takeCell k
    let l := s.lease e
    if s.fromPeer src e && l.accept then none
    else if !s.fromPeer src e || l.lst != .active then some s1
    else if 3 ≤ s.recalls false then
      let s2 := (s1.answered src (· == .recallRequest l.pidx.toNat)).sendLease src l.asid (.recallRefused 0 l.pidx.toNat)
      some (match s.opFor fun o => agentKind o.op == 4 && o.ent == e with
        | some o => (s2.failOp o 0x09).agentKick
        | none => s2)
    else
      let asked := s.opFor fun o => agentKind o.op == 4 && o.ent == e
      let s2 := s1.setLease e { l with
        lst := .recalling, start := s.core.beat, reason := if asked.isSome then 2 else 0, moved := [], part := []
        discSet := false, dzero := [] }
      let s3 := ((l.granules.foldl (fun s g => s.revokeAt l.asid (l.va g)) s2).answered src
        (· == .recallRequest l.pidx.toNat)).sendLease src l.asid (.recallAck l.pidx.toNat)
      some (match asked with
        | some o => (s3.finishOp o (BitVec.ofNat 64 e)).agentKick
        | none => s3)
  | _ => none

/-- The borrower has acknowledged a recall: LRCL lands (14_fabric R339). -/
def State.recallAck (s : State) (k : Nat) : Option State :=
  match s.msgAt k with
  | some (src, .recallAck lent) =>
    let s1 := (s.takeCell k).answered src (· == .recall (s.lease lent).pidx.toNat)
    match (if s.fromPeer src lent then s.opFor fun o => agentKind o.op == 2 && o.ent == lent else none) with
    | some o => some ((s1.finishOp o (BitVec.ofNat 64 lent)).agentKick)
    | none => some s1
  | _ => none

/-- A recall was refused under the limits: the lease stays ACTIVE (14_fabric R334). -/
def State.recallRefused (s : State) (k : Nat) : Option State :=
  match s.msgAt k with
  | some (src, .recallRefused e lent) =>
    let n := if lent = 0 then e else lent
    let p := (s.lease n).pidx.toNat
    let s1 := (s.takeCell k).answered src (· == if lent = 0 then .recallRequest p else .recall p)
    if !s.fromPeer src n then some s1
    else
      let s2 := if lent = 0 then s1 else s1.setLease n { s.lease n with lst := .active, dline := none }
      match s.opFor fun o => agentKind o.op == (if lent = 0 then 4 else 2) && o.ent == n with
      | some o => some ((s2.failOp o 0x09).agentKick)
      | none => some s2
  | _ => none

/-- Send the granules of a recall to the fallback, block by block, each cell with its local address there (14_fabric R316), of
which the acceptance has told the lender (DEDUCED, log 116). -/
def State.sendGranules (s : State) (k : Nat) : State :=
  let l := s.lease k
  l.toMove.foldl (fun s g => (List.range 16384).foldl (fun s i =>
    let a := l.base + 2 ^ 21 * g + 128 * i
    s.request { s.cell .lease l.peer.toNat with
      asid := l.asid, addr := l.fall g + 128 * i, len := 128, lease := some (.moved l.pidx.toNat g i (s.locRead a 128) (s.halves ((List.range 128).map (a + ·)))) } (.move k g)) s) s

/-- Done goes to the borrower, with the granules that were not moved. -/
def State.sendDone (s : State) (k : Nat) (gs : List Nat) : State :=
  (parts24 gs).foldl (fun s x => s.sendLease (s.lease k).peer.toNat (s.lease k).asid (.done (s.lease k).pidx.toNat x.1 x.2)) s

/-- A lent entry whose deadline has passed: what is not moved is LOST (14_fabric R335). -/
def State.passDeadline (s : State) (k : Nat) : State :=
  let l := s.lease k
  let lost := if l.discSet then l.unmoved else l.granules
  (if l.discSet && !s.fab.lost.contains l.peer.toNat then s.sendDone k lost else s).lentBack k lost

/-- The lender receives the discard set and moves the other granules (14_fabric R334, R335). -/
def State.discardSet (s : State) (k : Nat) : Option State :=
  match s.msgAt k with
  | some (src, .discards lent gs last) =>
    let s1 := s.takeCell k
    let l := s.lease lent
    if !s.fromPeer src lent then some s1
    else if l.lst = .returned then
      -- it comes after the deadline: the borrower learns what is LOST, and a mirrored granule is not (DEDUCED, log 56)
      if !last || l.discSet then some s1
      else
        let lost := if l.mir then [] else l.lost
        some ((s1.setLease lent { l with lost := lost, discSet := true }).sendDone lent lost)
    else if l.lst ≠ .recalling then some s1
    else if !last then some (s1.setLease lent { l with disc := l.disc ++ gs })
    else
      let l1 := { l with disc := l.disc ++ gs, discSet := true }
      let s2 := s1.setLease lent { l1 with dline := some l1.deadline }
      if l1.deadline ≤ s.core.beat then some (s2.passDeadline lent)
      else if l1.toMove = [] then some (s2.sendDone lent [])
      else if s.unitsReady l.base (leaseBytes l) then some (s2.sendGranules lent)
      else none
  | _ => none

/-- Done is sent once every granule to be moved has been acknowledged. -/
def State.doneIfMoved (s : State) (k : Nat) : State :=
  let l := s.lease k
  if l.lst = .recalling ∧ l.discSet ∧ l.toMove ≠ [] ∧ l.unmoved = [] then s.sendDone k [] else s

/-- An acknowledgement arrives; the last of a recall's granules lets the lender send done (14_fabric R324, R334). -/
def State.ackArrives (s : State) (k : Nat) : Option State :=
  let moving := match s.cellAt k with
    | some c => (s.reqOf c).bind fun r => match r.why with
      | .move e _ => some e
      | _ => none
    | none => none
  (s.ackCell k).map fun t => match moving with
    | some e => t.doneIfMoved e
    | none => t

/-- The borrower receives done (14_fabric R334). -/
def State.recallDone (s : State) (k : Nat) : Option State :=
  match s.msgAt k with
  | some (src, .done e gs last) =>
    let s1 := s.takeCell k
    let l := s.lease e
    if !s.fromPeer src e || l.lst != .recalling then some s1
    else if !last then some (s1.setLease e { l with lost := l.lost ++ gs })
    else if s.unitsReady l.fbase (leaseBytes l) then some ((s1.toFallback e (l.lost ++ gs) l.reason).sendLease src l.asid (.doneAck l.pidx.toNat))
    else none
  | _ => none

/-- The lender receives the acknowledgement of done (14_fabric R335). -/
def State.doneAck (s : State) (k : Nat) : Option State :=
  match s.msgAt k with
  | some (src, .doneAck lent) =>
    let s1 := s.takeCell k
    if s.fromPeer src lent && (s.lease lent).lst == .recalling then some (s1.lentBack lent []) else some s1
  | _ => none

/-- The deadline of a recall passes (14_fabric R335). -/
def State.recallDeadline (s : State) (k : Nat) : Option State :=
  let l := s.lease k
  match l.dline with
  | some t => if decide (64 ≤ k) && l.lst == .recalling && decide (t ≤ s.core.beat) then some (s.passDeadline k) else none
  | none => none

/-! ## The loss of a package (14_fabric R327, R335, R337) -/

/-- What happens to a lease whose other end is lost. A lent one that is being recalled returns at its deadline (14_fabric R335,
`State.recallDeadline`; DEDUCED, log 115). -/
def State.loseLease (s : State) (k : Nat) : State :=
  let l := s.lease k
  if 64 ≤ k then
    match l.lst with
    | .offered => s.setLease k Lease.zero
    | .active => s.lentBack k l.granules
    | _ => s
  else
    match l.lst with
    | .active =>
      if l.mir then s.toFallback k [] 1
      else
        let gs := l.granules.filter fun g => !l.disc.contains g
        let s1 := gs.foldl (fun s g => s.poisonRange (l.fall g) (2 ^ 21)) s
        let s2 := s1.setLease k { l with lst := .dead, lost := gs, reason := 1, dzero := [] }
        (l.granules.foldl (fun s g => s.revokeAt l.asid (l.va g)) s2).demote k 1
    | .recalling => s.toFallback k (if l.mir then [] else l.granules.filter fun g => !l.disc.contains g && !l.moved.contains g) 1
    | _ => s

/-- The loss of a package affects the context of an access that waits for it: a load, an AMOF or posted cells, and not an
AMO, which returns nothing (14_fabric R327). -/
def Access.affected (a : Access) : Bool := a.kind != .amo || a.dest != .none

/-- An access has something outstanding to a package. -/
def Access.awaits (a : Access) (g : Nat) : Bool := a.open_.any fun x => x.1 == .peer g

/-- Every access to a package fails. -/
def State.failAccesses (s : State) (g : Nat) : State :=
  (s.ms.flight.filter (·.awaits g)).foldl (fun s a => (s.modAccess a.id fun a => a.fail s.core.beat (· == .peer g)).settle a.id) s

/-- A package is marked lost. -/
def State.losePackage (s : State) (g : Nat) : State :=
  let code (b : Option Nat) (s : State) : State := s.ventNote 0x19 b 0 (g * 2 ^ 16)
  let uids := (((s.ms.flight.filter fun a => a.awaits g && a.affected).map fun a => (a.uid, a.bank)) ++
    (s.sched.posts.filter fun p => p.pkg == g && p.bank != 16).map fun p => (p.uid, p.bank)).dedup
  let hit := s.fab.reqs.filter fun r => r.dst == g
  let posts := s.sched.posts.filter fun p => p.pkg == g && p.bank != 16
  let ops := s.fab.agent.filter fun o => o.began && (match agentKind o.op with
    | 0 => o.field 12 2 == g
    | 1 | 2 => o.ent != 0 && (s.lease o.ent).peer.toNat == g
    | 4 => o.ent != 0 && (s.lease o.ent).peer.toNat == g && !((s.lease o.ent).lst == .returned || (s.lease o.ent).lst == .dead)
    | 6 => match tfind s.fab.resv o.ent with
      | some r => r.dst.toNat == g
      | none => false
    | _ => false)
  let s1 := (if uids = [] then code none s else uids.foldl (fun s u => code (s.bankOf u.1 u.2) s) s).failAccesses g
  let s2 : State := { s1 with fab := { s1.fab with
    lost := sadd (sdel s1.fab.lost g) g
    reqs := s1.fab.reqs.filter fun r => r.dst != g
    txq := s1.fab.txq.filter fun c => c.cell.dst.toNat != g
    windows := s1.fab.windows.map fun e => if e.2.peer.toNat = g ∧ e.2.cfg then (e.1, { e.2 with fail := true, out := 0 }) else e
    resv := s1.fab.resv.filter fun e => e.2.dst.toNat != g } }
  let s3 := hit.foldl (fun s r => match r.why with
    | .copyRead d _ | .copyWrite d _ _ => s.copyHit d 0x19
    | _ => s) s2
  let s4 := posts.foldl (fun s p => s.landPost p.id 0xFFFFFFFFFFFFFFFD) s3
  let s5 := ops.foldl (fun s o =>
    -- an acceptance that has failed leaves its entry as it was offered (14_fabric R342)
    (if agentKind o.op = 1 then s.setLease o.ent { s.lease o.ent with accept := false } else s).failOp o 0x03) s4
  (((List.range 127).filter fun k => (s5.lease k).lst != .free && (s5.lease k).peer.toNat == g).foldl State.loseLease s5).agentKick

/-- The class of the cell that a request went out in. -/
def ReqFor.class : ReqFor → Nat
  | .load .. | .atomic .. | .copyRead .. | .post .. => 0
  | .write .. | .copyWrite .. | .flag .. => 1
  | .move .. | .ask .. | .resv .. => 3

/-- A request goes 2^22 beats without its answer (14_fabric R327), and the port of its flow is tested (18_platform R400). -/
def State.requestTimeout (s : State) (tag : Nat) : Option State :=
  match s.fab.reqs.find? fun r => r.id == tag with
  | some r => if r.sent + 2 ^ 22 ≤ s.core.beat ∧ !(s.fab.txq.any fun c => c.req == some r.id) then
      some ((s.losePackage r.dst).startTest (.port (s.flowPort r.dst r.why.class))) else none
  | none => none

/-- An access to a package that is already lost, or to a host whose link is, fails with a record (14_fabric R327,
18_platform R396; DEDUCED, log 26). -/
def State.lostAccess (s : State) (id : Nat) : Option State :=
  match s.access id with
  | some a =>
    let fail (info : Nat) (f : Home → Bool) : Option State :=
      some (((s.ventNote 0x19 (s.bankOf a.uid a.bank) 0 info).modAccess id fun a => a.fail s.core.beat f).settle id)
    if s.ms.hostLost && a.open_.any fun x => x.1 == .host then fail (2 ^ 31) (· == .host)
    else match s.fab.lost.find? a.awaits with
      | some g => fail (g * 2 ^ 16) (· == .peer g)
      | none => none
  | none => none

/-! ## Events -/

def execWindowChangeApplies (s : State) : Res := s.event s.windowChange

def execReservationReply (s : State) : Res :=
  s.event (match s.arg with
    | .granted k ok => s.resvReply k ok
    | .id k => s.resvCell k
    | _ => none)

def execRequestTimeout (s : State) : Res :=
  s.event (match s.arg with
    | .id tag => s.requestTimeout tag
    | .two id _ => s.lostAccess id
    | _ => none)

def execAcknowledgement (s : State) : Res := s.event ((argId s.arg).bind s.ackArrives)
def execLeaseOffer (s : State) : Res := s.event ((argId s.arg).bind s.leaseOffer)
def execLeaseOfferAnswer (s : State) : Res := s.event ((argId s.arg).bind s.offerAnswer)
def execLeaseAcceptance (s : State) : Res := s.event ((argId s.arg).bind s.leaseAcceptance)
def execZeroingConfirmation (s : State) : Res := s.event ((argId s.arg).bind s.zeroingConfirmed)
def execGranuleZeroingRequest (s : State) : Res := s.event ((argId s.arg).bind s.granuleZeroing)

def execFallbackZeroingComplete (s : State) : Res :=
  s.event (match s.arg with
    | .id e => s.fallbackZeroed e
    | .two e g => s.granuleFallback e g
    | _ => none)

def execRecallRequest (s : State) : Res := s.event ((argId s.arg).bind s.recallRequest)
def execRecall (s : State) : Res := s.event ((argId s.arg).bind s.recallArrives)
def execRecallAcknowledgement (s : State) : Res := s.event ((argId s.arg).bind s.recallAck)
def execRecallRefused (s : State) : Res := s.event ((argId s.arg).bind s.recallRefused)
def execDiscardSet (s : State) : Res := s.event ((argId s.arg).bind s.discardSet)
def execRecallDone (s : State) : Res := s.event ((argId s.arg).bind s.recallDone)
def execDoneAcknowledgement (s : State) : Res := s.event ((argId s.arg).bind s.doneAck)
def execRecallDeadline (s : State) : Res := s.event ((argId s.arg).bind s.recallDeadline)

end Sys2Proof.Machine
end

