-- ==== Sys2Proof/Machine/Sequence.lean ====
section
/-! DEFINITION. What each CTL op does (04_sequencing R83 to R94). -/

namespace Sys2Proof.Machine

/-- The number of the bundle that issues. -/
def State.bundleNo (pre : State) (b : Nat) : BundleNo := (pre.ctx b).pc

/-- The bundle issues as a delay bundle (04_sequencing R82). -/
def Ctx.inDelay (c : Ctx) : Bool := c.dly != 0

/-- Redirect a context that is not in a delay bundle. -/
def State.redirect (pre s : State) (b : Nat) (pc : BundleNo) : State :=
  if (pre.ctx b).inDelay then s else s.modCtx b fun c => { c with pc := pc }

/-- Push a loop or skip it (04_sequencing R86). -/
def State.pushLoop (pre s : State) (b : Nat) (exit : BundleNo) (rot : Bool) (count : Nat) : State :=
  let n := pre.bundleNo b
  if count = 0 then pre.redirect s b exit
  else
    (pre.redirect s b (n + 1)).modCtx b fun c =>
      { c with loops := c.loops ++ [⟨rot, n + 1, 0, BitVec.ofNat 23 count⟩] }

/-- The faults of LOOP and LOOPX after the poison of the count (04_sequencing R86). -/
def loopFault (c : Ctx) (count : Nat) : Option Ev :=
  if 8388607 < count ∨ (count ≠ 0 ∧ c.loops.length = 6) then some { code := 0x04, info1 := c.loops.length } else none

/-- A transfer after three delay bundles (04_sequencing R81, R90). -/
def State.transfer (pre s : State) (b : Nat) (target : BundleNo) : State :=
  s.modCtx b fun c => { c with pc := pre.bundleNo b + 1, dly := 3, dtgt := target }

/-- The link of CALL and CALLX (04_sequencing R90). -/
def State.link (pre s : State) (b : Nat) : State :=
  s.landX b 63 ((pre.bundleNo b + 4).setWidth 64) false 1

/-- A pre-emption point (04_sequencing R95, R97): the count toward the deadline restarts. -/
def Ctx.point (c : Ctx) : Ctx := { c with since := 0, atPoint := true }

/-- A loop popped or continued at LEND (04_sequencing R87). -/
def Ctx.lend (c : Ctx) (n : BundleNo) : Ctx :=
  match c.loops.getLast? with
  | none => c
  | some e =>
    let c1 := if e.rot then { c with vrb := c.vrb - 1, mrb := c.mrb - 1 } else c
    if e.rem = 1 then { c1 with loops := c.loops.dropLast, pc := n + 1 }
    else { c1 with loops := c.loops.dropLast ++ [{ e with rem := e.rem - 1, idx := e.idx + 1 }], pc := e.start }

def cnopSem : OpSem := { path := 31 }

def loopSem (p : Path) (exit : BundleNo) (rot : Bool) (count : BitVec 23) : OpSem :=
  { path := p
    fault := fun s b => loopFault (s.ctx b) count.toNat
    act := fun pre b s => pre.pushLoop s b exit rot count.toNat }

def loopxSem (p : Path) (exit : BundleNo) (rot : Bool) (xa : XReg) : OpSem :=
  { path := p
    reads := fun _ _ => [.x xa.toNat]
    fault := fun s b => (poisonedX (s.ctx b) [xa]).orElse fun _ => loopFault (s.ctx b) ((s.ctx b).xw xa).toNat
    act := fun pre b s => pre.pushLoop s b exit rot ((pre.ctx b).xw xa).toNat }

/-- LEND (04_sequencing R75, R87). The run counter counts the beat of the LEND itself (DESIGN CHOICE, log 41). -/
def lendSem : OpSem :=
  { path := transferPath
    fault := fun s b => if (s.ctx b).loops = [] then some { code := 0x05 } else none
    act := fun pre b s =>
      let s1 := s.modCtx b fun c => (c.lend (pre.bundleNo b)).point
      if 4096 ≤ s1.core.runCtr then { s1 with core := { s1.core with yielded := true } } else s1 }

def lbrkSem (tgt : BundleNo) (depth : BitVec 3) : OpSem :=
  { path := transferPath
    fault := fun s b => let n := (s.ctx b).loops.length
      if n < depth.toNat then some { code := 0x05, info1 := n } else none
    act := fun _ b s => s.modCtx b fun c => { c with loops := c.loops.take (c.loops.length - depth.toNat), pc := tgt } }

def callSem (tgt : BundleNo) : OpSem :=
  { path := transferPath
    writes := fun _ _ => [(.x 63, some 1)]
    act := fun pre b s => pre.link (pre.transfer s b tgt) b }

def callxSem (xa : XReg) : OpSem :=
  { path := transferPath
    reads := fun _ _ => [.x xa.toNat]
    writes := fun _ _ => [(.x 63, some 1)]
    fault := fun s b => poisonedX (s.ctx b) [xa]
    act := fun pre b s => pre.link (pre.transfer s b (((pre.ctx b).xw xa).setWidth 16)) b }

def retSem : OpSem :=
  { path := transferPath
    reads := fun _ _ => [.x 63]
    fault := fun s b => poisonedX (s.ctx b) [63]
    act := fun pre b s => pre.transfer s b (((pre.ctx b).xw 63).setWidth 16) }

def jmpxSem (xa : XReg) : OpSem :=
  { path := transferPath
    reads := fun _ _ => [.x xa.toNat]
    fault := fun s b => poisonedX (s.ctx b) [xa]
    act := fun pre b s => pre.transfer s b (((pre.ctx b).xw xa).setWidth 16) }

/-- END (04_sequencing R91): the result flag is a release at .pkg scope; the context has ended. A poisoned result
scalar raises poison consumption. END is a pre-emption point. -/
def ctlEndSem (flag : FlagIx) (xa : XReg) : OpSem :=
  { path := transferPath
    reads := fun _ _ => if flag = 0 then [] else [.x xa.toNat]
    fault := fun s b => if flag ≠ 0 ∧ (s.ctx b).xm xa then
        some { code := 0x20, info1 := 3, info2 := xa.toNat + flag.toNat * 2 ^ 16 } else none
    act := fun pre b s =>
      let v : BitVec 32 := if xa = 0 then 1 else ((pre.ctx b).xw xa).setWidth 32
      let s1 := if flag = 0 then s else s.queueFlag b .pkg flag.toNat (.set ⟨v, false⟩)
      s1.modCtx b fun c => { c.point with ended := some (.byEnd (if flag = 0 then 0 else v)) } }

def yieldSem (p : Path) : OpSem :=
  { path := p
    act := fun _ b s =>
      let s1 := s.modCtx b (·.point)
      { s1 with core := { s1.core with yielded := true } } }

/-- A write to a sheet of a cluster is pending or locked. -/
def Ctx.clusterBusy (c : Ctx) (k : Nat) : Bool :=
  let inK : PDest → Bool := fun d => match d with
    | .v p => p / 8 == k
    | _ => false
  (c.pend.any fun p => inK p.dst) || c.locks.any fun l => inK l.dst

/-- The clusters a bank lacks (18_platform R398, R400). -/
def State.lacks (s : State) (b k : Nat) : Bool := s.plat.xclus.contains (4 * b + k)

/-- A cluster gated: its contents are lost (04_sequencing R93). -/
def Ctx.gate (c : Ctx) (k : Nat) : Ctx :=
  { c with clusters := tdel c.clusters k, v := c.v.filter fun e => e.1 / 8 != k }

/-- CLUS (04_sequencing R93). A cluster to be gated that is waking holds the bundle until it is awake. -/
def clusSem (p : Path) (cmask : BitVec 4) : OpSem :=
  { path := p
    hold := fun s b => let c := s.ctx b
      if (List.range 4).any fun k => !cmask.getLsbD k && (match c.clus k with
          | .gated => false
          | .waking _ => true
          | .awake => c.clusterBusy k) then some 0 else none
    fault := fun s b => let c := s.ctx b
      let bad := (List.range 4).filter fun k => cmask.getLsbD k && c.clus k == .gated && s.lacks b k
      if bad = [] then none else some { code := 0x30, info2 := cmask.toNat }
    act := fun pre b s => (List.range 4).foldl (fun s k => s.modCtx b fun c =>
      if cmask.getLsbD k then
        (if c.clus k = .gated then
          { c with clusters := tins c.clusters k (.waking (pre.core.beat + 24)), v := c.v.filter fun e => e.1 / 8 != k }
         else c)
      else c.gate k) s }

/-- RROT (04_sequencing R89). With a CWR of rrb in the same bundle it adds to the base the CWR has written, as R85 says
of LEND (DEDUCED, log 40). -/
def rrotSem (p : Path) (set : Bool) (vamt : BitVec 4) (mamt : BitVec 3) : OpSem :=
  { path := p
    act := fun _ b s => s.modCtx b fun c =>
      if set then { c with vrb := vamt, mrb := mamt } else { c with vrb := c.vrb + vamt, mrb := c.mrb + mamt } }

/-- TRAPC (04_sequencing R94): the bundle takes effect and then holds its context (`State.issueNow`). -/
def trapcSem (p : Path) (_tcode : BitVec 16) : OpSem := { path := p }

end Sys2Proof.Machine
end

