-- ==== Sys2Proof/Machine/Jobs.lean ====
section
/-! DEFINITION. POST and the queue scheduler: acceptance, dispatch, the end of jobs, rotation (13_jobs R296 to R315). -/

namespace Sys2Proof.Machine

/-! ## Acceptance (13_jobs R301) -/

/-- Index `ACC` of a queue is reserved and lies in the reorder window. -/
def QDesc.open_ (q : QDesc) : Bool := decide (q.acc < q.tail) && decide (q.acc < q.done + min 256 (2 ^ q.clog))

/-- A producer has skipped the bound of 13_jobs R298. -/
def QDesc.overrun (q : QDesc) : Bool := decide (q.done + 2 ^ q.clog < q.tail)

/-- The card at index `ACC` is accepted, as a job or at once as REFUSED. -/
def State.acceptCard (s : State) (n qa : Nat) (card : List Byte) (refused : Bool) : State :=
  let q := s.qdesc qa
  let i := q.acc
  let s1 := (s.memStore (q.recAt i) (recordBytes i 1 0 0 0 0) false).put 8 (qa + 8) (i + 1)
  let s2 : State := { s1 with sched := { s1.sched with seen := tdel s1.sched.seen n } }
  if refused then s2.finalRecord qa i 5 1 0 0 0 0
  else if cardBad q card then s2.finalRecord qa i 5 1 0 0 0 (if 4096 ≤ cardCfl card then 0 else cardFlag card)
  else
    let j : Job := { qmap := n, qaddr := qa, idx := BitVec.ofNat 64 i, card := card, bank := none, uid := none, disp := none,
                     acc := s.core.beat, resid := false, chans := [], notes := 0, last := 0, held := 0, fences := [], final := none }
    { s2 with sched := { s2.sched with jobs := s2.sched.jobs ++ [j] } }

/-- The scheduler first sees index `ACC` below `TAIL`, and reads its card's bytes at `a`. -/
def State.noteSeen (s : State) (n acc a : Nat) : Option State :=
  let t : State := { s with sched := { s.sched with seen := tins s.sched.seen n (acc, s.core.beat) } }
  match tfind s.sched.seen n with
  | some e => if e.1 = acc then none else some (t.noteLoad a 128)
  | none => some (t.noteLoad a 128)

/-- The scheduler looks at a mapped queue: it accepts the next card, or notes when it first saw the index; a queue whose mapping
has waited for its units is mapped first (18_platform R399). In a queue whose bound a producer has skipped, whether it accepts,
and what it reads as the card, are free (log 59). A card of a retired unit reads as poison, which is no index (DESIGN CHOICE,
log 113). -/
def State.cardAccept (s : State) (n : Nat) : Option State :=
  if s.sched.toMap.any fun e => e.1 == n then
    if s.mapReady (tget s.sched.qmap n 0).toNat then some (s.mapNow n) else none
  else match s.queueAt n with
  | some qa =>
    let q := s.qdesc qa
    if !s.queueReady qa q.acc || decide (q.tail ≤ q.acc) then none
    else if q.open_ && q.overrun then
      let s1 : State := { s with free := s.free + 1 }
      some (if (Config.freeWord s.free).getLsbD 0 then s1.acceptCard n qa (s.freeBytes 128) false else s1)
    else if q.open_ && s.rd 8 (q.cardAt q.acc) == q.acc && !s.unitsGone (q.cardAt q.acc) 128 then
      some (s.acceptCard n qa (s.locRead (q.cardAt q.acc) 128) false)
    else s.noteSeen n q.acc (q.cardAt q.acc)
  | none => none

/-- A card whose `CIDX` never came is accepted as REFUSED. -/
def State.acceptTimeout (s : State) (n : Nat) : Option State :=
  match s.queueAt n, tfind s.sched.seen n with
  | some qa, some e =>
    let q := s.qdesc qa
    if q.open_ && !q.overrun && e.1 == q.acc && decide (e.2 + 65536 ≤ s.core.beat) && s.queueReady qa q.acc &&
        (s.rd 8 (q.cardAt q.acc) != q.acc || s.unitsGone (q.cardAt q.acc) 128) then
      some (s.acceptCard n qa [] true)
    else none
  | _, _ => none

/-! ## Dispatch (13_jobs R304 to R308) -/

/-- The next card of a queue: its lowest accepted card not yet dispatched. -/
def State.nextCard (s : State) (qa : Nat) : Option Job := s.sched.jobs.find? fun j => j.qaddr == qa && j.disp.isNone && j.final.isNone

/-- A card waits while one of its wait flags reads 0. -/
def State.cardWaiting (s : State) (c : List Byte) : Bool := (cardWaits c).any fun f => (s.flagNow f).val == 0

/-- Jobs of a queue in flight, from dispatch to end. -/
def State.inFlight (s : State) (qa : Nat) : Nat := (s.sched.jobs.filter fun j => j.qaddr == qa && j.disp.isSome).length

/-- The vent holds a record of a bank that has not been popped (16_system R367). -/
def State.ventHolds (s : State) (b : Nat) : Bool :=
  (s.sched.unpopped.any fun r => r.1 == some b) || s.sched.ventQ.any fun e => e.bank == some b

/-- A bank holds no context. -/
def State.bankEmpty (s : State) (b : Nat) : Bool := decide (b < 15) && !s.hasCtx b

/-- A bank is free for a job. -/
def State.bankFree (s : State) (b : Nat) : Bool := s.bankEmpty b && !s.ventHolds b

/-- The bank holds the clusters of a set. -/
def State.bankHas (s : State) (b clu : Nat) : Bool := (List.range 4).all fun k => !clu.testBit k || !s.lacks b k

/-- Regions of a map. -/
def regionsOf (rmap : Nat) : List Nat := (List.range 64).filter fun g => rmap.testBit g

/-- Boxes of a shape placed on some blocks: lowest top layer first, then lowest quadrant set. -/
def placeBoxes (sets : List (BitVec 4)) (l : Nat) : Nat → List Nat → Option (List (Nat × BitVec 4))
  | 0, _ => some []
  | n + 1, avail =>
    let spots := (List.range (13 - l)).flatMap fun t => sets.map fun q => (t, q)
    match spots.find? fun x => (blocksOf x.1 (x.1 + l - 1) x.2).all avail.contains with
    | some x => (placeBoxes sets l n (avail.filter fun b => !(blocksOf x.1 (x.1 + l - 1) x.2).contains b)).map (x :: ·)
    | none => none

/-- The quadrant sets of a shape. -/
def shapeSets (q : BitVec 4) : List (BitVec 4) := legalQuads.filter fun r => quadRows r == quadRows q && quadCols r == quadCols q

def cardBoxes (c : List Byte) (avail : List Nat) : Option (List (Nat × BitVec 4)) :=
  placeBoxes (shapeSets (cardQuads c)) (cardLayers c) (cardCount c) avail

/-- Blocks that may ever be granted, and those that may be granted now. -/
def State.goodBlocks (s : State) : List Nat := (List.range 48).filter fun b => !s.plat.xblk.contains b && !s.plat.dark.contains (b / 4)

def State.freeBlocks (s : State) : List Nat :=
  s.goodBlocks.filter fun b => s.plat.rblk.contains b && s.plat.rlay.contains (b / 4) && (s.partOfBlock b).isNone

/-- Ids that may be granted: unallocated, and named by no reshape that is queued (DESIGN CHOICE, log 98: 13_jobs R305 says
the lowest unallocated ids, and 09_partitions R217 that such an id is another context's to be). -/
def State.freeIds (s : State) : List Nat :=
  (List.range 16).filter fun p => (s.part p).kind == .none && (s.tail p).kind == .none && (s.part p).queue == [] &&
    !s.cube.resh.any fun r => r.allIds.contains p

/-- Why a card can never run: its final state and cause. -/
def State.cardDoomed (s : State) (c : List Byte) : Option (Nat × Nat) :=
  if (List.range 15).all fun b => !s.bankHas b (cardClus c) then some (5, 0x30)
  else if (regionsOf (cardRmap c)).any fun g => g == 63 || s.plat.xrgn.contains g then some (5, 0x10)
  else if (cardBoxes c s.goodBlocks).isNone then some (5, 0x28)
  else if (cardWaits c).any fun f => (s.flagNow f).mark then some (4, 0x20)
  else none

/-- The bank and boxes a card would take, if 13_jobs R305 is met. -/
def State.cardRoom (s : State) (j : Job) : Option (Nat × List (Nat × BitVec 4)) :=
  let q := s.qdesc j.qaddr
  match (List.range 15).find? fun b => s.bankFree b && s.bankHas b (cardClus j.card), cardBoxes j.card s.freeBlocks with
  | some b, some boxes =>
    if decide (s.inFlight j.qaddr < q.clim + 1) && decide (boxes.length ≤ s.freeIds.length) &&
        (regionsOf (cardRmap j.card)).all fun g => s.plat.rrgn.contains g && (tfind s.sched.regions g).isNone then some (b, boxes)
    else none
  | _, _ => none

/-- A next card is neither waiting nor pending. -/
def State.runnable (s : State) (j : Job) : Bool :=
  !s.cardWaiting j.card && ((s.cardRoom j).isSome || (s.cardDoomed j.card).isSome)

def State.queuePri (s : State) (n : Nat) : Nat := match s.queueAt n with
  | some qa => (s.qdesc qa).qpri
  | none => 0

/-- The next card of a mapped queue. -/
def State.headCard (s : State) (n : Nat) : Option Job := (s.queueAt n).bind s.nextCard

/-- The queue's next card may be dispatched. -/
def State.candidate (s : State) (n : Nat) : Bool := match s.headCard n with
  | some j => !s.cardWaiting j.card && (s.cardRoom j).isSome && (s.cardDoomed j.card).isNone
  | none => false

/-- The queue's next card is pending (13_jobs R304). -/
def State.pending (s : State) (n : Nat) : Bool := match s.headCard n with
  | some j => !s.cardWaiting j.card && (s.cardRoom j).isNone && (s.cardDoomed j.card).isNone
  | none => false

/-- The queue's next card has been pending for 65,536 beats and is not yet dispatched. -/
def State.aged (s : State) (n : Nat) : Bool := match tfind s.sched.pendAt n with
  | some t => decide (t + 65536 ≤ s.core.beat)
  | none => false

/-- An aged card keeps the others of its priority and below from dispatch; of two aged cards of one priority neither keeps
the other (13_jobs R304; DEDUCED, log 58). -/
def State.priorityHeld (s : State) (n : Nat) : Bool :=
  s.sched.pendAt.any fun e => e.1 != n && s.aged e.1 && (decide (s.queuePri n < s.queuePri e.1) ||
    (s.queuePri n == s.queuePri e.1 && !s.aged n))

/-- Place of a queue in the rotation of its priority. -/
def State.rotation (s : State) (p n : Nat) : Nat := (n + 64 - (tget s.sched.lastQ p 63 + 1)) % 64

/-- The queue wins the dispatch (13_jobs R304). -/
def State.wins (s : State) (n : Nat) : Bool :=
  let p := s.queuePri n
  s.candidate n && (List.range 64).all fun m => m == n || !s.candidate m || s.priorityHeld m || decide (s.queuePri m < p) ||
    (s.queuePri m == p && decide (s.rotation p n < s.rotation p m))

/-- The remaining estimate of a job (13_jobs R308). -/
def State.remaining (s : State) (j : Job) : Nat := match j.disp with
  | some t => cardEst j.card - (s.core.beat - t)
  | none => cardEst j.card

/-- The partitions of a job request the high rail. -/
def State.highRail (s : State) (j : Job) : Bool :=
  let rmax := (s.sched.jobs.filter fun k => cardJoin k.card == cardJoin j.card).foldl (fun m k => max m (s.remaining k)) 0
  !(cardJoin j.card != 0 && decide (13 * cardEst j.card ≤ 9 * rmax))

/-- A partition is granted (09_partitions R211, R212). Blocks held low hold all of it low, and it hops if its blocks do not yet
run on the one rail it is to run on (17_power R381, R383; DEDUCED, log 100). -/
def State.grantPart (s : State) (p : Nat) (box : Nat × BitVec 4) (l : Nat) (asid : BitVec 13) (uid bank : Nat) (hi : Bool) : State :=
  let v0 : Part := { Part.none with
    kind := .part, bank := bank, uid := uid, first := box.1, last := box.1 + l - 1, quads := box.2, railHi := hi }
  let v : Part := { v0 with heldLow := s.freeHold v0.blocks }
  let s1 := v.blocks.foldl (fun s b => s.grantBlock asid b) (s.settleSlump v.blocks)
  let s2 := s1.setPart p v
  let s3 := s2.setTail p (s2.partView p)
  let rail := hi && v.heldLow.isNone
  if s3.onRail v rail then s3 else s3.beginHop p rail none

/-- The context of a job as dispatched from the queue in register `n` (13_jobs R306). -/
def jobCtx (s : State) (q : QDesc) (n : Nat) (j : Job) : Ctx :=
  let c := j.card
  let clu := (List.range 4).filter fun k => (cardClus c).testBit k
  ({ Ctx.zero with
      uid := s.ids, pc := BitVec.ofNat 16 (cardNat c 16 2), clusters := clu.map fun k => (k, Clus.awake),
      card := j.idx, prio := BitVec.ofNat 3 q.qpri, queue := BitVec.ofNat 6 n, priv := (cardFl c).testBit 1,
      rmask := BitVec.ofNat 64 (cardRmap c), asid := BitVec.ofNat 13 q.qasid, begun := s.core.beat }.setX 1 ⟨j.idx, false⟩).setX 62
    ⟨BitVec.ofNat 64 (cardNat c 8 8), false⟩

def State.dropJob (s : State) (j : Job) : State :=
  { s with sched := { s.sched with jobs := s.sched.jobs.filter fun k => !(k.qaddr == j.qaddr && k.idx == j.idx) } }

/-- A job is dispatched into a bank with its boxes. -/
def State.dispatchJob (s : State) (n : Nat) (j : Job) (b : Nat) (boxes : List (Nat × BitVec 4)) : State :=
  let q := s.qdesc j.qaddr
  let a := q.recAt j.idx.toNat
  let runs := min 255 (s.rd 1 (a + 11) + 1)
  let uid := s.ids
  let hi := s.highRail j
  let ids := s.freeIds
  let asid := BitVec.ofNat 13 q.qasid
  let s1 := (s.memStore a (recordBytes j.idx.toNat 2 0 b runs 0) false).setCtx b (jobCtx s q n j)
  let s2 := (boxes.zip ids).foldl (fun s x => s.grantPart x.2 x.1 (cardLayers j.card) asid uid b hi) s1
  let regs := (regionsOf (cardRmap j.card)).foldl (fun t g => tins t g uid) s.sched.regions
  let upd (k : Job) : Job := if k.qaddr = j.qaddr ∧ k.idx = j.idx then
    { k with qmap := n, bank := some b, uid := some uid, disp := some s.core.beat, resid := true } else k
  { s2 with
    ids := s2.ids + 1
    sched := { s2.sched with
      jobs := s2.sched.jobs.map upd, regions := regs, lastDisp := some s.core.beat, idle := none
      lastQ := tins s2.sched.lastQ q.qpri n, pendAt := tdel s2.sched.pendAt n } }

/-- The scheduler takes the next card of a queue: it refuses or fails one that can never run, and dispatches the one that
wins (13_jobs R304 to R306). It dispatches nothing while no steward has been started (18_platform R406). -/
def State.dispatch (s : State) (n : Nat) : Option State :=
  match (if s.plat.started then s.queueAt n else none) with
  | some qa =>
    match (s.nextCard qa).filter fun j => s.queueReady qa j.idx.toNat with
    | some j =>
      let q := s.qdesc qa
      match s.cardDoomed j.card with
      | some (st, cause) =>
        let runs := s.rd 1 (q.recAt j.idx.toNat + 11)
        let bnk := s.rd 1 (q.recAt j.idx.toNat + 10)
        let s1 := (s.dropJob j).finalRecord qa j.idx.toNat st cause bnk runs 0 (cardFlag j.card)
        some { s1 with sched := { s1.sched with pendAt := tdel s1.sched.pendAt n } }
      | none =>
        let soon := match s.sched.lastDisp with
          | some t => decide (s.core.beat < t + 16)
          | none => false
        match s.cardRoom j with
        | some (b, boxes) => if !soon && s.wins n && !s.priorityHeld n then some (s.dispatchJob n j b boxes) else none
        | none => none
    | none => none
  | none => none

/-- The scheduler notes that a next card has become pending, or is so no longer; an aged one that could be dispatched
stays noted until it is (13_jobs R304; DEDUCED, log 58). -/
def State.pendingLook (s : State) (n : Nat) : Option State :=
  let put (t : Tbl Nat) : Option State := some { s with sched := { s.sched with pendAt := t } }
  match (tfind s.sched.pendAt n).isSome, s.pending n with
  | false, true => put (tins s.sched.pendAt n s.core.beat)
  | true, false => if s.aged n && s.candidate n then none else put (tdel s.sched.pendAt n)
  | _, _ => none

/-! ## The end of a job (13_jobs R309) -/

/-- Something that a context queued or accessed has not ended (15_ordering R357). A POST of another package, which stands under
bank 16, is no context's. -/
def State.workLeft (s : State) (uid : Nat) : Bool :=
  ((List.range 16).any fun p => (s.part p).uid == uid && (s.part p).kind != .none) ||
  ((List.range 16).any fun p => (s.part p).queue.any fun e => e.uid == uid) ||
  (s.cube.resh.any fun r => r.uid == uid) || (s.cube.qrys.any fun q => q.uid == uid) ||
  (s.copy.queues.any fun q => q.2.any fun d => d.uid == uid) || (s.copy.apert.any fun a => a.uid == uid) ||
  (s.ms.flight.any fun a => a.uid == uid) || (s.ms.rels.any fun r => r.uid == uid) ||
  (s.ms.amos.any fun r => r.uid == uid) || (s.cube.radvs.any fun r => r.uid == uid) ||
  (s.cube.errNext.any fun e => e.2.1 == uid) || s.sched.posts.any fun p => p.bank != 16 && p.uid == uid

/-- A job ends: its regions return, and its record, flag and `DONE` are written. -/
def State.jobEnd (s : State) (uid : Nat) : Option State :=
  match s.jobOf uid with
  | some j =>
    match j.final with
    | some f =>
      if j.bank.isSome || s.workLeft uid || !s.queueReady j.qaddr j.idx.toNat then none
      else
        let q := s.qdesc j.qaddr
        let a := q.recAt j.idx.toNat
        let s1 : State := { s.dropJob j with sched := { (s.dropJob j).sched with
          regions := s.sched.regions.filter fun e => e.2 != uid } }
        let fin (st cause res : Nat) : State :=
          s1.finalRecord j.qaddr j.idx.toNat st cause (s.rd 1 (a + 10)) (s.rd 1 (a + 11)) res (cardFlag j.card)
        some (match f with
          | .byEnd r => fin 3 0 r.toNat
          | .killed cause => fin 4 cause 0)
    | none => none
  | none => none

/-! ## Rotation (13_jobs R311) -/

/-- A descriptor in the ring holds a card that could be accepted with its wait flags set. -/
def State.queueRunnable (s : State) (a : Nat) : Bool :=
  let q := s.qdesc a
  qAligned a && q.stat % 4 == 0 && q.open_ && s.rd 8 (q.cardAt q.acc) == q.acc &&
  !s.cardWaiting (s.locRead (q.cardAt q.acc) 128)

/-- Follow `NEXT` for at most so many descriptors. -/
def State.searchRing (s : State) : Nat → Nat → Option Nat
  | 0, _ => none
  | n + 1, a => if !qAligned a then none else if s.queueRunnable a then some a else s.searchRing n (s.qdesc a).next

/-- The queue that rotation unmaps: of lowest priority, then highest number, with no job in flight. -/
def State.rotateOut (s : State) : Option Nat :=
  (((List.range 64).reverse.filter fun n => match s.queueAt n with
      | some qa => s.inFlight qa == 0
      | none => false).foldl (fun (m : Option Nat) n => match m with
    | some k => if s.queuePri n < s.queuePri k then some n else m
    | none => some n) none)

/-- A mapped queue has a next card that is neither waiting nor pending. -/
def State.busy (s : State) : Bool := s.sched.qmap.any fun e => match s.headCard e.1 with
  | some j => s.runnable j
  | none => false

/-- Steps 1 to 3 of a rotation. -/
def State.rotateOnce (s : State) : State :=
  match s.rotateOut with
  | some n =>
    match (s.queueAt n).bind fun qa => s.searchRing 1024 (s.qdesc qa).next with
    | some a => (s.unmapQueue n).mapQueue n (BitVec.ofNat 64 a)
    | none => s
  | none => s

/-- The scheduler notes when the mapped queues come to have no runnable card, or have one again; after every 1,024 beats
without, it rotates. -/
def State.rotate (s : State) : Option State :=
  let mark (t : State) (i : Option Nat) : Option State := some { t with sched := { t.sched with idle := i } }
  match s.sched.idle with
  | none => if s.busy then none else mark s (some s.core.beat)
  | some t =>
    if s.busy then mark s none
    else if t + 1024 ≤ s.core.beat then mark s.rotateOnce (some s.core.beat)
    else none

/-! ## POST (13_jobs R312, R313) -/

/-- A descriptor address is valid at its home. -/
def State.postOk (s : State) (a : Nat) : Bool := qAligned a && !(s.qdesc a).bad

def QDesc.full (q : QDesc) : Bool := decide (q.done + 2 ^ q.clog ≤ q.tail)

/-- The card image that a POST reads. -/
def State.postImage (s : State) (c : Ctx) (xc : XReg) : List Byte := s.locRead (spadBase + (c.xw xc).toNat) 128

/-- POST (13_jobs R313). The image is read behind the stores of the bundle's earlier slots (02_bundle R31), and once every
earlier access of the context has performed (15_ordering R356); stb7 is DEDUCED (log 20). -/
def postSem (p : Path) (xq xc xr : XReg) : OpSem :=
  { path := p
    reads := fun _ _ => [.x xq.toNat, .x xc.toNat]
    writes := fun _ _ => [(.x xr.toNat, none)]
    hold := fun s b => lowest (s.fenceWait b false true) (lowest (s.acquiring b)
      (if s.allPerformed (s.ctx b).uid s.seq then none else some 7))
    wait := fun s b =>
      let w := ((s.ctx b).xw xq).toNat
      let a := w % 2 ^ 48
      if w / 2 ^ 48 = s.pkg ∧ s.postOk a ∧ (s.qdesc a).full then some 3 else none
    fault := fun s b =>
      let c := s.ctx b
      let w := (c.xw xq).toNat
      let a := (c.xw xc).toNat
      (poisonedX c [xq, xc]).orElse fun _ =>
      if a % 128 ≠ 0 ∨ !s.hearthOk c a 128 then some (protAt c a)
      else if 2 ^ 58 ≤ w then some (protAt c 0)
      else if w / 2 ^ 48 = s.pkg ∧ s.postOk (w % 2 ^ 48) ∧ (s.qdesc (w % 2 ^ 48)).qasid ≠ c.asid.toNat ∧ !c.priv then
        some (protAt c 0)
      else none
    check := fun pre b s =>
      let c := pre.ctx b
      let a := (c.xw xc).toNat
      let s := s.amosFlush
      if (cardFl (s.postImage c xc)).testBit 1 ∧ !c.priv then some (protAt c 0)
      else ((List.range 2).find? fun i => s.locPoi (spadBase + a + 64 * i) 64).map fun i =>
        { code := 0x20, info1 := 5, info2 := a + 64 * i }
    act := fun pre b s0 =>
      let c := pre.ctx b
      let s := s0.amosFlush
      let w := (c.xw xq).toNat
      let e : PostE :=
        { id := s.ids, bank := b, uid := c.uid, seq := s.seq, pkg := w / 2 ^ 48, qaddr := w % 2 ^ 48, asid := c.asid,
          priv := c.priv, card := s.postImage c xc, sent := false }
      let s1 := (s.touch [((c.xw xc).toNat, 128)]).lockReg b (.x xr.toNat) s.ids
      { s1 with
        ids := s1.ids + 1, seq := s1.seq + 1
        sched := { s1.sched with posts := s1.sched.posts ++ [e] } } }

/-- The home writes a posted card into its queue, or answers that it is full or refused. A descriptor of a retired unit reads as
poison, and is none (DESIGN CHOICE, log 113). -/
def State.postHome (s : State) (id : Nat) : Option State :=
  match s.sched.posts.find? fun p => p.id == id with
  | some p =>
    let far := p.bank == 16
    let q := s.qdesc p.qaddr
    let ok := s.postOk p.qaddr && (!far || q.qasid == p.asid.toNat)
    let answer (t : State) (v : Word) : State :=
      if far then
        let t1 : State := { t with sched := { t.sched with posts := t.sched.posts.filter fun x => x.id != id } }
        if t1.fab.lost.contains p.uid then t1
        else t1.send { s.cell .ack p.uid with
          tag := BitVec.ofNat 12 p.seq, addr := p.qaddr, bytes := (leBytes 8 v.toNat).zipIdx.map fun x => (p.qaddr + x.2, x.1) }
      else t.landPost id v
    if p.pkg ≠ s.pkg ∨ (!far && !s.allPerformed p.uid p.seq) ∨ (qAligned p.qaddr ∧ !s.unitsReady p.qaddr 128) ∨
        (ok ∧ !s.unitsReady (q.cardAt q.tail) 128) then none
    else if qAligned p.qaddr ∧ s.unitsGone p.qaddr 128 then some (answer (s.noteGone p.qaddr) 0xFFFFFFFFFFFFFFFE)
    else if !ok then some (answer s 0xFFFFFFFFFFFFFFFE)
    else if q.full then (if far then some (answer s 0xFFFFFFFFFFFFFFFF) else none)
    else
      let i := q.tail
      let a := q.cardAt i
      let s1 := (s.put 8 p.qaddr (i + 1)).memStore (a + 8) ((p.card.drop 8).take 120) false
      some (answer (if s.unitsGone a 128 then s1 else s1.put 8 a i) (BitVec.ofNat 64 i))
  | none => none

/-! ## Events -/

def execPostAtHome (s : State) : Res := s.event ((argId s.arg).bind s.postHome)

def execCardAccept (s : State) : Res := s.event ((argId s.arg).bind s.cardAccept)
def execAcceptanceTimeout (s : State) : Res := s.event ((argId s.arg).bind s.acceptTimeout)
def execDispatch (s : State) : Res := s.event ((argId s.arg).bind s.dispatch)
def execPendingPriorityHold (s : State) : Res := s.event ((argId s.arg).bind s.pendingLook)
def execJobEnd (s : State) : Res := s.event ((argId s.arg).bind s.jobEnd)
def execQueueRotation (s : State) : Res := s.event s.rotate

end Sys2Proof.Machine
end

