-- ==== Sys2Proof/Machine/System.lean ====
section
/-! DEFINITION. EVPOP, the context-control ops, context images and the release of banks (16_system R363 to R380,
04_sequencing R91). -/

namespace Sys2Proof.Machine

/-! ## EVPOP (16_system R374, R375) -/

/-- The vent's oldest record is copied to `a`, `VTAIL` advances and f0 is rewritten: the state, and the value landed. -/
def State.popRecord (s : State) (a : Nat) : State × Word :=
  if s.ventCount = 0 then (s, BitVec.allOnes 64)
  else
    let s1 := s.locWrite (spadBase + a) (s.locRead (spadBase + recordAddr s.sched.vtail) 32) false
    let s2 : State := { s1 with sched := { s1.sched with vtail := s1.sched.vtail + 1, unpopped := s1.sched.unpopped.tail } }
    (s2.setFlag 0 ⟨BitVec.ofNat 32 s2.ventCount, false⟩, BitVec.ofNat 64 s2.ventCount)

/-- EVPOP (16_system R364, R374, R375): any context may issue it, and outside bank 15 it raises protection before all
else. -/
def evpopSem (p : Path) (xa xd : XReg) : OpSem :=
  { path := p
    reads := fun _ _ => [.x xa.toNat]
    writes := fun _ _ => [(.x xd.toNat, some 8)]
    hold := fun s b => lowest (s.fenceWait b true true) (lowest (s.longWait b) (s.acquiring b))
    fault := fun s b =>
      let c := s.ctx b
      let a := (c.xw xa).toNat
      if b ≠ 15 then some (protAt c 0)
      else (poisonedX c [xa]).orElse fun _ => if a % 32 = 0 ∧ s.hearthOk c a 32 then none else some (protAt c a)
    act := fun pre b s0 =>
      let s := s0.amosFlush
      let o : CtlOp :=
        { id := s.ids
          bank := b
          uid := (pre.ctx b).uid
          seq := s.seq
          op := .evpop p xa xd
          xa := (pre.ctx b).xw xa
          xb := 0
          due := pre.core.beat + 8
          who := 0
          began := true }
      let s1 := s.lockReg b (.x xd.toNat) s.ids
      { s1 with ids := s1.ids + 1, seq := s1.seq + 1, core := { s1.core with evpops := s1.core.evpops ++ [o] } } }

/-- EVPOPs whose beat has come take effect, oldest first. -/
def State.evpopsLand (s : State) : State :=
  (s.core.evpops.filter fun o => decide (o.due ≤ s.core.beat)).foldl (fun t o =>
    let r := t.popRecord o.xa.toNat
    r.1.answer o.uid o.bank o.id r.2)
    { s with core := { s.core with evpops := s.core.evpops.filter fun o => decide (s.core.beat < o.due) } }

/-! ## Killing (16_system R378, 09_partitions R222, 11_copy R254) -/

/-- The ops in the queues of a killed context's ids, whoever issued them, are discarded, those that run stop with no flag
set, and so do its copies and the RADVs that wait. -/
def State.dropWork (s : State) (uid : Nat) : State :=
  let dead := (List.range 16).flatMap fun p => (s.part p).queue.filter fun e => e.uid == uid || (s.part p).uid == uid
  let gone (g : Nat) : Bool := dead.any fun e => e.gid == g
  let clean (s : State) (p : Nat) : State :=
    let v := s.part p
    let s1 := s.modPart p fun v => { v with
      queue := v.queue.filter fun e => !gone e.gid
      hopWho := if dead.any fun e => v.hopWho == some e.gid then none else v.hopWho }
    (v.queue.filter fun e => gone e.gid).foldl (fun t e => t.quietOne p e.gid) s1
  let give (s : State) (r : RadvE) : State := r.ids.foldl (fun s q => s.modRing q r.ring (·.unclaim r.id)) s
  let s1 := (s.cube.radvs.filter fun r => r.uid == uid).foldl give ((List.range 16).foldl clean s)
  let s2 : State := { s1 with
    cube := { s1.cube with
      radvs := s1.cube.radvs.filter fun r => r.uid != uid
      resh := s1.cube.resh.filter fun r => r.uid != uid && !gone r.gid
      errNext := s1.cube.errNext.filter fun e => e.2.1 != uid
      qrys := s1.cube.qrys.filter fun q => q.uid != uid }
    copy := { s1.copy with
      queues := (s1.copy.queues.map fun q => (q.1, q.2.filter fun d => d.uid != uid)).filter fun q => !q.2.isEmpty
      apert := s1.copy.apert.filter fun a => a.uid != uid } }
  (((List.range 16).filter fun p => (s2.part p).uid == uid || (s2.tail p).uid == uid).foldl
    (fun t p => (t.setTail p (t.partView p)).syncHalves (t.part p).blocks) s2).testsBegin

/-- A job's context has ended in a given way. -/
def State.finishJob (s : State) (uid : Nat) (f : EndKind) : State :=
  let upd (j : Job) : Job := if j.uid = some uid then { j with final := some (j.final.getD f) } else j
  { s with sched := { s.sched with jobs := s.sched.jobs.map upd } }

/-- CKIL of the context in bank `b`. -/
def State.kill (s : State) (b : Nat) : State :=
  let c := s.ctx b
  let k := EndKind.killed c.held
  let s1 := (s.modCtx b fun c => { c with ended := some k, held := 0 }).leaveSeat b
  (s1.dropWork c.uid).finishJob c.uid k

/-- The job whose context is in memory and was last dispatched into a bank. -/
def State.inMemory (s : State) (b : Nat) : Option Job :=
  s.sched.jobs.find? fun j => j.uid.isSome && !j.resid && j.final.isNone && s.rd 1 ((s.qdesc j.qaddr).recAt j.idx.toNat + 10) == b

/-! ## The release of a bank (04_sequencing R91, 16_system R378) -/

/-- The bindings of a context that leaves its bank end as CPUB ends them: sheets pushed are still written, sheets to be
popped are discarded (DESIGN CHOICE, log 27). -/
def State.endBindings (s : State) (b : Nat) : State :=
  (List.range 4).foldl (fun t k =>
    let st := (t.ctx b).strm k
    let close (d : Desc) : Desc :=
      if st.dir = .output then { d with pushed := st.buf, closed := some (min st.moved st.total) } else { d with closed := some d.written }
    if st.dir = .unbound then t else (t.modDesc st.desc close).modCtx b fun c => c.setStrm k Stream.none) s

/-- A write that a released bank would not take, and that is no write of its registers, is in flight. -/
def Ctx.outFlows (c : Ctx) : Bool := c.pend.any fun p => match p.dst with
  | .flag _ => true
  | .push _ _ => true
  | _ => false

/-- A bank is emptied; the clusters that self-test has retired under its context are gone with it (18_platform R400). -/
def State.emptyBank (s : State) (b : Nat) : State :=
  { s with
    core := { s.core with banks := tdel s.core.banks b }
    plat := { s.plat with xclus := (s.ctx b).bad.foldl (fun l k => sadd l (4 * b + k)) s.plat.xclus }
    ms := { s.ms with walks := s.ms.walks.filter fun w => w.bank != b || w.uid != (s.ctx b).uid } }

/-- The bank of an ended context is released once every locked register has landed or failed. The steward's is never
released (16_system R363). -/
def State.bankRelease (s : State) (b : Nat) : Option State :=
  let c := s.ctx b
  match c.ended with
  | some f =>
    if b ≠ 15 ∧ c.locks = [] ∧ !c.outFlows then
      let s1 := ((s.endBindings b).emptyBank b).finishJob c.uid f
      let upd (j : Job) : Job := if j.uid = some c.uid then { j with bank := none, resid := false } else j
      some { s1 with sched := { s1.sched with jobs := s1.sched.jobs.map upd } }
    else none
  | none => none

/-! ## Context images (16_system R373) -/

def imageMagic : Nat := 0x49435A56

/-- The clusters of a context that are awake. -/
def Ctx.awake (c : Ctx) : List Nat := (List.range 4).filter fun k => c.clus k == .awake

/-- The length of an image of `n` clusters. -/
def imageLen (n : Nat) : Nat := 4096 + 65536 + n * 1048576

/-- Ids that a context owns. -/
def State.ownedIds (s : State) (uid : Nat) : List Nat := (List.range 16).filter fun p => (s.part p).kind != .none && (s.part p).uid == uid

/-- The 16 bytes of a sheet's lanes, row by row. -/
def Sheet.bytes (v : Sheet) : List Byte := (List.range nLanes).flatMap fun l => leBytes 4 (v.lane l).toNat

/-- The header, padded to 4,096 bytes. -/
def State.imageHeader (s : State) (b : Nat) : List Byte :=
  let c := s.ctx b
  let marks (f : Nat → BitVec 64) (l : List Nat) : List Byte := l.flatMap fun k => leBytes 8 (f k).toNat
  let kst := s.kstat b
  let h := leBytes 4 imageMagic ++ leBytes 2 1 ++ leBytes 1 (bitsNat c.awake) ++
    leBytes 1 ((if c.held = 0 then 0 else 1) + if c.priv then 2 else 0) ++
    leBytes 8 (s.cid c).toNat ++ leBytes 8 kst.toNat ++
    ((List.range 6).flatMap fun k => leBytes 8 (s.creg b (8 + k)).toNat) ++
    ([5, 2, 3, 4].flatMap fun k => leBytes 8 (s.creg b k).toNat) ++
    ((List.range 8).flatMap fun k => leBytes 8 (c.stall k).toNat) ++ leBytes 8 c.bcnt.toNat ++
    leBytes 4 c.since ++ leBytes 1 c.held ++ leBytes 3 0 ++ leBytes 8 c.rmask.toNat ++
    leBytes 2 (bitsNat (s.ownedIds c.uid)) ++ leBytes 6 0 ++
    leBytes 8 (bitsNat ((List.range 64).filter fun k => (c.xv k).mark)) ++
    marks (fun k => (c.mv k).marks) (List.range 16) ++
    marks (fun k => if c.clus (k / 8) = .awake then (c.vv k).marks else 0) (List.range 32) ++
    ((List.range 64).flatMap fun k => leBytes 8 (c.xv k).val.toNat) ++
    ((List.range 32).flatMap fun k => leBytes 8 ((c.hv k).word false).toNat ++ leBytes 8 ((c.hv k).word true).toNat) ++
    leBytes 8 (s.creg b 0x080).toNat ++ leBytes 8 c.card.toNat
  h ++ leBytes (4096 - h.length) 0

/-- The whole image of the context in a bank. -/
def State.image (s : State) (b : Nat) : List Byte :=
  let c := s.ctx b
  s.imageHeader b ++ ((List.range 16).flatMap fun k => leBytes 4096 (c.mv k).bits.toNat) ++
  (c.awake.flatMap fun k => (List.range 8).flatMap fun i => (c.vv (8 * k + i)).bytes)

/-- A field of an image in memory; bytes of a retired unit are 0 (DESIGN CHOICE, log 113). -/
def State.im (s : State) (a ofs n : Nat) : Nat := leNat (s.memLoad (a + ofs) n)

/-- The image at an address is valid (16_system R380). -/
def State.imageOk (s : State) (a : Nat) : Bool :=
  let reg (ofs lim : Nat) : Bool := decide (s.im a ofs 8 < 2 ^ lim)
  let handle (k : Nat) : Bool := let w := s.im a (1104 + 16 * k) 8
    bitsOf w 15 6 == 0 && bitsOf w 10 2 == 0 && decide (s.im a (1112 + 16 * k) 8 < 2 ^ 58)
  s.im a 0 4 == imageMagic && s.im a 4 2 == 1 && decide (s.im a 6 1 < 16) && decide (s.im a 7 1 < 4) &&
  bitsOf (s.im a 16 8) 0 20 == 0 && reg 72 11 && bitsOf (s.im a 72 8) 4 4 == 0 && reg 80 5 && reg 88 3 &&
  s.im a 181 3 == 0 && s.im a 194 6 == 0 && bitsOf (s.im a 1616 8) 8 24 == 0 && s.im a 1632 2464 == 0 &&
  (List.range 32).all handle &&
  (s.im a 192 2 == 0 || bitsOf (s.im a 8 8) 13 10 == s.pkg)

/-- A loop entry from its register. -/
def loopOf (w : Nat) : LoopE := ⟨w.testBit 62, BitVec.ofNat 16 (w / 2 ^ 46), BitVec.ofNat 23 (w / 2 ^ 23), BitVec.ofNat 23 w⟩

/-- A handle of an image: lazy unless it is empty. -/
def handleOf (asid : BitVec 13) (p0 p1 : Nat) : Handle :=
  if bitsOf p0 12 2 = 0 then Handle.zero
  else
    { hst := .lazy, acause := p0.testBit 14, lease := BitVec.ofNat 6 (p0 / 2 ^ 58), frame := BitVec.ofNat 37 (p0 / 2 ^ 21),
      attr := BitVec.ofNat 10 p0, vbase := BitVec.ofNat 57 p1, xw := p1.testBit 57, tasid := asid }

/-- A table of the entries that differ from a default. -/
def tableOf {α : Type} [DecidableEq α] (d : α) (l : List (Nat × α)) : Tbl α := l.filter fun e => e.2 != d

/-- The context of an image. A marked line, or one of a retired unit (18_platform R399), marks the scalars, mask rows and
sheet rows whose bytes it holds (DESIGN CHOICE, log 28). -/
def State.imageCtx (s : State) (a uid begun : Nat) (chans : Tbl ChStat) (notes : Nat) (note : BitVec 8) : Ctx :=
  let r (ofs n : Nat) : Nat := s.im a ofs n
  let asid : BitVec 13 := BitVec.ofNat 13 (r 8 8)
  let clu := (List.range 4).filter fun k => (r 6 1).testBit k
  let kst := r 16 8
  let poi (ofs n : Nat) : Bool := s.readPoi (a + ofs) n
  let rows (mk ofs len : Nat) : BitVec 64 :=
    BitVec.ofNat 64 (bitsNat ((List.range 64).filter fun i => mk.testBit i || poi (ofs + len * i) len))
  let xs : Tbl XVal := tableOf ⟨0, false⟩ ((List.range 64).tail.map fun k =>
    (k, ⟨BitVec.ofNat 64 (r (592 + 8 * k) 8), (r 200 8).testBit k || poi (592 + 8 * k) 8⟩))
  let ms : Tbl MaskV := tableOf MaskV.zero ((List.range 16).tail.map fun k =>
    (k, ⟨BitVec.ofNat 32768 (r (4096 + 4096 * k) 4096), rows (r (208 + 8 * k) 8) (4096 + 4096 * k) 64⟩))
  let sheet (i k j : Nat) : Nat × Sheet :=
    let o := 69632 + 1048576 * i + 131072 * j
    (8 * k + j, ⟨tableOf 0 ((lanesOf (s.memLoad (a + o) 131072)).zipIdx.map fun x => (x.2, x.1)),
      rows (r (336 + 8 * (8 * k + j)) 8) o 2048⟩)
  let vs : Tbl Sheet := tableOf Sheet.zero (clu.zipIdx.flatMap fun x => (List.range 8).map fun j => sheet x.2 x.1 j)
  let loops := (((List.range 6).map fun k => r (24 + 8 * k) 8).takeWhile fun w => w.testBit 63).map loopOf
  { Ctx.zero with
    uid := uid
    pc := BitVec.ofNat 16 (kst / 2 ^ 48)
    loops := loops
    dly := bitsOf kst 30 2
    dtgt := BitVec.ofNat 16 (kst / 2 ^ 32)
    x := xs
    h := tableOf Handle.zero ((List.range 32).map fun k => (k, handleOf asid (r (1104 + 16 * k) 8) (r (1112 + 16 * k) 8)))
    v := vs
    m := ms
    clusters := clu.map fun k => (k, .awake)
    fpx := BitVec.ofNat 5 (r 80 8)
    fpm := BitVec.ofNat 3 (r 88 8)
    src := BitVec.ofNat 32 (r 100 4)
    srs := BitVec.ofNat 32 (r 96 4)
    vrb := BitVec.ofNat 4 (r 72 8)
    mrb := BitVec.ofNat 3 (r 72 8 / 2 ^ 8)
    stb := tableOf 0 ((List.range 8).map fun k => (k, BitVec.ofNat 64 (r (104 + 8 * k) 8)))
    bcnt := BitVec.ofNat 64 (r 168 8)
    card := BitVec.ofNat 64 (r 1624 8)
    prio := BitVec.ofNat 3 (r 8 8 / 2 ^ 29)
    queue := BitVec.ofNat 6 (r 8 8 / 2 ^ 23)
    priv := (r 7 1).testBit 1
    rmask := BitVec.ofNat 64 (r 184 8)
    asid := asid
    ncnt := BitVec.ofNat 32 (r 1620 4) + BitVec.ofNat 32 notes
    last := if notes = 0 then BitVec.ofNat 8 (r 1616 1) else note
    held := r 180 1
    since := r 176 4
    chans := chans
    begun := begun }

/-! ## The context-control unit (16_system R374, R376 to R380) -/

/-- No seat refers to a bank. -/
def State.away (s : State) (b : Nat) : Bool := (List.range 4).all fun k => match s.seat k with
  | .free => true
  | .seating x _ => x != b
  | .seated x => x != b
  | .unseating x _ => x != b

/-- An op of the unit lands its result and leaves. -/
def State.finishCtl (s : State) (o : CtlOp) (v : Word) : State :=
  ({ s with core := { s.core with ctlOps := s.core.ctlOps.filter fun x => x.id != o.id } } : State).answer o.uid o.bank o.id v

def State.failCtl (s : State) (o : CtlOp) (st : Nat) : State := s.finishCtl o (statusWord st)

/-- Request the unseating of a context as CUNS does. -/
def State.askUnseat (s : State) (b : Nat) : State :=
  s.modCtx b fun c => { c with noSeat := true, unseat := (s.seatOf b).isSome }

/-- A context begins its 8 beats of seating (04_sequencing R71). -/
def State.seatNow (s : State) (k b : Nat) : State :=
  (s.setSeat k (.seating b (s.core.beat + 8))).modCtx b fun c => { c with noSeat := false }

/-- CSEAT: the seat is taken if it is free and the context has left its own, and asked for otherwise. -/
def State.beginSeat (s : State) (o : CtlOp) (b k : Nat) : State :=
  match s.seatOf b with
  | some j => (match s.seat j with
      | .seated _ => s.finishCtl o 0
      | _ => s)
  | none =>
    let s1 := s.modCtx b fun c => { c with noSeat := false }
    match s1.seat k with
    | .free => if s1.away b then s1.seatNow k b else { s1 with core := { s1.core with want := tins s1.core.want k b } }
    | .unseating _ _ => { s1 with core := { s1.core with want := tins s1.core.want k b } }
    | .seating q _ | .seated q =>
      ({ s1 with core := { s1.core with want := tins s1.core.want k b } } : State).modCtx q fun c => { c with unseat := true }

/-- The entry and x1 that CRSM.at gives. -/
def resumeAt (v : Word) : BundleNo × Word := (v.extractLsb' 0 16, (v.extractLsb' 16 32).setWidth 64)

/-- An op whose turn has come begins: what fails at once lands at once. -/
def State.beginCtl (s : State) (o : CtlOp) : State :=
  let b := o.xa.toNat
  let c := s.ctx b
  let live := s.hasCtx b && c.ended.isNone
  let upd (x : CtlOp) : CtlOp := if x.id = o.id then { x with began := true, who := c.uid } else x
  let s1 : State := { s with core := { s.core with ctlOps := s.core.ctlOps.map upd } }
  match o.op with
  | .cseat _ =>
    if 15 ≤ b ∨ 4 ≤ o.xb.toNat then s1.failCtl o 2
    else if !live ∨ c.held ≠ 0 then s1.failCtl o 5
    else s1.beginSeat o b o.xb.toNat
  | .cuns .. =>
    if 15 ≤ b then s1.failCtl o 2
    else if !live ∨ c.held ≠ 0 then s1.failCtl o 5
    else if (s1.askUnseat b).away b then (s1.askUnseat b).finishCtl o 0 else s1.askUnseat b
  | .crsm .. =>
    if 15 ≤ b then s1.failCtl o 2
    else if !live ∨ c.held = 0 then s1.failCtl o 5
    else (s1.modCtx b fun c => c.resume none).finishCtl o 0
  | .crsmAt _ =>
    if 15 ≤ b then s1.failCtl o 2
    else if !live ∨ c.held = 0 then s1.failCtl o 5
    else (s1.modCtx b fun c => c.resume (some (resumeAt o.xb))).finishCtl o 0
  | .ckil .. =>
    if 15 ≤ b then s1.failCtl o 2
    else if live then s1.kill b
    else match s1.hasCtx b, s1.inMemory b with
      | false, some j => ((s1.dropWork (j.uid.getD 0)).finishJob (j.uid.getD 0) (.killed j.held)).finishCtl o 0
      | _, _ => s1.failCtl o 5
  | .csav _ =>
    let a := o.xb.toNat
    if b = 15 then s1.failCtl o 5
    else if 15 < b ∨ a % 4096 ≠ 0 ∨ !inHbm a (imageLen 0) then s1.failCtl o 2
    else if !live ∨ c.streams ≠ [] then s1.failCtl o 5
    else s1.askUnseat b
  | .crst _ =>
    let a := o.xa.toNat
    let n := o.xb.toNat
    if a % 4096 ≠ 0 ∨ !inHbm a (imageLen 0) ∨ (15 ≤ n ∧ n ≠ 31) then s1.failCtl o 2 else s1
  | _ => s1

/-- Ops begin as their turn comes. -/
def State.ctlKick (s : State) : State :=
  s.core.ctlOps.foldl (fun t _ =>
    match t.core.ctlOps.head? with
    | some o => if o.began then t else t.beginCtl o
    | none => t) s

/-- The op in progress lands if what it waits for has come about: a context seated, away from its seat, or gone. -/
def State.ctlPoll (s : State) : State :=
  match s.core.ctlOps.head? with
  | some o =>
    let b := o.xa.toNat
    let done := o.began && match o.op with
      | .cseat _ => (List.range 4).any fun k => s.seat k == .seated b
      | .cuns .. => s.away b || (s.ctx b).uid != o.who
      | .ckil .. => !s.hasCtx b || (s.ctx b).uid != o.who
      | _ => false
    if done then (s.finishCtl o 0).ctlKick else s
  | none => s

/-- The op in progress, if it is of a kind. -/
def State.ctlOp (s : State) (f : Instr → Bool) : Option CtlOp :=
  match s.core.ctlOps.head? with
  | some o => if o.began && f o.op then some o else none
  | none => none

/-- An op of the unit at issue. -/
def ctlSem (p : Path) (op : Instr) (xs : List XReg) (xd : XReg) : OpSem :=
  { path := p
    priv := true
    reads := fun _ _ => xs.map fun n => .x n.toNat
    writes := fun _ _ => [(.x xd.toNat, none)]
    fault := fun s b => poisonedX (s.ctx b) xs
    act := fun pre b s =>
      let c := pre.ctx b
      let o : CtlOp :=
        { id := s.ids
          bank := b
          uid := c.uid
          seq := s.seq
          op := op
          xa := c.xw (xs.getD 0 0)
          xb := c.xw (xs.getD 1 0)
          due := 0
          who := 0
          began := false }
      let s1 := s.lockReg b (.x xd.toNat) s.ids
      ({ s1 with ids := s1.ids + 1, seq := s1.seq + 1, core := { s1.core with ctlOps := s1.core.ctlOps ++ [o] } } : State).ctlKick }

/-- CSEAT (16_system R376). -/
def cseatSem (o : SyOp) : OpSem := ctlSem o.path (.cseat o) [o.xa, o.xb] o.xd

/-- CUNS (16_system R376). -/
def cunsSem (p : Path) (xa xd : XReg) : OpSem := ctlSem p (.cuns p xa xd) [xa] xd

/-- CRSM (16_system R377). -/
def crsmSem (p : Path) (xa xd : XReg) : OpSem := ctlSem p (.crsm p xa xd) [xa] xd

/-- CRSM.at (16_system R377). -/
def crsmAtSem (o : SyOp) : OpSem := ctlSem o.path (.crsmAt o) [o.xa, o.xb] o.xd

/-- CKIL (16_system R378). -/
def ckilSem (p : Path) (xa xd : XReg) : OpSem := ctlSem p (.ckil p xa xd) [xa] xd

/-- CSAV (16_system R379). -/
def csavSem (o : SyOp) : OpSem := ctlSem o.path (.csav o) [o.xa, o.xb] o.xd

/-- CRST (16_system R380). -/
def crstSem (o : SyOp) : OpSem := ctlSem o.path (.crst o) [o.xa, o.xb] o.xd

/-! ## Save and restore -/

/-- The interlocked queue of a context is empty (10_memory R238). -/
def State.ilockEmpty (s : State) (uid : Nat) : Bool := !(s.ms.flight.any fun a => a.uid == uid && a.ilock)

/-- CSAV writes its image, as a release behind the accesses issued before it, and releases the bank (16_system R379). -/
def State.saveComplete (s : State) : Option State :=
  match s.ctlOp fun i => match i with
    | .csav _ => true
    | _ => false with
  | some o =>
    let b := o.xa.toNat
    let a := o.xb.toNat
    let c := s.ctx b
    if !s.hasCtx b || c.uid != o.who || c.ended.isSome then some ((s.failCtl o 5).ctlKick)
    else if !s.away b then none
    else if c.streams ≠ [] then some ((s.failCtl o 5).ctlKick)
    else if !c.pend.isEmpty || !c.locks.isEmpty || !s.ilockEmpty c.uid || !s.allPerformed o.uid o.seq ||
        (c.clusters.any fun e => match e.2 with
          | .waking _ => true
          | _ => false) then none
    else
      let n := imageLen c.awake.length
      if !inHbm a n then some ((s.failCtl o 2).ctlKick)
      else if !s.unitsReady a n then none
      else
        let s1 := (s.memStore a (s.image b) false).emptyBank b
        let upd (j : Job) : Job := if j.uid = some c.uid then
          { j with bank := none, resid := false, chans := c.chans, notes := 0, last := c.last, held := c.held, fences := c.fences } else j
        let s2 : State := { s1 with sched := { s1.sched with jobs := s1.sched.jobs.map upd } }
        some ((s2.finishCtl o (BitVec.ofNat 64 n)).ctlKick)
  | none => none

/-- The job that an image of this package belongs to. -/
def State.imageJob (s : State) (a : Nat) : Option Job :=
  if bitsOf (s.im a 8 8) 13 10 = s.pkg then
    s.sched.jobs.find? fun j => j.uid.isSome && !j.resid && j.final.isNone && j.qmap == bitsOf (s.im a 8 8) 23 6 &&
      j.idx.toNat == s.im a 1624 8
  else none

/-- CRST reads its image, behind the accesses of the steward issued before it (15_ordering R347), and makes the context resident,
or refuses (16_system R380). -/
def State.restoreComplete (s : State) : Option State :=
  match s.ctlOp fun i => match i with
    | .crst _ => true
    | _ => false with
  | some o =>
    let a := o.xa.toNat
    let n := o.xb.toNat
    let clu := s.im a 6 1
    let need := imageLen ((List.range 4).filter fun k => clu.testBit k).length
    let fail (s : State) (st : Nat) : Option State := some ((s.failCtl o st).ctlKick)
    if !s.unitsReady a (imageLen 0) || !s.allPerformed o.uid o.seq then none
    else if !s.imageOk a || !inHbm a need then fail (s.noteLoad a 4096) 0x0B
    else if !s.unitsReady a need then none
    else
      let free := (List.range 15).filter fun b => s.bankEmpty b
      let fit := free.filter fun b => s.bankHas b clu
      let noRoom : State := (s.noteLoad a 4096).ventNote 0x30 none a clu
      let put (b : Nat) : Option State :=
        let job := s.imageJob a
        let uid := match job with
          | some j => j.uid.getD s.ids
          | none => s.ids
        let begun := match job with
          | some j => j.disp.getD s.core.beat
          | none => s.core.beat
        let c := match job with
          | some j => { s.imageCtx a uid begun j.chans j.notes j.last with fences := j.fences }
          | none => s.imageCtx a uid begun [] 0 0
        let upd (j : Job) : Job := if j.uid = some uid then { j with bank := some b, resid := true, chans := [], notes := 0, held := 0, fences := [] } else j
        let s1 := (s.noteLoad a need).setCtx b c
        some ((({ s1 with
          ids := s1.ids + 1
          sched := { s1.sched with jobs := s1.sched.jobs.map upd } } : State).finishCtl o (BitVec.ofNat 64 b)).ctlKick)
      if n = 31 then
        if free = [] then fail (s.noteLoad a 4096) 1
        else match fit with
          | b :: _ => put b
          | [] => fail noRoom 0x0A
      else if !free.contains n then fail (s.noteLoad a 4096) 5
      else if fit.contains n then put n
      else fail noRoom 0x0A
  | none => none

/-! ## Events -/

def execBankRelease (s : State) : Res := s.event (((argId s.arg).bind s.bankRelease).map State.ctlPoll)

/-- The vent pushes its oldest waiting record (16_system R366). -/
def execEventRecordPush (s : State) : Res :=
  s.event (match s.sched.ventQ with
    | e :: rest => some (({ s with sched := { s.sched with ventQ := rest } } : State).pushRecord e).1
    | [] => none)

def execContextSaveComplete (s : State) : Res := s.event s.saveComplete
def execContextRestoreComplete (s : State) : Res := s.event s.restoreComplete

end Sys2Proof.Machine
end

