-- ==== Sys2Proof/Machine/Power.lean ====
section
/-! DEFINITION. Cones, the thermal emergency and the damper (17_power R387 to R392). Codes of temperatures are in units of
1/16 °C from −64 °C, as the power status block gives them (R392; DEDUCED for readings, log 29). -/

namespace Sys2Proof.Machine

/-- The code of a temperature in °C. -/
def degC (t : Int) : Nat := ((t + 64) * 16).toNat

/-- The cone of grid place `g` of logical layer `l`. -/
def State.cone (s : State) (l g : Nat) : Cone := tget s.pow.cones (16 * l + g) Cone.none

/-- Layers whose cones take part (17_power R387). -/
def State.liveLayers (s : State) : List Nat := (List.range 12).filter fun l => !s.plat.dark.contains l

/-- The nearest layers in use above and below. -/
def State.columnOf (s : State) (l : Nat) : List Nat :=
  ((s.liveLayers.filter (· < l)).getLast?).toList ++ ((s.liveLayers.filter (l < ·)).head?).toList

/-- Places next to `g` across a grid edge. -/
def gridNext (g : Nat) : List Nat :=
  (List.range 16).filter fun h =>
    (h / 4 == g / 4 && (h % 4 + 1 == g % 4 || g % 4 + 1 == h % 4)) ||
    (h % 4 == g % 4 && (h / 4 + 1 == g / 4 || g / 4 + 1 == h / 4))

/-- Column neighbours, then same-layer neighbours, as layer and place. -/
def State.neighbours (s : State) (l g : Nat) : List (Nat × Nat) :=
  (s.columnOf l).map (fun k => (k, g)) ++ (gridNext g).map fun h => (l, h)

/-! ## Samples (17_power R388) -/

/-- A reading joins a cone's history: its changes over the last 2^20 beats, and the code before them. -/
def Cone.record (c : Cone) (beat : Nat) (code : BitVec 12) : Cone :=
  let h := if c.seen ∧ c.code = code then c.hist else (beat, code) :: c.hist
  let recent := h.filter fun e => decide (beat < e.1 + 2 ^ 20)
  let before := (h.filter fun e => decide (e.1 + 2 ^ 20 ≤ beat)).take 1
  { c with code := code, seen := true, since := if c.seen ∧ c.code = code then c.since else beat, hist := recent ++ before }

/-- The span of a cone's readings over the last 2^20 beats. -/
def Cone.span (c : Cone) : Nat :=
  (c.hist.map (·.2.toNat)).foldl Nat.max 0 - (c.hist.map (·.2.toNat)).foldl Nat.min 4095

/-- A reading outside the range, or too far from the one before. -/
def Cone.jumps (old : Cone) (code : BitVec 12) : Bool :=
  decide (code.toNat < degC (-20)) || decide (degC 150 < code.toNat) ||
  (old.seen && (decide (old.code.toNat + 320 < code.toNat) || decide (code.toNat + 320 < old.code.toNat)))

/-- A code unchanged for 2^20 beats while a column neighbour's readings spanned more than 4 °C. -/
def State.stuck (s : State) (l g : Nat) : Bool :=
  decide ((s.cone l g).since + 2 ^ 20 ≤ s.core.beat) && (s.columnOf l).any fun k => decide (64 < (s.cone k g).span)

/-- The used values of a layer's plausible cones. -/
def State.plausible (s : State) (ps : List (Nat × Nat)) : List Nat :=
  (ps.filter fun p => !(s.cone p.1 p.2).subst).map fun p => (s.cone p.1 p.2).used.toNat

/-- What a substituted cone takes its value from: its plausible neighbours, or else its layer. -/
def State.sources (s : State) (l g : Nat) : List Nat :=
  if s.plausible (s.neighbours l g) ≠ [] then s.plausible (s.neighbours l g)
  else s.plausible ((List.range 16).map fun h => (l, h))

/-- A cone's used value has a source. -/
def State.hasValue (s : State) (l g : Nat) : Bool := !(s.cone l g).subst || s.sources l g != []

def State.setCone (s : State) (l g : Nat) (c : Cone) : State :=
  { s with pow := { s.pow with cones := tput s.pow.cones (16 * l + g) c Cone.none } }

/-- The cones in use, lowest layer first and then lowest place. -/
def State.allCones (s : State) : List (Nat × Nat) := s.liveLayers.flatMap fun l => (List.range 16).map fun g => (l, g)

/-- Steps of every layer; a rise to 12 or more is told to the jobs on the layer (17_power R390). -/
def State.setSteps (s : State) (f : Nat → Nat) : State :=
  (List.range 12).foldl (fun t l =>
    let old := tget t.pow.steps l 0
    let t1 : State := { t with pow := { t.pow with steps := tput t.pow.steps l (f l) 0 } }
    if old < 12 ∧ 12 ≤ f l then
      let uids := (((List.range 16).filter fun p => let v := t.part p
        v.kind == .part && v.quads != 0 && decide (v.first ≤ l) && decide (l ≤ v.last)).map fun p => (t.part p).uid).dedup
      uids.foldl (fun t u => t.notifyUid u 0x82 [l, f l]) t1
    else t1) s

/-- The first cone in an emergency, the end of one, and the steps and record of R391. After its end the steps stay until the
damper's next recomputation. -/
def State.thermal (s : State) : State :=
  match s.allCones.find? fun p => s.hasValue p.1 p.2 && decide (degC 125 ≤ (s.cone p.1 p.2).used.toNat) with
  | some p =>
    if s.pow.emerg then s
    else (({ s with pow := { s.pow with emerg := true } } : State).setSteps fun _ => 15).ventNote 0x38 none 0 (p.1 + 16 * p.2)
  | none =>
    if s.pow.emerg ∧ s.allCones.all fun p => !s.hasValue p.1 p.2 || decide ((s.cone p.1 p.2).used.toNat < degC 110) then
      { s with pow := { s.pow with emerg := false } } else s

/-- The readings of a sample that nothing supplies: free values (log 61). -/
def State.freeReadings (s : State) : List (BitVec 12) := (List.range 192).map (Config.coneReading s.core.beat)

/-- A sample is due: they lie 1,024 beats apart, the first no later than that after the start (17_power R387). -/
def State.sampleDue (s : State) : Bool := decide (s.pow.lastSample.getD 0 + 1024 ≤ s.core.beat)

/-- All cones are sampled in one beat. A substituted cone without a source has an open used value, and its layer the
thermal demand 15 (17_power R388). -/
def State.coneSample (s : State) (rs : List (BitVec 12)) : Option State :=
  let due := match s.pow.lastSample with
    | some t => decide (t + 1024 ≤ s.core.beat)
    | none => true
  if rs.length ≠ 192 ∨ !due then none
  else
    let code (p : Nat × Nat) : BitVec 12 := rs.getD (16 * p.1 + p.2) 0
    let jump := s.allCones.filter fun p => (s.cone p.1 p.2).jumps (code p)
    let s1 := s.allCones.foldl (fun t p => t.setCone p.1 p.2 ((t.cone p.1 p.2).record s.core.beat (code p))) s
    let new := s1.allCones.filter fun p => !(s1.cone p.1 p.2).subst && (jump.contains p || s1.stuck p.1 p.2)
    let s2 := new.foldl (fun t p => (t.setCone p.1 p.2 { t.cone p.1 p.2 with subst := true }).ventNote 0x38 none 0
      (p.1 + 16 * p.2 + 256)) s1
    let s3 := s2.allCones.foldl (fun t p => if (t.cone p.1 p.2).subst then t
      else t.setCone p.1 p.2 { t.cone p.1 p.2 with used := code p }) s2
    let s4 := s3.allCones.foldl (fun t p =>
      if !(t.cone p.1 p.2).subst then t
      else if t.hasValue p.1 p.2 then
        t.setCone p.1 p.2 { t.cone p.1 p.2 with used := BitVec.ofNat 12 ((s3.sources p.1 p.2).foldl Nat.max 0 + 128) }
      else
        let t1 := t.setCone p.1 p.2 { t.cone p.1 p.2 with used := (Config.freeWord t.free).setWidth 12 }
        { t1 with free := t1.free + 1 }) s3
    some ({ s4 with pow := { s4.pow with lastSample := some s.core.beat } } : State).thermal

/-! ## The damper (17_power R389) -/

/-- A layer's thermal demand. -/
def State.thermalDemand (s : State) (l : Nat) : Nat :=
  let t := (((List.range 16).filter fun g => s.hasValue l g).map fun g => (s.cone l g).used.toNat).foldl Nat.max 0
  if (List.range 16).any fun g => !s.hasValue l g then 15
  else if t < degC 95 then 0 else min 15 ((t - degC 95) / 32 + 1)

/-- 16 times the load of the partitions with work, in W. -/
def State.loadAt (s : State) (c : Nat) : Nat :=
  ((List.range 16).flatMap fun p => if (s.part p).queue.isEmpty then [] else (s.part p).blocks).foldl
    (fun n b => n + (if s.pow.lowBlk.contains b then 12 else 27) * (16 - c)) 0

/-- The current demand. -/
def State.currentDemand (s : State) : Nat :=
  ((List.range 16).find? fun c => decide (s.loadAt c ≤ 64 * s.pow.ccap.toNat)).getD 15

/-- The steps are recomputed every 64 beats. -/
def State.damperRecompute (s : State) : Option State :=
  if s.pow.lastDamp.getD 0 + 64 ≤ s.core.beat then
    let cur := s.currentDemand
    let step (l : Nat) : Nat :=
      if s.pow.emerg then 15
      else min 15 (max (s.thermalDemand l) cur + if (List.range 16).any fun g => (s.cone l g).subst then 1 else 0)
    some (({ s with pow := { s.pow with lastDamp := some s.core.beat } } : State).setSteps step)
  else none

/-! ## Events -/

def execConeSample (s : State) : Res :=
  s.event (match s.arg with
    | .cones rs => s.coneSample rs
    | _ => none)

def execDamperRecompute (s : State) : Res := s.event s.damperRecompute

end Sys2Proof.Machine
end

