-- ==== Sys2Proof/Machine/Platform.lean ====
section
/-! DEFINITION. The host link, ownership flips, start-up, self-test, patrol, warm reset, the instruction-store loader and
attestation (18_platform R393 to R407, 10_memory R239). -/

namespace Sys2Proof

open Sys2Proof.Machine

/-! ## What comes from the host -/

/-- The right that a host request asks for. -/
def HostReq.right : HostReq → Right
  | .load _ _ => .read
  | .store _ _ => .write
  | .atomic _ _ => .atomic

/-- The addresses of a host request. -/
def HostReq.span : HostReq → List Nat
  | .load a n => (List.range n).map (a + ·)
  | .store a bs => (List.range bs.length).map (a + ·)
  | .atomic a g => (List.range (amoBytes g.aw)).map (a + ·)

/-! ## The steward image (03_assembly R64, 18_platform R406) -/

/-- A little-endian field of an image. -/
def StewImage.field (i : StewImage) (ofs n : Nat) : Nat := leNat ((i.bytes.drop ofs).take n)

/-- A section: its type, place and size. -/
structure VzoSection where
  type : Nat
  ofs  : Nat
  size : Nat
  deriving DecidableEq, Repr

def StewImage.nsect (i : StewImage) : Nat := i.field 6 2

/-- Where entry `k` of the section table stands. -/
def StewImage.entryAt (i : StewImage) (k : Nat) : Nat := i.field 16 8 + 32 * k

/-- The sections in the order of the table. -/
def StewImage.sections (i : StewImage) : List VzoSection :=
  (List.range i.nsect).map fun k => ⟨i.field (i.entryAt k) 4, i.field (i.entryAt k + 8) 8, i.field (i.entryAt k + 16) 8⟩

/-- The first section of a type. That an image with several of a type is accepted, and the first `.text`, `.data` and `.sig`
are the ones used, is a DESIGN CHOICE (03_assembly R64 does not say, log 107). -/
def StewImage.sect (i : StewImage) (type : Nat) : Option VzoSection := i.sections.find? (·.type == type)

/-- The bytes of a section; none if the image has none of the type. -/
def StewImage.body (i : StewImage) (type : Nat) : List Byte :=
  match i.sect type with
  | some x => (i.bytes.drop x.ofs).take x.size
  | none => []

/-- The container has the form of R64: its header, its table, whole bundles in `.text`, and `.sig` last in its
table, wherever its bytes lie (DESIGN CHOICE, log 119). -/
def StewImage.formed (i : StewImage) : Bool :=
  let entry (k : Nat) : Bool := i.field (i.entryAt k + 4) 4 == 0 && i.field (i.entryAt k + 24) 8 == 0
  i.field 0 4 == 0x004F5A56 && i.field 4 2 == 1 && decide (1 ≤ i.nsect) && decide (i.nsect ≤ 16) && decide (i.field 8 4 < 4) &&
  i.field 24 8 == i.bytes.length && decide (64 ≤ i.bytes.length) && i.field 32 32 == 0 &&
  decide (i.entryAt i.nsect ≤ i.bytes.length) && (List.range i.nsect).all entry &&
  (i.sections.all fun x => decide (1 ≤ x.type) && decide (x.type ≤ 9) && decide (x.ofs + x.size ≤ i.bytes.length) &&
    (x.type != 1 || x.size % 128 == 0)) &&
  ((i.field 8 4).testBit 0 == (i.sect 8).isSome) && (i.sections.dropLast.all fun x => x.type != 8)

/-- `SVER` (18_platform R406). -/
def StewImage.sver (i : StewImage) : BitVec 32 := BitVec.ofNat 32 (leNat ((i.body 8).take 4))

/-- The bytes up to a place of the image beyond `.sig`'s start. -/
def StewImage.upToSig (i : StewImage) (n : Nat) : List Byte :=
  match i.sect 8 with
  | some x => i.bytes.take (x.ofs + n)
  | none => []

/-- Why the boot ROM refuses a steward image, if it does: it is no container with a `.sig` (DESIGN CHOICE, log 55), the parameter
types are not those named, the signature does not verify, or `SVER` is too low (18_platform R406). -/
def StewImage.refusal (i : StewImage) : Option ImageFault :=
  let sig := (i.body 8).drop 8
  if !(i.formed && (i.sect 8).isSome && leNat ((i.body 8).drop 4 |>.take 4) == 0) then some .container
  else if !hssTypes sig then some .types
  else if !hssVerifies (i.upToSig 8) sig then some .signature
  else if i.sver.ult Config.fusedMin then some .version
  else none

end Sys2Proof

namespace Sys2Proof.Machine

/-! ## The Gradric link (18_platform R393, R396) -/

/-- The link is up. -/
def State.linkUp (s : State) : Bool := decide (0 < s.plat.lanes)

/-- The first grant to this package that covers some bytes; an ASID plays no part (DEDUCED, log 30). -/
def State.hostGrant (s : State) (loc : Bool) (r : Right) (as : List Nat) : Option Grant :=
  (s.fab.grants.find? fun e => e.2.local_ == loc && e.2.has r && (e.2.any || e.2.pkg.toNat == s.pkg) &&
    as.all fun a => decide (e.2.base ≤ a) && decide (a < e.2.base + e.2.size)).map (·.2)

/-- The grant that covers a host request (18_platform R394, 14_fabric R326). -/
def State.hostCover (s : State) (r : HostReq) : Option Grant :=
  let as := r.span
  if as.all fun a => inAlias a 1 then
    s.hostGrant false (if apertureOnly r.right as then .aperture else r.right) (as.map (· - spadBase))
  else s.hostGrant true r.right as

/-- The grant a host request passes under: the one that covered it when it arrived (14_fabric R340). -/
def State.hostPass (s : State) (x : HostReq × Option Grant) : Option Grant :=
  if s.homeArea x.1.right x.1.span then x.2 else none

/-- The unit of the link's lanes, as their self-test names it (18_platform R400). -/
def linkUnit : PartUnit := .lanes 0

/-- A link frame arrives: one already accepted changes nothing, and one with a bad CRC starts the lanes' self-test
(18_platform R400). -/
def State.linkFrame (s : State) (f : LinkFrame) : Option State :=
  if s.linkUp && f.crc != f.goodCrc then some (s.startTest linkUnit)
  else if s.linkUp && f.seq == s.plat.hRx then
    let kept (x : OutFrame) : Bool := decide (32768 ≤ (f.ackd - x.seq).toNat)
    some { s with plat := { s.plat with
      hRx := s.plat.hRx + 1
      hUnack := s.plat.hUnack.filter kept
      hAgain := s.plat.hAgain.filter kept
      hostIn := s.plat.hostIn ++ f.reqs.map fun r => (r, s.hostCover r) } }
  else none

/-- The bytes of a message on the link, whose layout 18_platform R393 does not give. Free value (log 54). -/
opaque hostMsgBytes : HostMsg → List Byte

/-- Fill a payload of `room` bytes from messages, the first of them from its byte `ofs` on: its parts, the messages that it
ends, how much of the next it holds, and those still to send. -/
def fillPayload : (room ofs : Nat) → List HostMsg → List (HostMsg × List Byte) × List HostMsg × Nat × List HostMsg
  | _, _, [] => ([], [], 0, [])
  | room, ofs, m :: ms =>
    let bs := (hostMsgBytes m).drop ofs
    if bs.length ≤ room then
      let r := fillPayload (room - bs.length) 0 ms
      ((m, bs) :: r.1, m :: r.2.1, r.2.2)
    else ([(m, bs.take room)], [], ofs + room, m :: ms)

/-- The payload of a link frame. -/
def linkPayload : Nat := 2016

/-- The bytes of messages that a frame holds. -/
def OutFrame.load (f : OutFrame) : List Byte := f.parts.flatMap (·.2)

/-- The CRC that a link frame of this package bears, over its header and its whole payload. -/
def OutFrame.goodCrc (f : OutFrame) : BitVec 32 :=
  crc32 (Config.linkHeader f.seq f.ackd ++ (f.load ++ List.replicate linkPayload 0).take linkPayload)

/-- A new link frame: what it can hold of what waits for the host. One that holds nothing bears its acknowledgement alone. -/
def State.linkNew (s0 : State) : State :=
  let s := s0.pump
  let r := fillPayload linkPayload s.plat.hOfs s.plat.hostOut
  let f0 : OutFrame := { seq := s.plat.hTx, ackd := s.plat.hRx - 1, parts := r.1, msgs := r.2.1, crc := 0 }
  let f := { f0 with crc := f0.goodCrc }
  { s with plat := { s.plat with
    hTx := s.plat.hTx + 1, hUnack := s.plat.hUnack ++ [f], hWire := some f, hOfs := r.2.2.1, hostOut := r.2.2.2 } }

/-- The package sends a link frame again, if there is one to be sent again, or else a new one. -/
def State.linkSend (s : State) : Option State :=
  if !s.linkUp then none
  else match s.plat.hAgain with
    | f :: rest => some { s with plat := { s.plat with hAgain := rest, hWire := some f } }
    | [] => some s.linkNew

/-- The link runs on `n` lanes from now on; with none it is down. Frames not acknowledged are sent again. -/
def State.setLanes (s : State) (n : Nat) : State :=
  { s with plat := { s.plat with
    lanes := n, hAgain := s.plat.hUnack, hDown := if n = 0 then some (s.plat.hDown.getD s.core.beat) else none } }

/-- The lanes of the link that have not been retired. -/
def State.goodLanes (s : State) : Nat := 16 - tget s.plat.xlane 64 0

/-- The link retrains with `n` lanes, and the self-test of its lanes begins if it waits (18_platform R400). -/
def State.linkLanes (s : State) (n : Nat) : Option State :=
  if n ≤ s.goodLanes ∧ (s.plat.lanes ≠ 0 ∨ s.plat.hDown.isSome) then some ((s.setLanes n).beginTests (· == linkUnit)) else none

/-- A message of an access or copy to host memory. -/
def HostMsg.forDevice (m : HostMsg) : Bool := m.asker.isSome

/-- A frame without the messages that are given up: neither they nor their bytes are in it when it is sent again. -/
def OutFrame.without (f : OutFrame) (keep : HostMsg → Bool) : OutFrame :=
  let g := { f with msgs := f.msgs.filter keep, parts := f.parts.filter fun x => keep x.1 }
  { g with crc := g.goodCrc }

/-- What accesses and copies have asked of the host is given up: nothing of it is delivered. -/
def State.dropAsked (s : State) : State :=
  let keep (m : HostMsg) : Bool := !m.forDevice
  { s with
    plat := { s.plat with
      hostOut := s.plat.hostOut.filter keep, hUnack := s.plat.hUnack.map (·.without keep), hAgain := s.plat.hAgain.map (·.without keep)
      hOfs := match s.plat.hostOut with
        | m :: _ => if keep m then s.plat.hOfs else 0
        | [] => 0 }
    copy := { s.copy with queues := s.copy.queues.map fun q => (q.1, q.2.map fun d =>
      if d.hostAsk = [] ∧ d.hostWr = [] then d else { d with hostAsk := [], hostWr := [], err := some (d.err.getD 0x19) }) } }

/-- The link has been down for 2^22 beats: every host access in flight fails, and so does every copy that waits for the host
(11_copy R266); a self-test of the lanes is asked for (18_platform R400). -/
def State.linkTimeout (s : State) : Option State :=
  match s.plat.hDown with
  | some t =>
    if t + 2 ^ 22 ≤ s.core.beat ∧ !s.ms.hostLost then
      let hit := s.ms.flight.filter fun a => a.open_.any fun x => x.1 == .host
      let who := (hit.map fun a => (a.uid, a.bank)).dedup
      let note (b : Option Nat) (s : State) : State := s.ventNote 0x19 b 0 (2 ^ 31)
      let s1 := if who = [] then note none s else who.foldl (fun s u => note (s.bankOf u.1 u.2) s) s
      let s2 := hit.foldl (fun s a => (s.modAccess a.id fun a => a.fail s.core.beat (· == .host)).settle a.id) s1
      some (({ s2.dropAsked with ms := { s2.dropAsked.ms with hostLost := true } } : State).startTest linkUnit)
    else none
  | none => none

/-! ## Host requests (18_platform R394, 14_fabric R326) -/

/-- The atomics the host may ask for; those of flag words are of 4 bytes (12_sync R294). -/
def hostAtomic (a : Nat) (g : AtomicArg) : Bool :=
  (g.aop == 0 || g.aop == 6 || g.aop == 7) && (g.aw == 1 || g.aw == 2 || g.aw == 4 || g.aw == 5) && a % amoBytes g.aw == 0 && amoFits a g

/-- The oldest host request performs, in the order of delivery; some lines are found uncorrectable as it reads them (log 106). -/
def State.hostRequest (s : State) (ls : List Nat) : Option State :=
  match s.plat.hostIn with
  | x :: rest =>
    let r := x.1
    let as := r.span
    if !s.allReady as then none
    else
      let s1 : State := { s with plat := { s.plat with hostIn := rest } }
      let out (t : State) (m : HostMsg) : State := { t with plat := { t.plat with hostOut := t.plat.hostOut ++ [m] } }
      some (match r with
        | .load a n => match s.hostPass x with
          | some _ => if s.unitsGone a n then out (s1.noteGone a) (.data (List.replicate n 0) true)
              else
                let t := s1.meetLines ls a n
                out t (.data (t.locRead a n) (t.locPoi a n))
          | none => out s1 .error
        | .store a bs =>
          let wr := (bs.zipIdx.map fun x => (a + x.2, x.1))
          match s.hostPass x, apertureWord wr with
          | some g, some (y, w) => s1.remoteStart y w g.asid (1024, 0)
          | some _, none =>
            if as.any fun a => decide (spadBase ≤ a) && area (a - spadBase) == .aperture then out s1 .error
            else out (s1.writeBytes wr) .done
          | none, _ => out s1 .error
        | .atomic a g => match s.hostPass x with
          | some _ =>
            if !hostAtomic a g then out s1 .error
            else if s.unitsGone a (amoBytes g.aw) then out (s1.noteGone a) (.data (List.replicate (amoBytes g.aw) 0) true)
            else
              let u := (s1.meetLines ls a (amoBytes g.aw)).amoAt a g false
              out u.1 (.data u.2.1 u.2.2)
          | none => out s1 .error)
  | [] => none

/-! ## Ownership flips (10_memory R239, 18_platform R395) -/

/-- Rewrite the `H` bit of the leaf that maps a page. -/
def State.setH (s : State) (asid : BitVec 13) (page : Nat) (h : Bool) : Option State :=
  (s.walk asid page).map fun r =>
    let e := r.2.1
    s.setPte asid page r.1 (if h then e ||| 4 else if pteBit e 2 then e - 4 else e)

/-- The adapter grants or refuses a flip to the device. -/
def State.ownershipFlip (s : State) (ix : Nat) (ok : Bool) : Option State :=
  match s.ms.flips[ix]? with
  | some e =>
    if !e.asked || e.hostReq then none
    else if !s.walkReady e.asid e.page then none
    else if ok then
      let s1 := s.modFlip e.asid e.page fun e => { e with asked := false, refused := false, last := some s.core.beat }
      some ((s1.setH e.asid e.page false).getD s1)
    else some (s.modFlip e.asid e.page fun e => { e with asked := false, refused := true })
  | none => none

/-- The host asks for a page back. -/
def State.hostFlipRequest (s : State) (asid page : Nat) : Option State :=
  let a := BitVec.ofNat 13 asid
  match s.walk a page with
  | some r => if pteBit r.2.1 2 then none else some (s.modFlip a page fun e => { e with hostReq := true })
  | none => none

/-- Device accesses to a page have not completed: those of contexts, and what copies have read or written there. -/
def State.pageBusy (s : State) (pte : Nat) (n : Nat) : Bool :=
  let a := pteAddr pte
  match s.homeOf a (pte / 8 % 4) with
  | .host => (s.ms.flight.any fun x => x.open_.any fun y => y.1 == .host && overlaps y.2.1 y.2.2 a n) ||
      s.copy.queues.any fun q => q.2.any fun d => (d.hostAsk ++ d.hostWr).any fun h => overlaps h 1 a n
  | .here => s.ms.flight.any fun x => x.open_.any fun y => y.1 == .here && overlaps y.2.1 y.2.2 (a % 2 ^ 48) n
  | .peer g => (s.ms.flight.any fun x => x.open_.any fun y => y.1 == .peer g && overlaps y.2.1 y.2.2 (a % 2 ^ 48) n) ||
      s.fab.reqs.any fun r => r.dst == g && overlaps r.addr r.len (a % 2 ^ 48) n && match r.why with
        | .copyRead .. | .copyWrite .. => true
        | _ => false

/-- A page goes back to the host (18_platform R395): 65,536 beats after its last flip `H` is set, which revokes handles, and
once no device access to it is in flight the adapter grants the host's request. -/
def State.flipBack (s : State) (ix : Nat) : Option State :=
  match s.ms.flips[ix]? with
  | some e =>
    let aged := match e.last with
      | some t => decide (t + 65536 ≤ s.core.beat)
      | none => true
    if !e.hostReq || !aged || !s.walkReady e.asid e.page then none
    else match s.walk e.asid e.page with
      | some r =>
        if !e.back then
          let s1 := s.modFlip e.asid e.page fun e => { e with back := true }
          some ((s1.setH e.asid e.page true).getD s1)
        else if s.pageBusy r.2.1 (if r.2.2 then 2 ^ 30 else 2 ^ 21) then none
        else
          let s1 := s.modFlip e.asid e.page fun e => { e with hostReq := false, back := false }
          some { s1 with plat := { s1.plat with hostOut := s1.plat.hostOut ++ [.flipBack e.asid.toNat e.page] } }
      | none => some (s.modFlip e.asid e.page fun e => { e with hostReq := false, back := false })
  | none => none

/-! ## Start-up (18_platform R397, R404, R406, 01_machine R8) -/

/-- Logical layers that failed physical layers leave dark. -/
def darkOf (failed : List Nat) : List Nat :=
  match failed with
  | [] => []
  | _ :: rest => rest.map (· - 1)

/-- What layer self-test finds: the failed physical layers, ascending. -/
def Plat.spare_ (p : Plat) (failed : List Nat) : Plat := { p with failedL := (List.range 13).filter failed.contains }

/-- The layers are spared, as the first of them becomes ready: step 5 of R397, while the steward runs (01_machine R8). -/
def Plat.spared (p : Plat) : Plat :=
  { p with
    dark := (darkOf p.failedL).foldl sadd p.dark, darkSet := !(darkOf p.failedL).isEmpty
    spare := match p.failedL with
      | q :: _ => decide (q < 12)
      | [] => false }

/-- The physical layer of a logical layer. -/
def Plat.physical (p : Plat) (l : Nat) : Nat :=
  match p.failedL with
  | q :: _ => if l < q then l else l + 1
  | [] => l

/-- Steps 2 to 4 of R397: the image is verified and placed and the steward starts, or no bundle issues and the host is
told the cause. `.data` goes to region 63 from its first byte, short of the blocks that the device writes (DESIGN CHOICE,
log 55). Of a `.text` longer than the 65,536 bundles of the instruction store, which 03_assembly R64 does not rule out, those
bundles are placed (DESIGN CHOICE, log 107). An entry field that names no bundle of the image, or 65,536 or more, is accepted, and
its low 16 bits are the entry (DESIGN CHOICE, log 118). -/
def State.bootSteward (s : State) (i : StewImage) : State :=
  match i.refusal with
  | none =>
    let text := (i.body 1).take (128 * 65536)
    let entry := BitVec.ofNat 16 (i.field 12 4)
    let s1 : State := { s with
      ms := { s.ms with istore := memWrite s.ms.istore 0 text }
      plat := { s.plat with
        stewHash := sha256 (i.upToSig (i.body 8).length), stewVer := i.sver, stewEntry := entry, stewLen := text.length / 128,
        started := true }
      core := { s.core with banks := [(15, Ctx.steward entry)], seats := [(0, .seated 15)], running := 0 } }
    s1.locWrite (spadBase + 0x0FC00000) ((i.body 2).take 0x3F7C00) false
  | some why =>
    { s with
      core := { s.core with banks := [], seats := [] }
      plat := { s.plat with started := false, hostOut := s.plat.hostOut ++ [.refusedImage why] } }

/-- What fails the self-tests of step 1 of R397 is retired from the start: regions, copy channels and bank clusters
(DESIGN CHOICE, log 108). -/
def Plat.stepOne (p : Plat) (bad : List PartUnit) : Plat :=
  bad.foldl (fun p u => match u with
    | .region g => { p with xrgn := sadd p.xrgn g, rrgn := sdel p.rrgn g }
    | .channel k => { p with xch := sadd p.xch k, rch := sdel p.rch k }
    | .cluster b k => { p with xclus := sadd p.xclus (4 * b + k) }
    | _ => p) p

/-- A cold start (18_platform R397): everything is as after power-on, but for the leaf counter, which is written once for
all (R407), the package's id, and the model's own fields. -/
def State.coldStart (s : State) (i : StewImage) (failed : List Nat) (bad : List PartUnit) : State :=
  let s1 : State := { State.reset with agenda := s.agenda, arg := s.arg, free := s.free, ids := s.ids, seq := s.seq }
  ({ s1 with plat := { (s1.plat.spare_ failed).stepOne bad with pkg := s.plat.pkg, leaf := s.plat.leaf } } : State).bootSteward i

/-- A function has been trained or tested and becomes usable (18_platform R398). -/
def State.unitReady (s : State) (u : PartUnit) : Option State :=
  let p := s.plat
  let put (q : Plat) : Option State := some { s with plat := q }
  match u with
  | .hbm k => if k < 8 ∧ !p.xhbm.contains k then put { p with rhbm := sadd p.rhbm k } else none
  | .cxl k => if k < 8 ∧ !p.xcxl.contains k then put { p with rcxl := sadd p.rcxl k } else none
  | .region g => if g < 64 ∧ !p.xrgn.contains g then put { p with rrgn := sadd p.rrgn g } else none
  | .channel k => if k < 16 ∧ !p.xch.contains k then put { p with rch := sadd p.rch k } else none
  | .layer l =>
    let q := p.spared
    if l < 12 then put (if q.dark.contains l then q else { q with rlay := sadd q.rlay l }) else none
  | .block b => if b < 48 ∧ !p.xblk.contains b ∧ p.rlay.contains (b / 4) then put { p with rblk := sadd p.rblk b } else none
  | .lanes n => if 0 < n ∧ n ≤ s.goodLanes ∧ p.lanes = 0 then some ((s.setLanes n).beginTests (· == linkUnit)) else none
  | .port k =>
    let n := 4 - tget p.xlane k 0
    if k < 64 ∧ 0 < n ∧ !p.rport.contains k then
      (put { p with rport := sadd p.rport k }).map fun t =>
        (t.setPort k { t.port k with up := true, lanes := n, again := (t.port k).unack }).moveFlows.beginTests (· == .port k)
    else none
  | .cluster _ _ | .pseudo _ _ => none

/-! ## Self-test (18_platform R400) -/

/-- The beats that a self-test of a unit takes that does not count cycles of its own; none for one whose row of R400 bounds it
otherwise. -/
def testBeats : PartUnit → Option Nat
  | .region _ => some (2 ^ 16)
  | .pseudo _ _ => some (2 ^ 20)
  | _ => none

/-- A self-test has begun and has run its time: a block's, 2,048 cycles of its own clock, counted in thirteenths (00_scope R3). -/
def State.testOver (s : State) (t : TestE) : Bool :=
  t.begun && match t.unit with
    | .block b => decide (2048 * 13 ≤ s.testRun t b)
    | u => decide (t.start + (testBeats u).getD 0 ≤ s.core.beat)

/-- The row of R400 gives a self-test's time, so that it ends then. -/
def timed : PartUnit → Bool
  | .block _ => true
  | u => (testBeats u).isSome

/-- Units whose errors no other row detects: their test is taken as asked for and run when it ends. -/
def unseen : PartUnit → Bool
  | .cluster _ _ | .channel _ => true
  | _ => false

/-- A lane fails: a port, or the link for 64, has one less for good, and runs on without it or goes down. -/
def State.loseLane (s : State) (k : Nat) : State :=
  let t : State := { s with plat := { s.plat with xlane := tput s.plat.xlane k (tget s.plat.xlane k 0 + 1) 0 } }
  if k = 64 then (if t.plat.lanes = 0 then t else t.setLanes (min t.plat.lanes t.goodLanes))
  else
    let p := t.port k
    let n := min p.lanes (4 - tget t.plat.xlane k 0)
    if p.up then (t.setPort k { p with up := decide (0 < n), lanes := n, again := p.unack }).moveFlows else t

/-- The lines of a failed pseudo-channel that cannot be read, which are supplied, are written poisoned as its lines move to the
spare. -/
def State.moveToSpare (s : State) (u : PartUnit) (lost : List Nat) : State :=
  (lost.filter fun a => inHbm a 1 && pseudoOf a == u && !s.locPoi (a / 64 * 64) 64).foldl (fun (t : State) a =>
    { t.locWrite (a / 64 * 64) (t.freeBytes 64) true with free := t.free + 1 }) s

/-- A unit is retired, which a row of R400 names. `lost` are the lines that a failed pseudo-channel can no longer give. An HBM
stack is retired by its second pseudo-channel, and no test of a layer ends here: layers are tested at start-up (R397). -/
def State.retire (s : State) (u : PartUnit) (lost : List Nat) : State :=
  let p := s.plat
  match u with
  | .region g =>
    ({ s with plat := { p with xrgn := sadd p.xrgn g, rrgn := sdel p.rrgn g } } : State).ventNote 0x21 none (g * 2 ^ 22) (2 + 256)
  | .pseudo k _ =>
    let t : State := if p.rspc.contains k then { s with plat := { p with xhbm := sadd p.xhbm k, rhbm := sdel p.rhbm k } }
      else ({ s with plat := { p with rspc := sadd p.rspc k } } : State).moveToSpare u lost
    t.ventNote 0x21 none (s.pkg * 2 ^ 48 + 256 * k) 256
  | .cxl k =>
    ({ s with plat := { p with xcxl := sadd p.xcxl k, rcxl := sdel p.rcxl k } } : State).ventNote 0x21 none
      (s.pkg * 2 ^ 48 + 0x100000000000 + k * 0x20000000000) (1 + 256)
  | .block b =>
    let s1 : State := { s with plat := { p with
      xblk := sadd p.xblk b, rblk := sdel p.rblk b, xlay := sadd p.xlay (p.physical (b / 4)) } }
    let s2 := match s1.partOfBlock b with
      | some q => s1.enterError q 0 b
      | none => s1
    s2.ventNote 0x39 none 0 b
  | .channel k => { s with plat := { p with xch := sadd p.xch k, rch := sdel p.rch k } }
  | .cluster b k =>
    if s.hasCtx b then s.modCtx b fun c => { c with bad := sadd c.bad k }
    else { s with plat := { p with xclus := sadd p.xclus (4 * b + k) } }
  | .hbm _ | .layer _ => s
  | .port k => if k < 64 then s.loseLane k else s
  | .lanes _ => s.loseLane 64

/-- A targeted self-test ends, with the result supplied. Every compute op behind a block's pays its fill, since none has started
meanwhile (`State.computeOpStart`). -/
def State.selfTestEnd (s : State) (u : PartUnit) (pass : Bool) (lost : List Nat) : Option State :=
  let ran := match s.plat.tests.find? fun t => t.unit == u with
    | some t => s.testOver t
    | none => unseen u
  if ran then
    let s1 : State := { s with free := s.free + 1, plat := { s.plat with tests := s.plat.tests.filter fun t => t.unit != u } }
    some (if pass then { s1 with plat := { s1.plat with rtrn := s1.plat.rtrn + 1 } } else s1.retire u lost)
  else none

/-- The self-tests whose time the spec gives, each as it ends with no result supplied: whether it passes, and what a failed
pseudo-channel has lost, are free values (log 114). -/
def State.testEnds (s : State) : List Arg :=
  (s.plat.tests.filter fun t => timed t.unit && s.testOver t).map fun t =>
    .test t.unit (Config.testPasses s.free) (Config.linesLost s.free)

/-! ## The patrol (18_platform R401, R402) -/

/-- The patrol reads a line of the weight banks, with the symbols found wrong in it, and writes back what it corrects. -/
def State.patrolRead (s : State) (line : Nat) (errs : List (Nat × Byte)) : Option State :=
  if errs = [] then none
  else
    let r := s.bankRead line errs
    some (match r.2 with
      | some bs => r.1.putBankLine line bs
      | none => r.1)

/-- A refresh interval of a layer ends (18_platform R401). -/
def State.patrolInterval (s : State) (l : Nat) : Option State :=
  let p := s.plat
  let i := tget p.rpint l 26
  let n := tget p.patCnt l 0
  if l < 12 ∧ tget p.patAt l 0 + 2 ^ i ≤ s.core.beat then
    let q := if n ≤ 16 then tget p.patQuiet l 0 + 1 else 0
    let i' := if 256 < n then max 20 (i - 1) else if q = 8 then min 26 (i + 1) else i
    some { s with plat := { p with
      patCnt := tdel p.patCnt l, patQuiet := tput p.patQuiet l (if q = 8 then 0 else q) 0, patAt := tput p.patAt l s.core.beat 0
      rpint := tput p.rpint l i' 26 } }
  else none

/-! ## Warm reset (18_platform R403, R404, 13_jobs R314) -/

/-- A lease as a warm reset handles it (18_platform R403): a borrowed one as if its lender were lost, and a lent one, whose range
has been zeroed, as if its borrower were, with no wait for the deadline of a recall. -/
def State.resetLease (s : State) (k : Nat) : State :=
  if 64 ≤ k ∧ (s.lease k).lst = .recalling then s.lentBack k (s.lease k).unreturned
  else s.loseLease k

/-- A warm reset. The records of the mapped queues are taken up as their units become ready (13_jobs R314). The queue
registers, page-table roots and layout tables, the package's links, and lasting faults are kept with what R403 names (DEDUCED,
log 32). -/
def State.warmReset (s : State) (i : StewImage) (failed : List Nat) : State :=
  let zeroed := ((List.range 127).filter fun k => decide (64 ≤ k) && ((s.lease k).lst == .active || (s.lease k).lst == .recalling)).foldl
    (fun t k => t.zeroRange (t.lease k).base (leaseBytes (t.lease k))) s
  let s0 := ((List.range 127).filter fun k => (zeroed.lease k).lst != .free).foldl State.resetLease zeroed
  let old := s0.plat
  let kept (x : Nat) : Bool := decide (x < spadBase)
  let queues := (s0.sched.qmap.map (·.1)).filter fun n => !s0.sched.qbad.contains n
  let clus := s0.core.banks.foldl (fun l e => e.2.bad.foldl (fun l k => sadd l (4 * e.1 + k)) l) old.xclus
  let plat : Plat := { Plat.reset.spare_ (failed ++ old.xlay) with
    pkg := old.pkg, xlay := old.xlay, xlane := old.xlane, patAt := (List.range 12).map fun l => (l, s0.core.beat)
    rrgn := old.rrgn, rch := old.rch, rspc := old.rspc, rwrm := old.rwrm + 1, rtrn := old.rtrn, xrgn := old.xrgn, xch := old.xch,
    xhbm := old.xhbm, xcxl := old.xcxl, xclus := clus, hTx := old.hTx, hRx := old.hRx, hUnack := old.hUnack, hWire := old.hWire, hOfs := old.hOfs,
    hDown := some s0.core.beat, hostIn := old.hostIn, hostOut := old.hostOut, leaf := old.leaf }
  let s1 : State := { State.reset with
    core := { Core.reset with beat := s0.core.beat }
    ms := { MemSys.reset with
      mem := s0.ms.mem.filter fun e => kept e.1
      poison := s0.ms.poison.filter fun l => kept (64 * l)
      istore := s0.ms.istore, ptb := s0.ms.ptb, ltb := s0.ms.ltb, hostLost := s0.ms.hostLost }
    sched := { Sched.reset with
      qmap := s0.sched.qmap, qbad := s0.sched.qbad, idle := some s0.core.beat
      toMap := queues.map fun n => (n, s0.sched.toMap.contains (n, true)) }
    fab := { Fabric.reset with
      ports := s0.fab.ports.map fun e => (e.1, { e.2 with up := false }), inbox := s0.fab.inbox, nextTag := s0.fab.nextTag
      lost := s0.fab.lost, leases := s0.fab.leases }
    pow := { Power.reset with lastDamp := some s0.core.beat, lastSample := some s0.core.beat }
    plat := plat, agenda := s0.agenda, arg := s0.arg, free := s0.free, ids := s0.ids, seq := s0.seq }
  queues.foldl State.mapNow (s1.bootSteward i)

/-! ## The instruction-store loader (18_platform R405) -/

/-- The load that runs ends. -/
def State.loadEnd (s : State) (done flag : Nat) (err : Bool) : State :=
  let n := match s.plat.load with
    | some l => l.lflag
    | none => 0
  let s1 := if n = 0 then s else s.setFlag n ⟨BitVec.ofNat 32 flag, false⟩
  { s1 with plat := { s1.plat with isBusy := false, isErr := err, isDone := BitVec.ofNat 17 done, load := none } }

/-- A load writes its next bundle, at most one in a beat, and ends with the last, or before the first whose source is
poisoned, a retired unit's with a record (18_platform R399). `isst` counts the bundles written. -/
def State.loadComplete (s : State) : Option State :=
  match s.plat.load with
  | some l =>
    let n := s.plat.isDone.toNat
    let a := l.src + 128 * n
    if !s.allPerformed l.uid l.seq then none
    else if 65535 < l.first + l.count - 1 ∨ !inHbm l.src (128 * l.count) then some (s.loadEnd 0 0x80000010 true)
    else if !s.unitsReady a 128 ∨ s.core.beat ≤ l.began then none
    else if s.readPoi a 128 then some ((s.noteLoad a 128).loadEnd n 0x80000020 true)
    else
      let s1 : State := { s with
        ms := { s.ms with istore := memWrite s.ms.istore (128 * (l.first + n)) (s.locRead a 128) }
        plat := { s.plat with isDone := s.plat.isDone + 1, load := some { l with began := s.core.beat } } }
      some (if n + 1 = l.count then s1.loadEnd (n + 1) 1 false else s1)
  | none => none

/-! ## Attestation (18_platform R407) -/

/-- The 96-byte report. -/
def State.report (s : State) (nonce : List Byte) : List Byte :=
  leBytes 4 0x54415A56 ++ leBytes 4 s.plat.leaf ++ (nonce ++ leBytes 32 0).take 32 ++ (s.plat.stewHash ++ leBytes 32 0).take 32 ++
  leBytes 4 s.plat.stewVer.toNat ++ leBytes 4 Config.fusedMin.toNat ++ leBytes 4 s.plat.rwrm.toNat ++ leBytes 2 0x00C1 ++
  leBytes 2 s.pkg ++ leBytes 8 0

/-- The leaf counter advances before a signature is released; past its last leaf the logic refuses. -/
def State.attest (s : State) (nonce : List Byte) : Option State :=
  let out (p : Plat) (m : HostMsg) : Option State := some { s with plat := { p with hostOut := p.hostOut ++ [m] } }
  if s.plat.leaf < 2 ^ 25 then
    let r := s.report nonce
    out { s.plat with leaf := s.plat.leaf + 1 } (.report (r ++ Config.attestSignature s.plat.leaf r))
  else out s.plat .error

/-! ## Events -/

def execOwnershipFlip (s : State) : Res :=
  s.event (match s.arg with
    | .granted ix ok => s.ownershipFlip ix ok
    | _ => none)

def execHostFlipRequest (s : State) : Res :=
  s.event (match s.arg with
    | .two asid page => s.hostFlipRequest asid page
    | _ => none)

def execFlipBackToHost (s : State) : Res := s.event ((argId s.arg).bind s.flipBack)
def execHostRequest (s : State) : Res := s.event (s.hostRequest (argLines s.arg))

def execLinkFrame (s : State) : Res :=
  s.event (match s.arg with
    | .link f => s.linkFrame f
    | _ => none)

def execLinkDownTimeout (s : State) : Res := s.event s.linkTimeout
def execHostLinkRetraining (s : State) : Res := s.event ((argId s.arg).bind s.linkLanes)

/-- Fabric ports are 0 to 63; 64 names the Gradric link (18_platform R393). -/
def execFrameSend (s : State) : Res :=
  s.event ((argId s.arg).bind fun k => if k = 64 then s.linkSend else s.frameSend k)

def execColdStart (s : State) : Res :=
  s.event (match s.arg with
    | .image i failed bad => some (s.coldStart i failed bad)
    | _ => none)

def execUnitReady (s : State) : Res :=
  s.event (match s.arg with
    | .unit u => s.unitReady u
    | _ => none)

def execSelfTestEnd (s : State) : Res :=
  s.event (match s.arg with
    | .test u pass lost => s.selfTestEnd u pass lost
    | _ => none)

def execPatrolInterval (s : State) : Res := s.event ((argId s.arg).bind s.patrolInterval)

def execPatrolRead (s : State) : Res :=
  s.event (match s.arg with
    | .patrol line errs => s.patrolRead line errs
    | _ => none)

def execWarmReset (s : State) : Res :=
  s.event (match s.arg with
    | .image i failed _ => some (s.warmReset i failed)
    | _ => none)

def execInstructionStoreLoadComplete (s : State) : Res := s.event s.loadComplete

def execAttestationRequest (s : State) : Res :=
  s.event (match s.arg with
    | .nonce bs => s.attest bs
    | _ => none)

end Sys2Proof.Machine
end

