-- ==== Sys2Proof/Machine/Landing.lean ====
section
/-! DEFINITION. What lands or ends at a beat of its own: results, releases, seats, clusters, AMOS, and the translations in
progress (02_bundle R22, 04_sequencing R71 to R97, 10_memory R234, R236, 12_sync R277 to R295). -/

namespace Sys2Proof.Machine

/-! ## Results (04_sequencing R73, R78, 05_numbers R108) -/

/-- A write in flight waits for a droop of a block that its data crosses from (17_power R384). -/
def State.droopHeld (s : State) (p : Pending) : Bool := p.blks.any s.droops

/-- A write in flight of a context lands when its beat has come, and it and the earlier writes to its register wait for no
droop. -/
def State.canFall (s : State) (c : Ctx) (p : Pending) : Bool :=
  decide (p.due ≤ s.core.beat) && !(c.pend.any fun q => q.dst == p.dst && decide (q.due ≤ p.due) && s.droopHeld q)

/-- A sheet pushed to a binding that has ended joins the sheets its descriptor still writes (11_copy R268). -/
def State.pushLate (s : State) (c : Ctx) (p : Pending) : State :=
  match p.dst, p.val with
  | .push k d, .v v =>
    if (c.strm k).dir = .output ∧ (c.strm k).desc = d then s
    else s.modDesc d fun x => { x with pushed := x.pushed ++ [v] }
  | _, _ => s

/-- One write of the context in bank `b` lands, with its fpx flags. -/
def State.fall (s : State) (b : Nat) (p : Pending) : State :=
  let c := s.ctx b
  let s1 := (s.pushLate c p).modCtx b fun c => { c.write p.dst p.val with fpx := c.fpx ||| p.fpx }
  match p.dst, p.val with
  | .flag n, .flag f => s1.landCompare c.uid n p.seq f
  | _, _ => s1

/-- The writes of one bank that land now, oldest first. -/
def State.fallBank (s : State) (b : Nat) : State :=
  let c := s.ctx b
  let now := c.pend.filter (s.canFall c)
  now.foldl (fun t p => t.fall b p) (s.modCtx b fun c => { c with pend := c.pend.filter fun p => !s.canFall c p })

/-- Every result whose beat has come lands, EVPOPs among them. -/
def State.resultLands (s : State) : Option State :=
  let bs := (s.core.banks.filter fun e => e.2.pend.any (s.canFall e.2)).map (·.1)
  if bs = [] ∧ !(s.core.evpops.any fun o => decide (o.due ≤ s.core.beat)) then none
  else some ((bs.foldl State.fallBank s).evpopsLand)

/-- A release lands: at the start of the beat of its own latency, or during the beat before this one (02_bundle R22). -/
def State.landRelease (s : State) (r : Release) : State :=
  let s1 : State := { s with ms := { s.ms with rels := s.ms.rels.filter fun q => q.id != r.id } }
  if r.late then s1.updFlag r.ix r.upd else s1.updFlagStart r.uid r.ix r.upd

/-- A release that had to wait, and need wait no longer, lands during this beat: bundles see it from the next on
(02_bundle R22; DEDUCED, log 16). -/
def State.dateRelease (s : State) (r : Release) : State :=
  { s with ms := { s.ms with rels := s.ms.rels.map fun q => if q.id = r.id then { q with due := s.core.beat + 1, late := true } else q } }

/-- The first release that may land in its beat does so (12_sync R280); one whose beat has passed is given its beat; or the
first RADV that may act does (R290). -/
def State.releaseLands (s : State) : Option State :=
  ((s.ms.rels.find? fun r => r.due == s.core.beat && s.relReady r).map s.landRelease).orElse fun _ =>
  ((s.ms.rels.find? s.relReady).map s.dateRelease).orElse fun _ => (s.cube.radvs.find? s.radvReady).map s.radvActs

/-! ## Clusters, AMOS and seats -/

/-- A waking cluster becomes awake, with its sheets zero (04_sequencing R93). -/
def State.clusterWakes (s : State) (b k : Nat) : Option State :=
  match (s.ctx b).clus k with
  | .waking t =>
    if t ≤ s.core.beat then
      some (s.modCtx b fun c => { c with clusters := tins c.clusters k .awake, v := c.v.filter fun e => e.1 / 8 != k })
    else none
  | _ => none

/-- The AMOS in progress ends (12_sync R295). -/
def State.amosEnds (s : State) : Option State :=
  match s.ms.amosEnd with
  | some t => if t ≤ s.core.beat then some { s with ms := { s.ms with amosEnd := none } } else none
  | none => none

/-- A context is seated (04_sequencing R71), and a CSEAT of it lands. -/
def State.seatingEnds (s : State) (k : Nat) : Option State :=
  match s.seat k with
  | .seating b t => if t ≤ s.core.beat then some (s.setSeat k (.seated b)).ctlPoll else none
  | _ => none

/-- A free seat that a CSEAT asks for takes the context it names, once that has left its own seat; a context that can no longer
be seated there is given up (16_system R376). The seat goes to it before a ready steward that waits for one (04_sequencing R98;
DESIGN CHOICE, log 112). -/
def State.seatWanted (s : State) (k : Nat) : State :=
  match tfind s.core.want k, s.seat k with
  | some w, .free =>
    let s1 : State := { s with core := { s.core with want := tdel s.core.want k } }
    let c := s.ctx w
    if !s.hasCtx w || c.ended.isSome || c.held != 0 || (s.seatOf w).isSome then s1
    else if s.away w then s1.seatNow k w else s
  | _, _ => s

/-- A seat is free again, and each context that CSEAT has named for a free seat is seated, which may have waited for its own
to be free (16_system R376). -/
def State.unseatingEnds (s : State) (k : Nat) : Option State :=
  match s.seat k with
  | .unseating _ t =>
    if t ≤ s.core.beat then some ((List.range 4).foldl (fun t j => t.seatWanted j) (s.setSeat k .free)).ctlPoll else none
  | _ => none

/-- The deadline's bundle has taken full effect: its context is held (04_sequencing R97). -/
def State.deadline (s : State) (b : Nat) : Option State :=
  let c := s.ctx b
  match c.dline with
  | some n =>
    let s1 := s.modCtx b fun c => { c with dline := none }
    some (if c.ended.isSome || c.held != 0 then s1
      else s1.takeException b { code := 0x06, info1 := 65536 } 15 n c.pc)
  | none => none

/-! ## Translations in progress (10_memory R234, R236) -/

/-- A write to a handle is pending. -/
def Ctx.handlePending (c : Ctx) (h : Nat) : Bool := c.pend.any fun p => p.dst == .h h

def State.dropWalk (s : State) (w : Walk) : State := { s with ms := { s.ms with walks := s.ms.walks.filter (· != w) } }

/-- The walk of an XLT completes. -/
def State.walkComplete (s : State) (id : Nat) : Option State :=
  match s.ms.walks.find? fun w => match w.why with
    | .xlt i _ _ => i == id
    | .lazy _ => false with
  | some w =>
    match w.why with
    | .xlt _ h xw =>
      let busy := match s.bankOf w.uid w.bank with
        | some b => (s.ctx b).handlePending h
        | none => false
      if busy || !s.walkReady w.asid w.va.toNat then none
      else
        let r := s.finishXlt w.asid w.va xw
        some (match r.2 with
          | some v => (r.1.dropWalk w).unlock w.uid w.bank id (.h v)
          | none => r.1)
    | .lazy _ => none
  | none => none

/-- A lazy handle re-translates its base in the context's ASID. -/
def State.reTranslate (s : State) (bank h : Nat) : Option State :=
  match s.ms.walks.find? fun w => w.bank == bank && w.why == .lazy h with
  | some w =>
    match s.bankOf w.uid w.bank with
    | some b =>
      let c := s.ctx b
      let v := c.hv h
      if v.hst ≠ .lazy ∨ c.handlePending h then some (s.dropWalk w)
      else if !s.walkReady c.asid v.vbase.toNat then none
      else
        let r := s.finishXlt c.asid v.vbase v.xw
        some (match r.2 with
          | some n => (r.1.dropWalk w).modCtx b fun c => c.setH h n
          | none => r.1)
    | none => some (s.dropWalk w)
  | none => none

/-! ## Events -/

def execResultLands (s : State) : Res := s.event s.resultLands
def execReleaseLands (s : State) : Res := s.event s.releaseLands
def execSeatingComplete (s : State) : Res := s.event ((argId s.arg).bind s.seatingEnds)
def execUnseatingComplete (s : State) : Res := s.event ((argId s.arg).bind s.unseatingEnds)
def execPreEmptionDeadline (s : State) : Res := s.event ((argId s.arg).bind s.deadline)

def execClusterWakeComplete (s : State) : Res :=
  s.event (match s.arg with
    | .two b k => s.clusterWakes b k
    | _ => none)

def execAmosEnd (s : State) : Res := s.event s.amosEnds
def execTranslationWalkComplete (s : State) : Res := s.event ((argId s.arg).bind s.walkComplete)

def execReTranslation (s : State) : Res :=
  s.event (match s.arg with
    | .two b h => s.reTranslate b h
    | _ => none)

end Sys2Proof.Machine
end

