-- ==== Sys2Proof/Machine/Bundle.lean ====
section
/-! DEFINITION. The bundles of a program: the meaning of each op by its instruction, what stands at a context's position,
the issue selector (04_sequencing R75, R76), and the beat of one instruction alone. -/

namespace Sys2Proof.Machine

/-- The meaning of an op. An event has no word, so no slot holds one. -/
def semOf : Instr → OpSem
  | .add p xd xa xb => addSem p xd xa xb
  | .sub p xd xa xb => subSem p xd xa xb
  | .addi p xd xa imm => addiSem p xd xa imm
  | .mul p xd xa xb => mulSem p xd xa xb
  | .mulh p xd xa xb => mulhSem p xd xa xb
  | .mulhu p xd xa xb => mulhuSem p xd xa xb
  | .madd p xd xa xb xc => maddSem p xd xa xb xc
  | .div p xd xa xb => divSem p xd xa xb
  | .divu p xd xa xb => divuSem p xd xa xb
  | .rem p xd xa xb => remSem p xd xa xb
  | .remu p xd xa xb => remuSem p xd xa xb
  | .and p xd xa xb => andSem p xd xa xb
  | .or p xd xa xb => orSem p xd xa xb
  | .xor p xd xa xb => xorSem p xd xa xb
  | .andn p xd xa xb => andnSem p xd xa xb
  | .andi p xd xa imm => andiSem p xd xa imm
  | .ori p xd xa imm => oriSem p xd xa imm
  | .xori p xd xa imm => xoriSem p xd xa imm
  | .shl p xd xa xb => shlSem p xd xa xb
  | .shr p xd xa xb => shrSem p xd xa xb
  | .sra p xd xa xb => sraSem p xd xa xb
  | .shli p xd xa amt => shliSem p xd xa amt
  | .shri p xd xa amt => shriSem p xd xa amt
  | .srai p xd xa amt => sraiSem p xd xa amt
  | .ror p xd xa xb => rorSem p xd xa xb
  | .rori p xd xa amt => roriSem p xd xa amt
  | .clz p xd xa => clzSem p xd xa
  | .ctz p xd xa => ctzSem p xd xa
  | .popc p xd xa => popcSem p xd xa
  | .bext p xd xa sx len pos => bextSem p xd xa sx len pos
  | .bins p xd xa xb len pos => binsSem p xd xa xb len pos
  | .brev p xd xa => brevSem p xd xa
  | .min p xd xa xb => minSem p xd xa xb
  | .max p xd xa xb => maxSem p xd xa xb
  | .minu p xd xa xb => minuSem p xd xa xb
  | .maxu p xd xa xb => maxuSem p xd xa xb
  | .sel p xd fix xa xb => selSem p xd fix xa xb
  | .abs p xd xa => absSem p xd xa
  | .movi p xd imm => moviSem p xd imm
  | .movhi p xd xa imm => movhiSem p xd xa imm
  | .cmp p cond fix xa xb => cmpSem p cond fix xa xb
  | .cmpi p cond fix xa cimm => cmpiSem p cond fix xa cimm
  | .lix p xd d => lixSem p xd d
  | .lcnt p xd d => lcntSem p xd d
  | .fadds p xd xa xb rnd => faddsSem p xd xa xb rnd
  | .fsubs p xd xa xb rnd => fsubsSem p xd xa xb rnd
  | .fmuls p xd xa xb rnd => fmulsSem p xd xa xb rnd
  | .ffmas p xd xa xb xc rnd => ffmasSem p xd xa xb xc rnd
  | .fmins p xd xa xb => fminsSem p xd xa xb
  | .fmaxs p xd xa xb => fmaxsSem p xd xa xb
  | .fcmps p cond fix xa xb => fcmpsSem p cond fix xa xb
  | .fcvtis p xd xa ity rnd => fcvtisSem p xd xa ity rnd
  | .fcvtsi p xd xa ity sat rnd => fcvtsiSem p xd xa ity sat rnd
  | .frcps p xd xa => frcpsSem p xd xa
  | .xlt p h xa => xltSem p h xa
  | .xltw p h xa => xltwSem p h xa
  | .xltwG p h xa xb => xltwGSem p h xa xb
  | .hinv p all h => hinvSem p all h
  | .hrd p xd h part => hrdSem p xd h part
  | .hchk p fix h w => hchkSem p fix h w
  | .crd p xd creg => crdSem p xd creg
  | .cwr p creg xa => cwrSem p creg xa
  | .fpxWrite p xa => fpxWriteSem p xa
  | .basidWrite p xa => basidWriteSem p xa
  | .ltbWrite p xa => ltbWriteSem p xa
  | .qmapWrite p n xa => qmapWriteSem p n xa
  | .isldWrite p xa => isldWriteSem p xa
  | .egrantWrite p xa => egrantWriteSem p xa
  | .vadd o => vaddSem o
  | .vsub o => vsubSem o
  | .vmul o => vmulSem o
  | .vfma o => vfmaSem o
  | .vfms o => vfmsSem o
  | .vfnma o => vfnmaSem o
  | .vmin o => vminSem o
  | .vmax o => vmaxSem o
  | .vabs o => vabsSem o
  | .vneg o => vnegSem o
  | .vclamp o => vclampSem o
  | .vdot2 o => vdot2Sem o
  | .vdot4 o => vdot4Sem o
  | .vand o => vandSem o
  | .vor o => vorSem o
  | .vxor o => vxorSem o
  | .vnot o => vnotSem o
  | .vshl o => vshlSem o
  | .vshr o => vshrSem o
  | .vsra o => vsraSem o
  | .vrshr o => vrshrSem o
  | .vmulh o => vmulhSem o
  | .vmov o => vmovSem o
  | .vfill o => vfillSem o
  | .vidx o => vidxSem o
  | .vcmp o => vcmpSem o
  | .vsel o => vselSem o
  | .mset o => msetSem o
  | .mlog o => mlogSem o
  | .mpopc o => mpopcSem o
  | .vcvt o => vcvtSem o
  | .vpack o => vpackSem o
  | .vunpk o => vunpkSem o
  | .vqnt o => vqntSem o
  | .vdqnt o => vdqntSem o
  | .vrcp o => vrcpSem o
  | .vrsq o => vrsqSem o
  | .vexp2 o => vexp2Sem o
  | .vlog2 o => vlog2Sem o
  | .vtanh o => vtanhSem o
  | .vredr o => vredrSem o
  | .vredc o => vredcSem o
  | .vscanr o => vscanrSem o
  | .vmvr o => vmvrSem o
  | .vmvc o => vmvcSem o
  | .vperm o => vpermSem o
  | .vcswp o => vcswpSem o
  | .vtrb o => vtrbSem o
  | .lds m mz => ldsSem m mz
  | .ldr m row => ldrSem m row
  | .lds2 m j hb xb2 mz => lds2Sem m j hb xb2 mz
  | .ldx m wid => ldxSem m wid
  | .ldb m mz => ldbSem m mz
  | .ldg m idx mz => ldgSem m idx mz
  | .ldm m => ldmSem m
  | .sts m dport => stsSem m dport
  | .str m dport row => strSem m dport row
  | .sts2 m dport j hb xb2 => sts2Sem m dport j hb xb2
  | .stx m wid => stxSem m wid
  | .stn m dport nhi => stnSem m dport nhi
  | .stsc m dport idx => stscSem m dport idx
  | .stm m => stmSem m
  | .amo m a => amoSem m a
  | .amof m a => amofSem m a
  | .amos m dport aop aw scp idx => amosSem m dport aop aw scp idx
  | .cmm c => cmmSem c
  | .cmmp c => cmmpSem c
  | .czro p part lmask acc both => czroSem p part lmask acc both
  | .cdrn c => cdrnSem c
  | .cswp p part n w => cswpSem p part n w
  | .ccur p part north cur => ccurSem p part north cur
  | .cring p part r => cringSem p part r
  | .cwait p part f => cwaitSem p part f
  | .csig p part f => csigSem p part f
  | .crail p part hi => crailSem p part hi
  | .cpart c => cpartSem c
  | .cjoin p part shape m0 m1 m2 m3 dsc cflag => cjoinSem p part shape m0 m1 m2 m3 dsc cflag
  | .csplit p part dsc cflag => csplitSem p part dsc cflag
  | .cfree p part dsc cflag => cfreeSem p part dsc cflag
  | .csusp p part cflag => csuspSem p part cflag
  | .cresm p part => cresmSem p part
  | .cqry p part ring qaddr now cflag => cqrySem p part ring qaddr now cflag
  | .cpy c cadd => cpySem c cadd
  | .cpys c cadd out str => cpysSem c cadd out str
  | .cpyw c cadd wlay wnorth wpart => cpywSem c cadd wlay wnorth wpart
  | .cpyr c cadd rring rpart => cpyrSem c cadd rring rpart
  | .cpdrn p ch cflag => cpdrnSem p ch cflag
  | .cprd p ch dx cflag => cprdSem p ch dx cflag
  | .cpub p ch str cflag => cpubSem p ch str cflag
  | .fset p fix pod => fsetSem p fix pod
  | .fclr p fix => fclrSem p fix
  | .fwait p fix => fwaitSem p fix
  | .fwaitGe p fix xs => fwaitGeSem p fix xs
  | .fwany p fix xs => fwanySem p fix xs
  | .faddc p fix xs pod => faddcSem p fix xs pod
  | .fwr p fix xs pod => fwrSem p fix xs pod
  | .binit p fix xs => binitSem p fix xs
  | .barv p fix xs pod => barvSem p fix xs pod
  | .bexp p fix xs arv => bexpSem p fix xs arv
  | .bwait p fix xd => bwaitSem p fix xd
  | .fence p kind scp => fenceSem p kind scp
  | .radv p part ring ns => radvSem p part ring ns
  | .rwait p part ring ns => rwaitSem p part ring ns
  | .post p xq xc xr => postSem p xq xc xr
  | .evpop p xa xd => evpopSem p xa xd
  | .loffer p xa xd => lofferSem p xa xd
  | .lacc p xa xd => laccSem p xa xd
  | .lrcl o => lrclSem o
  | .ldisc o => ldiscSem o
  | .lret p xa xd drop => lretSem p xa xd drop
  | .lqry o => lqrySem o
  | .frsv p xa xd => frsvSem p xa xd
  | .frel p xa => frelSem p xa
  | .wset p xa xd => wsetSem p xa xd
  | .cseat o => cseatSem o
  | .cuns p xa xd => cunsSem p xa xd
  | .crsm p xa xd => crsmSem p xa xd
  | .crsmAt o => crsmAtSem o
  | .ckil p xa xd => ckilSem p xa xd
  | .csav o => csavSem o
  | .crst o => crstSem o
  | .cnop => cnopSem
  | .loop p exit rot count => loopSem p exit rot count
  | .loopx p exit rot xa => loopxSem p exit rot xa
  | .lend => lendSem
  | .lbrk tgt depth => lbrkSem tgt depth
  | .call tgt => callSem tgt
  | .callx xa => callxSem xa
  | .ret => retSem
  | .jmpx xa => jmpxSem xa
  | .ctlEnd flag xa => ctlEndSem flag xa
  | .yield p => yieldSem p
  | .clus p cmask => clusSem p cmask
  | .rrot p set vamt mamt => rrotSem p set vamt mamt
  | .trapc p tcode => trapcSem p tcode
  | .bundleIssue | .resultLands | .longLoadArrival | .releaseLands | .seatingComplete | .unseatingComplete
  | .unseatAtPreEmptionPoint | .park | .preEmptionDeadline | .clusterWakeComplete | .bankRelease
  | .eventRecordPush | .translationWalkComplete | .reTranslation | .amosEnd | .computeOpStart
  | .computeStepEntry | .computeOpComplete | .cdrnStart | .cdrnComplete | .cswpStart | .ccurStart | .cringStart
  | .cwaitStart | .csigStart | .crailStart | .cqryRecordWritten | .rendezvousArrival | .reshapeTakesEffect
  | .contextIdsFreed | .layoutRecordArrival | .apertureCopyStart | .copyStart | .streamSheetPoppable
  | .copyComplete | .copyError | .cpdrnComplete | .cprdRecordWritten | .postAtHome | .postReply
  | .windowChangeApplies | .contextSaveComplete | .contextRestoreComplete | .cardAccept | .acceptanceTimeout
  | .dispatch | .pendingPriorityHold | .schedulerSeat | .jobEnd | .queueRotation | .frameReceived
  | .linkRetraining | .writeCell | .readRequest | .readReply | .atomicRequest | .atomicReply | .acknowledgement
  | .errorReply | .flagWriteCell | .postCell | .reservationReply | .requestTimeout | .leaseOffer
  | .leaseAcceptance | .zeroingConfirmation | .recallRequest | .recall | .recallAcknowledgement | .discardSet
  | .recallDone | .doneAcknowledgement | .recallDeadline | .ownershipFlip | .hostFlipRequest | .flipBackToHost
  | .hostRequest | .linkFrame | .linkDownTimeout | .droopBegin | .droopClear | .hopComplete | .holdLowEnd
  | .coneSample | .damperRecompute | .damperPeriod | .coldStart | .unitReady | .selfTestEnd | .patrolInterval
  | .warmReset | .instructionStoreLoadComplete | .attestationRequest | .storePerformed | .frameSend
  | .hostLinkRetraining | .leaseOfferAnswer | .recallRefused | .granuleZeroingRequest
  | .fallbackZeroingComplete | .streamSheetWritten | .patrolRead => { path := 0 }

/-! ## Fetching -/

/-- A decoded bundle at the position of a context whose delay count is `dly`: a delay bundle has no valid test and no
transfer (04_sequencing R82). -/
def fetchedAs (dly : Nat) (bd : Bundle) : Fetched :=
  if dly != 0 && (bd.hasTransfer || bd.tests.any (·.valid)) then .illegal bd.ew.toNat
  else .legal { bundle := bd, ops := bd.ops.map fun o => (o.1, semOf o.2) }

/-- The 128 bytes of bundle `n` in the instruction store (02_bundle R17). -/
def State.bundleBits (s : State) (n : BundleNo) : BitVec 1024 := bundleOfBytes (memRead s.ms.istore (128 * n.toNat) 128)

/-- What stands at the position of the context in bank `b`. -/
def State.fetched (s : State) (b : Nat) : Fetched :=
  let c := s.ctx b
  let w := s.bundleBits c.pc
  match decodeBundle w with
  | .ok bd => fetchedAs c.dly bd
  | .error _ => .illegal (w.extractLsb' 0 4).toNat

/-! ## The issue selector (04_sequencing R75) -/

/-- The context in a seat is ready. -/
def State.readySeat (s : State) (k : Nat) : Bool :=
  match s.seated k with
  | some b => ((s.fetched b).held s b).isNone
  | none => false

/-- The seats other than the running context's, in the order the selector looks. -/
def State.otherSeats (s : State) : List Nat :=
  [(s.core.running.val + 1) % 4, (s.core.running.val + 2) % 4, (s.core.running.val + 3) % 4]

/-- The running context holds the issue width. -/
def State.holdsWidth (s : State) : Bool := !s.core.yielded && !s.core.adrift

/-- The seat that issues in this beat, if one is ready. At a change the steward comes first, and then the others in
seat order. A context that gave the issue width up by YIELD or LEND keeps it if no other is ready (04_sequencing R92),
the steward among them (DEDUCED, log 38); one that was not ready, and found no other ready, comes last. No bundle issues while
no steward has been started (18_platform R406). -/
def State.pick (s : State) : Option Nat :=
  if !s.plat.started then none
  else if s.readySeat s.core.running && s.holdsWidth then some s.core.running.val
  else
    let last := if s.readySeat s.core.running then [s.core.running.val] else []
    let l := s.otherSeats.filter s.readySeat
    ((if s.core.yielded then l else l ++ last).find? fun k => s.seated k == some 15).orElse fun _ => (l ++ last).head?

/-- The context in seat `k` takes the issue width; its run counter restarts unless it held it already. -/
def State.takeWidth (s : State) (k : Nat) : State :=
  if k = s.core.running.val ∧ s.holdsWidth then s
  else { s with core := { s.core with running := Fin.ofNat 4 k, runCtr := 0, yielded := false, adrift := false } }

/-- One beat of the context in seat `k` with bundle `f`: it takes the issue width only if it is ready. -/
def State.seatBeat (s : State) (k : Nat) (f : Nat → Fetched) : State :=
  match s.seated k with
  | some b => (if ((f b).held s b).isSome then s else s.takeWidth k).beatOf b (f b) s.fetched
  | none => (s.asks s.fetched).idleBeat s.fetched

/-- One beat: the issue selector gives the issue width to a ready context, and its bundle issues; or none is ready. -/
def execBundleIssue (s : State) : Res :=
  .next (match s.pick with
    | some k => s.seatBeat k s.fetched
    | none => (s.asks s.fetched).idleBeat s.fetched)

/-! ## One instruction alone -/

/-- A bundle that holds one instruction alone, in the first slot that takes it. -/
def soloFetched (dly : Nat) (i : Instr) (o : OpSem) : Fetched :=
  match i.slot with
  | some sl =>
    let bd := Bundle.solo sl i
    if !i.wf || bd.check.isSome || (dly != 0 && bd.hasTransfer) then .illegal 0
    else .legal { bundle := bd, ops := [(sl, o)] }
  | none => .illegal 0

/-- One beat in which the running context's bundle holds the instruction alone. -/
def issueSolo (i : Instr) (o : OpSem) (s : State) : Res :=
  .next (s.seatBeat s.core.running fun b => soloFetched (s.ctx b).dly i o)

end Sys2Proof.Machine
end

