-- ==== Sys2Proof/Machine/Seats.lean ====
section
/-! DEFINITION. Which contexts hold the seats: the scheduler's choice, unseating at pre-emption points, and parks
(04_sequencing R95, R96, R98, 13_jobs R307). -/

namespace Sys2Proof.Machine

/-- A context without a seat is ready: nothing holds its next bundle. -/
def State.readyAway (s : State) (b : Nat) : Bool :=
  s.hasCtx b && (s.ctx b).ended.isNone && (s.ctx b).held == 0 && s.away b && ((s.fetched b).held s b).isNone

/-- A CSEAT has asked a seat for the context in bank `b`. -/
def State.wanted (s : State) (b : Nat) : Bool := s.core.want.any fun e => e.2 == b

/-- The scheduler may seat the context in bank `b` (13_jobs R307, 16_system R376). -/
def State.seatable (s : State) (b : Nat) : Bool := !(s.ctx b).noSeat && !s.wanted b && s.readyAway b

/-- Bank `a` comes before bank `b` in the order of seats: the steward, then priority, then earlier dispatch. -/
def State.outranks (s : State) (a b : Nat) : Bool :=
  let x := s.ctx a
  let y := s.ctx b
  a == 15 || (b != 15 && (decide (y.prio.toNat < x.prio.toNat) || (x.prio == y.prio && decide (x.begun < y.begun))))

/-- The first in the order of seats of some banks. -/
def State.firstOf (s : State) : List Nat → Option Nat
  | [] => none
  | b :: l => match s.firstOf l with
    | some a => some (if s.outranks a b then a else b)
    | none => some b

/-- The last in the order of seats of some banks. -/
def State.lastOf (s : State) : List Nat → Option Nat
  | [] => none
  | b :: l => match s.lastOf l with
    | some a => some (if s.outranks b a then a else b)
    | none => some b

/-- The context the scheduler seats next: none while no steward has been started (18_platform R406). -/
def State.nextToSeat (s : State) : Option Nat := if s.plat.started then s.firstOf ((List.range 16).filter s.seatable) else none

/-- A seat that no CSEAT asks for. -/
def State.openSeat (s : State) (k : Nat) : Bool := (tfind s.core.want k).isNone

/-- A seat is about to come free for the scheduler. -/
def State.freeing (s : State) : Bool := (List.range 4).any fun k => s.openSeat k && match s.seat k with
  | .free => true
  | .unseating _ _ => true
  | .seated b => (s.ctx b).unseat
  | .seating _ _ => false

/-- The contexts that hold a seat and may be asked to leave it. -/
def State.sitting (s : State) : List Nat :=
  ((List.range 4).filterMap s.seated).filter fun b => b != 15 && !(s.ctx b).unseat

/-- The scheduler looks at the seats (13_jobs R307): a free seat takes the first context in order; where none is free
and that context has a higher priority than a seated one, the lowest-ranked seated context is asked to leave. -/
def State.schedulerSeat (s : State) : Option State :=
  match s.nextToSeat with
  | none => none
  | some b =>
    match (List.range 4).find? fun k => s.openSeat k && s.seat k == .free with
    | some k => some (s.seatNow k b)
    | none =>
      if s.freeing then none
      else match s.lastOf s.sitting with
        | some a =>
          if b ≠ 15 ∧ (s.ctx a).prio.toNat < (s.ctx b).prio.toNat then
            some (s.modCtx a fun c => { c with unseat := true })
          else none
        | none => none

/-- A seat that the scheduler may give is free, or will be when its context has left it. -/
def State.vacant (s : State) : Bool := (List.range 4).any fun k => s.openSeat k && match s.seat k with
  | .free | .unseating _ _ => true
  | _ => false

/-- The steward waits for a seat, and takes the next that any context can leave (04_sequencing R98). -/
def State.stewardWaits (s : State) : Bool := s.seatable 15 && !s.vacant

/-- A seated context at one of its pre-emption points leaves its seat if it was asked to (04_sequencing R95). -/
def State.unseatAtPoint (s : State) (b : Nat) : Option State :=
  let c := s.ctx b
  if c.atPoint ∧ ((List.range 4).any fun k => s.seated k == some b) ∧ (c.unseat ∨ s.stewardWaits) then
    some (s.leaveSeat b).ctlPoll
  else none

/-- A seated context is parked: some other context without a seat is ready (04_sequencing R96), be it one that CUNS keeps from
being seated (16_system R376). -/
def State.parkNow (s : State) (b : Nat) : Option State :=
  if 1024 ≤ (s.ctx b).waitBts ∧ ((List.range 4).any fun k => s.seated k == some b) ∧
      ((List.range 16).any s.readyAway) then
    some (s.leaveSeat b).ctlPoll
  else none

def execSchedulerSeat (s : State) : Res := s.event s.schedulerSeat
def execUnseatAtPreEmptionPoint (s : State) : Res := s.event ((argId s.arg).bind s.unseatAtPoint)
def execPark (s : State) : Res := s.event ((argId s.arg).bind s.parkNow)

end Sys2Proof.Machine
end

