-- ==== Sys2Proof/Machine/Due.lean ====
section
/-! DEFINITION. What happens at a beat of its own accord, because its beat has come or the spec leaves it no choice. The
first in this list that is due takes place before the next bundle issues (02_bundle R22). -/

namespace Sys2Proof.Machine

/-- The first operand for which an event is due. -/
def dueOf (i : Instr) (args : List Arg) (f : Arg → Bool) : Option (Instr × Arg) := (args.find? f).map fun a => (i, a)

/-- An event named by one number. -/
def dueId (i : Instr) (ns : List Nat) (f : Nat → Bool) : Option (Instr × Arg) := (ns.find? f).map fun n => (i, .id n)

/-- Banks that hold a context. -/
def State.live (s : State) : List Nat := s.core.banks.map (·.1)

/-- The waking clusters, by bank. -/
def State.wakes (s : State) : List Arg :=
  s.core.banks.flatMap fun e => e.2.clusters.filterMap fun k => match k.2 with
    | .waking _ => some (.two e.1 k.1)
    | _ => none

/-- The oldest record that waits has waited for 16 beats (16_system R366). -/
def State.ventDue (s : State) : Bool :=
  match s.sched.ventQ.head? with
  | some e => decide (e.at_ + 16 ≤ s.core.beat)
  | none => false

def isClusterWake (s : State) : Arg → Bool
  | .two b k => (s.clusterWakes b k).isSome
  | _ => false

/-- Results, releases, clusters, seats and records. -/
def State.dueLanding (s : State) : Option (Instr × Arg) :=
  (dueOf .resultLands [.none] fun _ => s.resultLands.isSome).orElse fun _ =>
  (dueOf .releaseLands [.none] fun _ => s.releaseLands.isSome).orElse fun _ =>
  (dueOf .amosEnd [.none] fun _ => s.amosEnds.isSome).orElse fun _ =>
  (dueOf .clusterWakeComplete s.wakes (isClusterWake s)).orElse fun _ =>
  (dueId .seatingComplete (List.range 4) fun k => (s.seatingEnds k).isSome).orElse fun _ =>
  (dueId .unseatingComplete (List.range 4) fun k => (s.unseatingEnds k).isSome).orElse fun _ =>
  dueOf .eventRecordPush [.none] fun _ => s.ventDue

/-- Rails, reshapes, immediate reports, the damper, and the self-tests and time-outs whose beat the spec gives. -/
def State.dueUnit (s : State) : Option (Instr × Arg) :=
  (dueId .hopComplete (s.cube.parts.map (·.1)) fun p => (s.hopEnd p).isSome).orElse fun _ =>
  (dueId .holdLowEnd (s.cube.parts.map (·.1) ++ s.pow.held.map fun e => 16 + e.1) fun p => (s.holdEnd p).isSome).orElse fun _ =>
  (dueId .rendezvousArrival (s.cube.resh.map (·.gid)) fun g => (s.rendezvous g).isSome).orElse fun _ =>
  (dueId .reshapeTakesEffect (s.cube.resh.map (·.gid)) fun g => (s.reshapeEffect g).isSome).orElse fun _ =>
  (dueId .cqryRecordWritten ((s.cube.qrys.filter fun q => decide (q.due ≤ s.core.beat)).map (·.gid)) fun g => (s.cqryRecord g).isSome).orElse fun _ =>
  (dueOf .damperRecompute [.none] fun _ => s.damperRecompute.isSome).orElse fun _ =>
  (dueId .acceptanceTimeout (s.sched.seen.map (·.1)) fun n => (s.acceptTimeout n).isSome).orElse fun _ =>
  (dueId .recallDeadline (s.fab.leases.map (·.1)) fun k => (s.recallDeadline k).isSome).orElse fun _ =>
  (dueId .requestTimeout (s.fab.reqs.map (·.id)) fun n => (s.requestTimeout n).isSome).orElse fun _ =>
  (dueOf .selfTestEnd s.testEnds fun _ => true).orElse fun _ =>
  (dueOf .linkDownTimeout [.none] fun _ => s.linkTimeout.isSome).orElse fun _ =>
  dueId .patrolInterval (List.range 12) fun l => (s.patrolInterval l).isSome

/-- The queue numbers that map an address. -/
def State.mapped (s : State) : List Nat := s.sched.qmap.map (·.1)

/-- A mapped queue has a card that the scheduler accepts, or an index it has not seen before, or is to be mapped; whether it
accepts one of a queue whose bound a producer has skipped is left to the agenda (log 59). -/
def State.acceptDue (s : State) (n : Nat) : Bool :=
  (s.cardAccept n).isSome && match s.queueAt n with
    | some qa => !(s.qdesc qa).overrun
    | none => true

/-- The contexts of the jobs not yet ended. -/
def State.jobUids (s : State) : List Nat := s.sched.jobs.filterMap (·.uid)

/-- What the scheduler notes and does: the release of the bank of an ended context and the freeing of its ids, the acceptance of
a card, the end of a job, a card that becomes pending, a rotation, and the dispatch of the card that wins, as soon as it may be
(04_sequencing R91, 09_partitions R222, 13_jobs R315; DEDUCED, log 60). -/
def State.dueSched (s : State) : Option (Instr × Arg) :=
  (dueId .bankRelease s.live fun b => (s.bankRelease b).isSome).orElse fun _ =>
  (dueId .contextIdsFreed (List.range 16) fun p => (s.freeId p).isSome).orElse fun _ =>
  (dueId .cardAccept s.mapped s.acceptDue).orElse fun _ =>
  (dueId .jobEnd s.jobUids fun u => (s.jobEnd u).isSome).orElse fun _ =>
  (dueId .pendingPriorityHold s.mapped fun n => (s.pendingLook n).isSome).orElse fun _ =>
  (dueOf .queueRotation [.none] fun _ => s.rotate.isSome).orElse fun _ =>
  dueId .dispatch s.mapped fun n => (s.dispatch n).isSome

/-- A sample of the cones that nothing has supplied in time. -/
def State.dueSample (s : State) : Option (Instr × Arg) := if s.sampleDue then some (.coneSample, .cones s.freeReadings) else none

/-- The contexts that leave a seat, and the next that takes one. -/
def State.dueSeat (s : State) : Option (Instr × Arg) :=
  (dueId .preEmptionDeadline s.live fun b => (s.deadline b).isSome).orElse fun _ =>
  (dueId .unseatAtPreEmptionPoint s.live fun b => (s.unseatAtPoint b).isSome).orElse fun _ =>
  (dueOf .schedulerSeat [.none] fun _ => s.schedulerSeat.isSome).orElse fun _ =>
  dueId .park s.live fun b => (s.parkNow b).isSome

/-- The event that is due. -/
def State.dueEvent (s : State) : Option (Instr × Arg) :=
  s.dueLanding.orElse fun _ => s.dueUnit.orElse fun _ => s.dueSample.orElse fun _ => s.dueSched.orElse fun _ => s.dueSeat

end Sys2Proof.Machine
end

