-- ==== Sys2Proof/Machine/ExecControl.lean ====
section
/-! DEFINITION. The meaning of each instruction of CRD, CWR and the rows that name single writes of CWR (06_scalar R142 to
R151): one beat in which the running context issues it alone. Its effect is its `OpSem`, which bundles share. -/

namespace Sys2Proof.Machine

def execCrd (p : Path) (xd : XReg) (creg : BitVec 12) (s : State) : Res :=
  issueSolo (.crd p xd creg) (crdSem p xd creg) s
def execCwr (p : Path) (creg : BitVec 12) (xa : XReg) (s : State) : Res :=
  issueSolo (.cwr p creg xa) (cwrSem p creg xa) s
def execFpxWrite (p : Path) (xa : XReg) (s : State) : Res := issueSolo (.fpxWrite p xa) (fpxWriteSem p xa) s
def execBasidWrite (p : Path) (xa : XReg) (s : State) : Res := issueSolo (.basidWrite p xa) (basidWriteSem p xa) s
def execLtbWrite (p : Path) (xa : XReg) (s : State) : Res := issueSolo (.ltbWrite p xa) (ltbWriteSem p xa) s
def execQmapWrite (p : Path) (n : BitVec 6) (xa : XReg) (s : State) : Res :=
  issueSolo (.qmapWrite p n xa) (qmapWriteSem p n xa) s
def execIsldWrite (p : Path) (xa : XReg) (s : State) : Res := issueSolo (.isldWrite p xa) (isldWriteSem p xa) s
def execEgrantWrite (p : Path) (xa : XReg) (s : State) : Res := issueSolo (.egrantWrite p xa) (egrantWriteSem p xa) s

end Sys2Proof.Machine
end

