-- ==== Sys2Proof/Machine/ExecCopy.lean ====
section
/-! DEFINITION. The meaning of each instruction of the CP slot (11_copy): one beat in which
the running context issues it alone. Its effect is its `OpSem`, which bundles share. -/

namespace Sys2Proof.Machine

def execCpy (c : CpOp) (cadd : Bool) (s : State) : Res := issueSolo (.cpy c cadd) (cpySem c cadd) s
def execCpys (c : CpOp) (cadd : Bool) (out : Bool) (str : BitVec 2) (s : State) : Res :=
  issueSolo (.cpys c cadd out str) (cpysSem c cadd out str) s
def execCpyw (c : CpOp) (cadd : Bool) (wlay : BitVec 4) (wnorth : Bool) (wpart : PartId) (s : State) : Res :=
  issueSolo (.cpyw c cadd wlay wnorth wpart) (cpywSem c cadd wlay wnorth wpart) s
def execCpyr (c : CpOp) (cadd : Bool) (rring : BitVec 3) (rpart : PartId) (s : State) : Res :=
  issueSolo (.cpyr c cadd rring rpart) (cpyrSem c cadd rring rpart) s
def execCpdrn (p : Path) (ch : BitVec 4) (cflag : FlagIx) (s : State) : Res :=
  issueSolo (.cpdrn p ch cflag) (cpdrnSem p ch cflag) s
def execCprd (p : Path) (ch : BitVec 4) (dx : XReg) (cflag : FlagIx) (s : State) : Res :=
  issueSolo (.cprd p ch dx cflag) (cprdSem p ch dx cflag) s
def execCpub (p : Path) (ch : BitVec 4) (str : BitVec 2) (cflag : FlagIx) (s : State) : Res :=
  issueSolo (.cpub p ch str cflag) (cpubSem p ch str cflag) s

end Sys2Proof.Machine
end

