-- ==== Sys2Proof/Machine/ExecCube.lean ====
section
/-! DEFINITION. The meaning of each instruction of the CB slot (08_cube, 09_partitions): one beat in which
the running context issues it alone. Its effect is its `OpSem`, which bundles share. -/

namespace Sys2Proof.Machine

def execCmm (c : CmmOp) (s : State) : Res := issueSolo (.cmm c) (cmmSem c) s
def execCmmp (c : CmmOp) (s : State) : Res := issueSolo (.cmmp c) (cmmpSem c) s
def execCzro (p : Path) (part : PartId) (lmask : BitVec 12) (acc both : Bool) (s : State) : Res :=
  issueSolo (.czro p part lmask acc both) (czroSem p part lmask acc both) s
def execCdrn (c : CdrnOp) (s : State) : Res := issueSolo (.cdrn c) (cdrnSem c) s
def execCswp (p : Path) (part : PartId) (n w : Bool) (s : State) : Res :=
  issueSolo (.cswp p part n w) (cswpSem p part n w) s
def execCcur (p : Path) (part : PartId) (north : Bool) (cur : BitVec 16) (s : State) : Res :=
  issueSolo (.ccur p part north cur) (ccurSem p part north cur) s
def execCring (p : Path) (part : PartId) (r : RingCfg) (s : State) : Res :=
  issueSolo (.cring p part r) (cringSem p part r) s
def execCwait (p : Path) (part : PartId) (f : FlagIx) (s : State) : Res :=
  issueSolo (.cwait p part f) (cwaitSem p part f) s
def execCsig (p : Path) (part : PartId) (f : FlagIx) (s : State) : Res :=
  issueSolo (.csig p part f) (csigSem p part f) s
def execCrail (p : Path) (part : PartId) (hi : Bool) (s : State) : Res :=
  issueSolo (.crail p part hi) (crailSem p part hi) s
def execCpart (c : CpartOp) (s : State) : Res := issueSolo (.cpart c) (cpartSem c) s
def execCjoin (p : Path) (part : PartId) (shape : BitVec 2) (m0 m1 m2 m3 : PartId) (dsc : Bool) (cflag : FlagIx) (s : State) : Res :=
  issueSolo (.cjoin p part shape m0 m1 m2 m3 dsc cflag) (cjoinSem p part shape m0 m1 m2 m3 dsc cflag) s
def execCsplit (p : Path) (part : PartId) (dsc : Bool) (cflag : FlagIx) (s : State) : Res :=
  issueSolo (.csplit p part dsc cflag) (csplitSem p part dsc cflag) s
def execCfree (p : Path) (part : PartId) (dsc : Bool) (cflag : FlagIx) (s : State) : Res :=
  issueSolo (.cfree p part dsc cflag) (cfreeSem p part dsc cflag) s
def execCsusp (p : Path) (part : PartId) (cflag : FlagIx) (s : State) : Res :=
  issueSolo (.csusp p part cflag) (csuspSem p part cflag) s
def execCresm (p : Path) (part : PartId) (s : State) : Res := issueSolo (.cresm p part) (cresmSem p part) s
def execCqry (p : Path) (part : PartId) (ring : BitVec 3) (qaddr : BitVec 24) (now : Bool) (cflag : FlagIx) (s : State) : Res :=
  issueSolo (.cqry p part ring qaddr now cflag) (cqrySem p part ring qaddr now cflag) s

end Sys2Proof.Machine
end

