-- ==== Sys2Proof/Machine/ExecMemory.lean ====
section
/-! DEFINITION. The meaning of each instruction of the LD and ST slots (10_memory, 12_sync): one beat in which
the running context issues it alone. Its effect is its `OpSem`, which bundles share. -/

namespace Sys2Proof.Machine

def execLds (m : MemOp) (mz : Bool) (s : State) : Res := issueSolo (.lds m mz) (ldsSem m mz) s
def execLdr (m : MemOp) (row : BitVec 6) (s : State) : Res := issueSolo (.ldr m row) (ldrSem m row) s
def execLds2 (m : MemOp) (j : BitVec 6) (hb : HReg) (xb2 : XReg) (mz : Bool) (s : State) : Res :=
  issueSolo (.lds2 m j hb xb2 mz) (lds2Sem m j hb xb2 mz) s
def execLdx (m : MemOp) (wid : BitVec 3) (s : State) : Res := issueSolo (.ldx m wid) (ldxSem m wid) s
def execLdb (m : MemOp) (mz : Bool) (s : State) : Res := issueSolo (.ldb m mz) (ldbSem m mz) s
def execLdg (m : MemOp) (idx : BitVec 5) (mz : Bool) (s : State) : Res := issueSolo (.ldg m idx mz) (ldgSem m idx mz) s
def execLdm (m : MemOp) (s : State) : Res := issueSolo (.ldm m) (ldmSem m) s
def execSts (m : MemOp) (dport : BitVec 3) (s : State) : Res := issueSolo (.sts m dport) (stsSem m dport) s
def execStr (m : MemOp) (dport : BitVec 3) (row : BitVec 6) (s : State) : Res :=
  issueSolo (.str m dport row) (strSem m dport row) s
def execSts2 (m : MemOp) (dport : BitVec 3) (j : BitVec 6) (hb : HReg) (xb2 : XReg) (s : State) : Res :=
  issueSolo (.sts2 m dport j hb xb2) (sts2Sem m dport j hb xb2) s
def execStx (m : MemOp) (wid : BitVec 3) (s : State) : Res := issueSolo (.stx m wid) (stxSem m wid) s
def execStn (m : MemOp) (dport : BitVec 3) (nhi : Bool) (s : State) : Res :=
  issueSolo (.stn m dport nhi) (stnSem m dport nhi) s
def execStsc (m : MemOp) (dport : BitVec 3) (idx : BitVec 5) (s : State) : Res :=
  issueSolo (.stsc m dport idx) (stscSem m dport idx) s
def execStm (m : MemOp) (s : State) : Res := issueSolo (.stm m) (stmSem m) s
def execAmo (m : MemOp) (a : AmoOp) (s : State) : Res := issueSolo (.amo m a) (amoSem m a) s
def execAmof (m : MemOp) (a : AmoOp) (s : State) : Res := issueSolo (.amof m a) (amofSem m a) s
def execAmos (m : MemOp) (dport : BitVec 3) (aop : BitVec 4) (aw : BitVec 3) (scp : Scope) (idx : BitVec 5) (s : State) : Res :=
  issueSolo (.amos m dport aop aw scp idx) (amosSem m dport aop aw scp idx) s

end Sys2Proof.Machine
end

