-- ==== Sys2Proof/Machine/ExecScalar.lean ====
section
/-! DEFINITION. The meaning of each instruction of the S slots: scalar arithmetic, handles (06_scalar, 10_memory): one beat
in which the running context issues it alone. Its effect is its `OpSem`, which bundles share. -/

namespace Sys2Proof.Machine

def execAdd (p : Path) (xd xa xb : XReg) (s : State) : Res := issueSolo (.add p xd xa xb) (addSem p xd xa xb) s
def execSub (p : Path) (xd xa xb : XReg) (s : State) : Res := issueSolo (.sub p xd xa xb) (subSem p xd xa xb) s
def execAddi (p : Path) (xd xa : XReg) (imm : BitVec 33) (s : State) : Res :=
  issueSolo (.addi p xd xa imm) (addiSem p xd xa imm) s
def execMul (p : Path) (xd xa xb : XReg) (s : State) : Res := issueSolo (.mul p xd xa xb) (mulSem p xd xa xb) s
def execMulh (p : Path) (xd xa xb : XReg) (s : State) : Res := issueSolo (.mulh p xd xa xb) (mulhSem p xd xa xb) s
def execMulhu (p : Path) (xd xa xb : XReg) (s : State) : Res := issueSolo (.mulhu p xd xa xb) (mulhuSem p xd xa xb) s
def execMadd (p : Path) (xd xa xb xc : XReg) (s : State) : Res :=
  issueSolo (.madd p xd xa xb xc) (maddSem p xd xa xb xc) s
def execDiv (p : Path) (xd xa xb : XReg) (s : State) : Res := issueSolo (.div p xd xa xb) (divSem p xd xa xb) s
def execDivu (p : Path) (xd xa xb : XReg) (s : State) : Res := issueSolo (.divu p xd xa xb) (divuSem p xd xa xb) s
def execRem (p : Path) (xd xa xb : XReg) (s : State) : Res := issueSolo (.rem p xd xa xb) (remSem p xd xa xb) s
def execRemu (p : Path) (xd xa xb : XReg) (s : State) : Res := issueSolo (.remu p xd xa xb) (remuSem p xd xa xb) s
def execAnd (p : Path) (xd xa xb : XReg) (s : State) : Res := issueSolo (.and p xd xa xb) (andSem p xd xa xb) s
def execOr (p : Path) (xd xa xb : XReg) (s : State) : Res := issueSolo (.or p xd xa xb) (orSem p xd xa xb) s
def execXor (p : Path) (xd xa xb : XReg) (s : State) : Res := issueSolo (.xor p xd xa xb) (xorSem p xd xa xb) s
def execAndn (p : Path) (xd xa xb : XReg) (s : State) : Res := issueSolo (.andn p xd xa xb) (andnSem p xd xa xb) s
def execAndi (p : Path) (xd xa : XReg) (imm : BitVec 33) (s : State) : Res :=
  issueSolo (.andi p xd xa imm) (andiSem p xd xa imm) s
def execOri (p : Path) (xd xa : XReg) (imm : BitVec 33) (s : State) : Res :=
  issueSolo (.ori p xd xa imm) (oriSem p xd xa imm) s
def execXori (p : Path) (xd xa : XReg) (imm : BitVec 33) (s : State) : Res :=
  issueSolo (.xori p xd xa imm) (xoriSem p xd xa imm) s
def execShl (p : Path) (xd xa xb : XReg) (s : State) : Res := issueSolo (.shl p xd xa xb) (shlSem p xd xa xb) s
def execShr (p : Path) (xd xa xb : XReg) (s : State) : Res := issueSolo (.shr p xd xa xb) (shrSem p xd xa xb) s
def execSra (p : Path) (xd xa xb : XReg) (s : State) : Res := issueSolo (.sra p xd xa xb) (sraSem p xd xa xb) s
def execShli (p : Path) (xd xa : XReg) (amt : BitVec 6) (s : State) : Res :=
  issueSolo (.shli p xd xa amt) (shliSem p xd xa amt) s
def execShri (p : Path) (xd xa : XReg) (amt : BitVec 6) (s : State) : Res :=
  issueSolo (.shri p xd xa amt) (shriSem p xd xa amt) s
def execSrai (p : Path) (xd xa : XReg) (amt : BitVec 6) (s : State) : Res :=
  issueSolo (.srai p xd xa amt) (sraiSem p xd xa amt) s
def execRor (p : Path) (xd xa xb : XReg) (s : State) : Res := issueSolo (.ror p xd xa xb) (rorSem p xd xa xb) s
def execRori (p : Path) (xd xa : XReg) (amt : BitVec 6) (s : State) : Res :=
  issueSolo (.rori p xd xa amt) (roriSem p xd xa amt) s
def execClz (p : Path) (xd xa : XReg) (s : State) : Res := issueSolo (.clz p xd xa) (clzSem p xd xa) s
def execCtz (p : Path) (xd xa : XReg) (s : State) : Res := issueSolo (.ctz p xd xa) (ctzSem p xd xa) s
def execPopc (p : Path) (xd xa : XReg) (s : State) : Res := issueSolo (.popc p xd xa) (popcSem p xd xa) s
def execBext (p : Path) (xd xa : XReg) (sx : Bool) (len : BitVec 7) (pos : BitVec 6) (s : State) : Res :=
  issueSolo (.bext p xd xa sx len pos) (bextSem p xd xa sx len pos) s
def execBins (p : Path) (xd xa xb : XReg) (len : BitVec 7) (pos : BitVec 6) (s : State) : Res :=
  issueSolo (.bins p xd xa xb len pos) (binsSem p xd xa xb len pos) s
def execBrev (p : Path) (xd xa : XReg) (s : State) : Res := issueSolo (.brev p xd xa) (brevSem p xd xa) s
def execMin (p : Path) (xd xa xb : XReg) (s : State) : Res := issueSolo (.min p xd xa xb) (minSem p xd xa xb) s
def execMax (p : Path) (xd xa xb : XReg) (s : State) : Res := issueSolo (.max p xd xa xb) (maxSem p xd xa xb) s
def execMinu (p : Path) (xd xa xb : XReg) (s : State) : Res := issueSolo (.minu p xd xa xb) (minuSem p xd xa xb) s
def execMaxu (p : Path) (xd xa xb : XReg) (s : State) : Res := issueSolo (.maxu p xd xa xb) (maxuSem p xd xa xb) s
def execSel (p : Path) (xd : XReg) (fix : FlagIx) (xa xb : XReg) (s : State) : Res :=
  issueSolo (.sel p xd fix xa xb) (selSem p xd fix xa xb) s
def execAbs (p : Path) (xd xa : XReg) (s : State) : Res := issueSolo (.abs p xd xa) (absSem p xd xa) s
def execMovi (p : Path) (xd : XReg) (imm : BitVec 33) (s : State) : Res :=
  issueSolo (.movi p xd imm) (moviSem p xd imm) s
def execMovhi (p : Path) (xd xa : XReg) (imm : BitVec 32) (s : State) : Res :=
  issueSolo (.movhi p xd xa imm) (movhiSem p xd xa imm) s
def execCmp (p : Path) (cond : BitVec 4) (fix : FlagIx) (xa xb : XReg) (s : State) : Res :=
  issueSolo (.cmp p cond fix xa xb) (cmpSem p cond fix xa xb) s
def execCmpi (p : Path) (cond : BitVec 4) (fix : FlagIx) (xa : XReg) (cimm : BitVec 17) (s : State) : Res :=
  issueSolo (.cmpi p cond fix xa cimm) (cmpiSem p cond fix xa cimm) s
def execLix (p : Path) (xd : XReg) (d : BitVec 3) (s : State) : Res := issueSolo (.lix p xd d) (lixSem p xd d) s
def execLcnt (p : Path) (xd : XReg) (d : BitVec 3) (s : State) : Res := issueSolo (.lcnt p xd d) (lcntSem p xd d) s
def execFadds (p : Path) (xd xa xb : XReg) (rnd : Rnd) (s : State) : Res :=
  issueSolo (.fadds p xd xa xb rnd) (faddsSem p xd xa xb rnd) s
def execFsubs (p : Path) (xd xa xb : XReg) (rnd : Rnd) (s : State) : Res :=
  issueSolo (.fsubs p xd xa xb rnd) (fsubsSem p xd xa xb rnd) s
def execFmuls (p : Path) (xd xa xb : XReg) (rnd : Rnd) (s : State) : Res :=
  issueSolo (.fmuls p xd xa xb rnd) (fmulsSem p xd xa xb rnd) s
def execFfmas (p : Path) (xd xa xb xc : XReg) (rnd : Rnd) (s : State) : Res :=
  issueSolo (.ffmas p xd xa xb xc rnd) (ffmasSem p xd xa xb xc rnd) s
def execFmins (p : Path) (xd xa xb : XReg) (s : State) : Res := issueSolo (.fmins p xd xa xb) (fminsSem p xd xa xb) s
def execFmaxs (p : Path) (xd xa xb : XReg) (s : State) : Res := issueSolo (.fmaxs p xd xa xb) (fmaxsSem p xd xa xb) s
def execFcmps (p : Path) (cond : BitVec 4) (fix : FlagIx) (xa xb : XReg) (s : State) : Res :=
  issueSolo (.fcmps p cond fix xa xb) (fcmpsSem p cond fix xa xb) s
def execFcvtis (p : Path) (xd xa : XReg) (ity : BitVec 4) (rnd : Rnd) (s : State) : Res :=
  issueSolo (.fcvtis p xd xa ity rnd) (fcvtisSem p xd xa ity rnd) s
def execFcvtsi (p : Path) (xd xa : XReg) (ity : BitVec 4) (sat : Bool) (rnd : Rnd) (s : State) : Res :=
  issueSolo (.fcvtsi p xd xa ity sat rnd) (fcvtsiSem p xd xa ity sat rnd) s
def execFrcps (p : Path) (xd xa : XReg) (s : State) : Res := issueSolo (.frcps p xd xa) (frcpsSem p xd xa) s
def execXlt (p : Path) (h : HReg) (xa : XReg) (s : State) : Res := issueSolo (.xlt p h xa) (xltSem p h xa) s
def execXltw (p : Path) (h : HReg) (xa : XReg) (s : State) : Res := issueSolo (.xltw p h xa) (xltwSem p h xa) s
def execXltwG (p : Path) (h : HReg) (xa xb : XReg) (s : State) : Res :=
  issueSolo (.xltwG p h xa xb) (xltwGSem p h xa xb) s
def execHinv (p : Path) (all : Bool) (h : HReg) (s : State) : Res := issueSolo (.hinv p all h) (hinvSem p all h) s
def execHrd (p : Path) (xd : XReg) (h : HReg) (part : Bool) (s : State) : Res :=
  issueSolo (.hrd p xd h part) (hrdSem p xd h part) s
def execHchk (p : Path) (fix : FlagIx) (h : HReg) (w : Bool) (s : State) : Res :=
  issueSolo (.hchk p fix h w) (hchkSem p fix h w) s

end Sys2Proof.Machine
end

