-- ==== Sys2Proof/Machine/ExecSequence.lean ====
section
/-! DEFINITION. The meaning of each instruction of the CTL field (04_sequencing): one beat in which
the running context issues it alone. Its effect is its `OpSem`, which bundles share. -/

namespace Sys2Proof.Machine

def execCnop (s : State) : Res := issueSolo .cnop cnopSem s
def execLoop (p : Path) (exit : BundleNo) (rot : Bool) (count : BitVec 23) (s : State) : Res :=
  issueSolo (.loop p exit rot count) (loopSem p exit rot count) s
def execLoopx (p : Path) (exit : BundleNo) (rot : Bool) (xa : XReg) (s : State) : Res :=
  issueSolo (.loopx p exit rot xa) (loopxSem p exit rot xa) s
def execLend (s : State) : Res := issueSolo .lend lendSem s
def execLbrk (tgt : BundleNo) (depth : BitVec 3) (s : State) : Res := issueSolo (.lbrk tgt depth) (lbrkSem tgt depth) s
def execCall (tgt : BundleNo) (s : State) : Res := issueSolo (.call tgt) (callSem tgt) s
def execCallx (xa : XReg) (s : State) : Res := issueSolo (.callx xa) (callxSem xa) s
def execRet (s : State) : Res := issueSolo .ret retSem s
def execJmpx (xa : XReg) (s : State) : Res := issueSolo (.jmpx xa) (jmpxSem xa) s
def execCtlEnd (flag : FlagIx) (xa : XReg) (s : State) : Res := issueSolo (.ctlEnd flag xa) (ctlEndSem flag xa) s
def execYield (p : Path) (s : State) : Res := issueSolo (.yield p) (yieldSem p) s
def execClus (p : Path) (cmask : BitVec 4) (s : State) : Res := issueSolo (.clus p cmask) (clusSem p cmask) s
def execRrot (p : Path) (set : Bool) (vamt : BitVec 4) (mamt : BitVec 3) (s : State) : Res :=
  issueSolo (.rrot p set vamt mamt) (rrotSem p set vamt mamt) s
def execTrapc (p : Path) (tcode : BitVec 16) (s : State) : Res := issueSolo (.trapc p tcode) (trapcSem p tcode) s

end Sys2Proof.Machine
end

