-- ==== Sys2Proof/Machine/ExecSheet.lean ====
section
/-! DEFINITION. The meaning of each instruction of the V slots (07_sheet): one beat in which
the running context issues it alone. Its effect is its `OpSem`, which bundles share. -/

namespace Sys2Proof.Machine

def execVadd (o : VOp) (s : State) : Res := issueSolo (.vadd o) (vaddSem o) s
def execVsub (o : VOp) (s : State) : Res := issueSolo (.vsub o) (vsubSem o) s
def execVmul (o : VOp) (s : State) : Res := issueSolo (.vmul o) (vmulSem o) s
def execVfma (o : VOp) (s : State) : Res := issueSolo (.vfma o) (vfmaSem o) s
def execVfms (o : VOp) (s : State) : Res := issueSolo (.vfms o) (vfmsSem o) s
def execVfnma (o : VOp) (s : State) : Res := issueSolo (.vfnma o) (vfnmaSem o) s
def execVmin (o : VOp) (s : State) : Res := issueSolo (.vmin o) (vminSem o) s
def execVmax (o : VOp) (s : State) : Res := issueSolo (.vmax o) (vmaxSem o) s
def execVabs (o : VOp) (s : State) : Res := issueSolo (.vabs o) (vabsSem o) s
def execVneg (o : VOp) (s : State) : Res := issueSolo (.vneg o) (vnegSem o) s
def execVclamp (o : VOp) (s : State) : Res := issueSolo (.vclamp o) (vclampSem o) s
def execVdot2 (o : VOp) (s : State) : Res := issueSolo (.vdot2 o) (vdot2Sem o) s
def execVdot4 (o : VOp) (s : State) : Res := issueSolo (.vdot4 o) (vdot4Sem o) s
def execVand (o : VOp) (s : State) : Res := issueSolo (.vand o) (vandSem o) s
def execVor (o : VOp) (s : State) : Res := issueSolo (.vor o) (vorSem o) s
def execVxor (o : VOp) (s : State) : Res := issueSolo (.vxor o) (vxorSem o) s
def execVnot (o : VOp) (s : State) : Res := issueSolo (.vnot o) (vnotSem o) s
def execVshl (o : VOp) (s : State) : Res := issueSolo (.vshl o) (vshlSem o) s
def execVshr (o : VOp) (s : State) : Res := issueSolo (.vshr o) (vshrSem o) s
def execVsra (o : VOp) (s : State) : Res := issueSolo (.vsra o) (vsraSem o) s
def execVrshr (o : VOp) (s : State) : Res := issueSolo (.vrshr o) (vrshrSem o) s
def execVmulh (o : VOp) (s : State) : Res := issueSolo (.vmulh o) (vmulhSem o) s
def execVmov (o : VOp) (s : State) : Res := issueSolo (.vmov o) (vmovSem o) s
def execVfill (o : VOp) (s : State) : Res := issueSolo (.vfill o) (vfillSem o) s
def execVidx (o : VOp) (s : State) : Res := issueSolo (.vidx o) (vidxSem o) s
def execVcmp (o : VOp) (s : State) : Res := issueSolo (.vcmp o) (vcmpSem o) s
def execVsel (o : VOp) (s : State) : Res := issueSolo (.vsel o) (vselSem o) s
def execMset (o : VOp) (s : State) : Res := issueSolo (.mset o) (msetSem o) s
def execMlog (o : VOp) (s : State) : Res := issueSolo (.mlog o) (mlogSem o) s
def execMpopc (o : VOp) (s : State) : Res := issueSolo (.mpopc o) (mpopcSem o) s
def execVcvt (o : VOp) (s : State) : Res := issueSolo (.vcvt o) (vcvtSem o) s
def execVpack (o : VOp) (s : State) : Res := issueSolo (.vpack o) (vpackSem o) s
def execVunpk (o : VOp) (s : State) : Res := issueSolo (.vunpk o) (vunpkSem o) s
def execVqnt (o : VOp) (s : State) : Res := issueSolo (.vqnt o) (vqntSem o) s
def execVdqnt (o : VOp) (s : State) : Res := issueSolo (.vdqnt o) (vdqntSem o) s
def execVrcp (o : VOp) (s : State) : Res := issueSolo (.vrcp o) (vrcpSem o) s
def execVrsq (o : VOp) (s : State) : Res := issueSolo (.vrsq o) (vrsqSem o) s
def execVexp2 (o : VOp) (s : State) : Res := issueSolo (.vexp2 o) (vexp2Sem o) s
def execVlog2 (o : VOp) (s : State) : Res := issueSolo (.vlog2 o) (vlog2Sem o) s
def execVtanh (o : VOp) (s : State) : Res := issueSolo (.vtanh o) (vtanhSem o) s
def execVredr (o : VOp) (s : State) : Res := issueSolo (.vredr o) (vredrSem o) s
def execVredc (o : VOp) (s : State) : Res := issueSolo (.vredc o) (vredcSem o) s
def execVscanr (o : VOp) (s : State) : Res := issueSolo (.vscanr o) (vscanrSem o) s
def execVmvr (o : VOp) (s : State) : Res := issueSolo (.vmvr o) (vmvrSem o) s
def execVmvc (o : VOp) (s : State) : Res := issueSolo (.vmvc o) (vmvcSem o) s
def execVperm (o : VOp) (s : State) : Res := issueSolo (.vperm o) (vpermSem o) s
def execVcswp (o : VOp) (s : State) : Res := issueSolo (.vcswp o) (vcswpSem o) s
def execVtrb (o : VOp) (s : State) : Res := issueSolo (.vtrb o) (vtrbSem o) s

end Sys2Proof.Machine
end

