-- ==== Sys2Proof/Machine/ExecSystem.lean ====
section
/-! DEFINITION. The meaning of each instruction of the SY slot (12_sync to 16_system): one beat in which
the running context issues it alone. Its effect is its `OpSem`, which bundles share. -/

namespace Sys2Proof.Machine

def execFset (p : Path) (fix : FlagIx) (pod : Bool) (s : State) : Res :=
  issueSolo (.fset p fix pod) (fsetSem p fix pod) s
def execFclr (p : Path) (fix : FlagIx) (s : State) : Res := issueSolo (.fclr p fix) (fclrSem p fix) s
def execFwait (p : Path) (fix : FlagIx) (s : State) : Res := issueSolo (.fwait p fix) (fwaitSem p fix) s
def execFwaitGe (p : Path) (fix : FlagIx) (xs : XReg) (s : State) : Res :=
  issueSolo (.fwaitGe p fix xs) (fwaitGeSem p fix xs) s
def execFwany (p : Path) (fix : FlagIx) (xs : XReg) (s : State) : Res :=
  issueSolo (.fwany p fix xs) (fwanySem p fix xs) s
def execFaddc (p : Path) (fix : FlagIx) (xs : XReg) (pod : Bool) (s : State) : Res :=
  issueSolo (.faddc p fix xs pod) (faddcSem p fix xs pod) s
def execFwr (p : Path) (fix : FlagIx) (xs : XReg) (pod : Bool) (s : State) : Res :=
  issueSolo (.fwr p fix xs pod) (fwrSem p fix xs pod) s
def execBinit (p : Path) (fix : FlagIx) (xs : XReg) (s : State) : Res :=
  issueSolo (.binit p fix xs) (binitSem p fix xs) s
def execBarv (p : Path) (fix : FlagIx) (xs : XReg) (pod : Bool) (s : State) : Res :=
  issueSolo (.barv p fix xs pod) (barvSem p fix xs pod) s
def execBexp (p : Path) (fix : FlagIx) (xs : XReg) (arv : Bool) (s : State) : Res :=
  issueSolo (.bexp p fix xs arv) (bexpSem p fix xs arv) s
def execBwait (p : Path) (fix : FlagIx) (xd : XReg) (s : State) : Res :=
  issueSolo (.bwait p fix xd) (bwaitSem p fix xd) s
def execFence (p : Path) (kind : BitVec 4) (scp : Scope) (s : State) : Res :=
  issueSolo (.fence p kind scp) (fenceSem p kind scp) s
def execRadv (p : Path) (part : PartId) (ring : BitVec 3) (ns : BitVec 8) (s : State) : Res :=
  issueSolo (.radv p part ring ns) (radvSem p part ring ns) s
def execRwait (p : Path) (part : PartId) (ring : BitVec 3) (ns : BitVec 8) (s : State) : Res :=
  issueSolo (.rwait p part ring ns) (rwaitSem p part ring ns) s
def execPost (p : Path) (xq xc xr : XReg) (s : State) : Res := issueSolo (.post p xq xc xr) (postSem p xq xc xr) s
def execEvpop (p : Path) (xa xd : XReg) (s : State) : Res := issueSolo (.evpop p xa xd) (evpopSem p xa xd) s
def execLoffer (p : Path) (xa xd : XReg) (s : State) : Res := issueSolo (.loffer p xa xd) (lofferSem p xa xd) s
def execLacc (p : Path) (xa xd : XReg) (s : State) : Res := issueSolo (.lacc p xa xd) (laccSem p xa xd) s
def execLrcl (o : SyOp) (s : State) : Res := issueSolo (.lrcl o) (lrclSem o) s
def execLdisc (o : SyOp) (s : State) : Res := issueSolo (.ldisc o) (ldiscSem o) s
def execLret (p : Path) (xa xd : XReg) (drop : Bool) (s : State) : Res :=
  issueSolo (.lret p xa xd drop) (lretSem p xa xd drop) s
def execLqry (o : SyOp) (s : State) : Res := issueSolo (.lqry o) (lqrySem o) s
def execFrsv (p : Path) (xa xd : XReg) (s : State) : Res := issueSolo (.frsv p xa xd) (frsvSem p xa xd) s
def execFrel (p : Path) (xa : XReg) (s : State) : Res := issueSolo (.frel p xa) (frelSem p xa) s
def execWset (p : Path) (xa xd : XReg) (s : State) : Res := issueSolo (.wset p xa xd) (wsetSem p xa xd) s
def execCseat (o : SyOp) (s : State) : Res := issueSolo (.cseat o) (cseatSem o) s
def execCuns (p : Path) (xa xd : XReg) (s : State) : Res := issueSolo (.cuns p xa xd) (cunsSem p xa xd) s
def execCrsm (p : Path) (xa xd : XReg) (s : State) : Res := issueSolo (.crsm p xa xd) (crsmSem p xa xd) s
def execCrsmAt (o : SyOp) (s : State) : Res := issueSolo (.crsmAt o) (crsmAtSem o) s
def execCkil (p : Path) (xa xd : XReg) (s : State) : Res := issueSolo (.ckil p xa xd) (ckilSem p xa xd) s
def execCsav (o : SyOp) (s : State) : Res := issueSolo (.csav o) (csavSem o) s
def execCrst (o : SyOp) (s : State) : Res := issueSolo (.crst o) (crstSem o) s

end Sys2Proof.Machine
end

