-- ==== Sys2Proof/Machine/Dispatch.lean ====
section
/-! DEFINITION. The meaning of each instruction: the ops, then the events. -/

namespace Sys2Proof.Machine

def exec (i : Instr) (s : State) : Host.Outcome State Fault Refusal :=
  match i with
  | .add p xd xa xb => Sys2Proof.Machine.execAdd p xd xa xb s
  | .sub p xd xa xb => Sys2Proof.Machine.execSub p xd xa xb s
  | .addi p xd xa imm => Sys2Proof.Machine.execAddi p xd xa imm s
  | .mul p xd xa xb => Sys2Proof.Machine.execMul p xd xa xb s
  | .mulh p xd xa xb => Sys2Proof.Machine.execMulh p xd xa xb s
  | .mulhu p xd xa xb => Sys2Proof.Machine.execMulhu p xd xa xb s
  | .madd p xd xa xb xc => Sys2Proof.Machine.execMadd p xd xa xb xc s
  | .div p xd xa xb => Sys2Proof.Machine.execDiv p xd xa xb s
  | .divu p xd xa xb => Sys2Proof.Machine.execDivu p xd xa xb s
  | .rem p xd xa xb => Sys2Proof.Machine.execRem p xd xa xb s
  | .remu p xd xa xb => Sys2Proof.Machine.execRemu p xd xa xb s
  | .and p xd xa xb => Sys2Proof.Machine.execAnd p xd xa xb s
  | .or p xd xa xb => Sys2Proof.Machine.execOr p xd xa xb s
  | .xor p xd xa xb => Sys2Proof.Machine.execXor p xd xa xb s
  | .andn p xd xa xb => Sys2Proof.Machine.execAndn p xd xa xb s
  | .andi p xd xa imm => Sys2Proof.Machine.execAndi p xd xa imm s
  | .ori p xd xa imm => Sys2Proof.Machine.execOri p xd xa imm s
  | .xori p xd xa imm => Sys2Proof.Machine.execXori p xd xa imm s
  | .shl p xd xa xb => Sys2Proof.Machine.execShl p xd xa xb s
  | .shr p xd xa xb => Sys2Proof.Machine.execShr p xd xa xb s
  | .sra p xd xa xb => Sys2Proof.Machine.execSra p xd xa xb s
  | .shli p xd xa amt => Sys2Proof.Machine.execShli p xd xa amt s
  | .shri p xd xa amt => Sys2Proof.Machine.execShri p xd xa amt s
  | .srai p xd xa amt => Sys2Proof.Machine.execSrai p xd xa amt s
  | .ror p xd xa xb => Sys2Proof.Machine.execRor p xd xa xb s
  | .rori p xd xa amt => Sys2Proof.Machine.execRori p xd xa amt s
  | .clz p xd xa => Sys2Proof.Machine.execClz p xd xa s
  | .ctz p xd xa => Sys2Proof.Machine.execCtz p xd xa s
  | .popc p xd xa => Sys2Proof.Machine.execPopc p xd xa s
  | .bext p xd xa sx len pos => Sys2Proof.Machine.execBext p xd xa sx len pos s
  | .bins p xd xa xb len pos => Sys2Proof.Machine.execBins p xd xa xb len pos s
  | .brev p xd xa => Sys2Proof.Machine.execBrev p xd xa s
  | .min p xd xa xb => Sys2Proof.Machine.execMin p xd xa xb s
  | .max p xd xa xb => Sys2Proof.Machine.execMax p xd xa xb s
  | .minu p xd xa xb => Sys2Proof.Machine.execMinu p xd xa xb s
  | .maxu p xd xa xb => Sys2Proof.Machine.execMaxu p xd xa xb s
  | .sel p xd fix xa xb => Sys2Proof.Machine.execSel p xd fix xa xb s
  | .abs p xd xa => Sys2Proof.Machine.execAbs p xd xa s
  | .movi p xd imm => Sys2Proof.Machine.execMovi p xd imm s
  | .movhi p xd xa imm => Sys2Proof.Machine.execMovhi p xd xa imm s
  | .cmp p cond fix xa xb => Sys2Proof.Machine.execCmp p cond fix xa xb s
  | .cmpi p cond fix xa cimm => Sys2Proof.Machine.execCmpi p cond fix xa cimm s
  | .lix p xd d => Sys2Proof.Machine.execLix p xd d s
  | .lcnt p xd d => Sys2Proof.Machine.execLcnt p xd d s
  | .fadds p xd xa xb rnd => Sys2Proof.Machine.execFadds p xd xa xb rnd s
  | .fsubs p xd xa xb rnd => Sys2Proof.Machine.execFsubs p xd xa xb rnd s
  | .fmuls p xd xa xb rnd => Sys2Proof.Machine.execFmuls p xd xa xb rnd s
  | .ffmas p xd xa xb xc rnd => Sys2Proof.Machine.execFfmas p xd xa xb xc rnd s
  | .fmins p xd xa xb => Sys2Proof.Machine.execFmins p xd xa xb s
  | .fmaxs p xd xa xb => Sys2Proof.Machine.execFmaxs p xd xa xb s
  | .fcmps p cond fix xa xb => Sys2Proof.Machine.execFcmps p cond fix xa xb s
  | .fcvtis p xd xa ity rnd => Sys2Proof.Machine.execFcvtis p xd xa ity rnd s
  | .fcvtsi p xd xa ity sat rnd => Sys2Proof.Machine.execFcvtsi p xd xa ity sat rnd s
  | .frcps p xd xa => Sys2Proof.Machine.execFrcps p xd xa s
  | .xlt p h xa => Sys2Proof.Machine.execXlt p h xa s
  | .xltw p h xa => Sys2Proof.Machine.execXltw p h xa s
  | .xltwG p h xa xb => Sys2Proof.Machine.execXltwG p h xa xb s
  | .hinv p all h => Sys2Proof.Machine.execHinv p all h s
  | .hrd p xd h part => Sys2Proof.Machine.execHrd p xd h part s
  | .hchk p fix h w => Sys2Proof.Machine.execHchk p fix h w s
  | .crd p xd creg => Sys2Proof.Machine.execCrd p xd creg s
  | .cwr p creg xa => Sys2Proof.Machine.execCwr p creg xa s
  | .fpxWrite p xa => Sys2Proof.Machine.execFpxWrite p xa s
  | .basidWrite p xa => Sys2Proof.Machine.execBasidWrite p xa s
  | .ltbWrite p xa => Sys2Proof.Machine.execLtbWrite p xa s
  | .qmapWrite p n xa => Sys2Proof.Machine.execQmapWrite p n xa s
  | .isldWrite p xa => Sys2Proof.Machine.execIsldWrite p xa s
  | .egrantWrite p xa => Sys2Proof.Machine.execEgrantWrite p xa s
  | .vadd o => Sys2Proof.Machine.execVadd o s
  | .vsub o => Sys2Proof.Machine.execVsub o s
  | .vmul o => Sys2Proof.Machine.execVmul o s
  | .vfma o => Sys2Proof.Machine.execVfma o s
  | .vfms o => Sys2Proof.Machine.execVfms o s
  | .vfnma o => Sys2Proof.Machine.execVfnma o s
  | .vmin o => Sys2Proof.Machine.execVmin o s
  | .vmax o => Sys2Proof.Machine.execVmax o s
  | .vabs o => Sys2Proof.Machine.execVabs o s
  | .vneg o => Sys2Proof.Machine.execVneg o s
  | .vclamp o => Sys2Proof.Machine.execVclamp o s
  | .vdot2 o => Sys2Proof.Machine.execVdot2 o s
  | .vdot4 o => Sys2Proof.Machine.execVdot4 o s
  | .vand o => Sys2Proof.Machine.execVand o s
  | .vor o => Sys2Proof.Machine.execVor o s
  | .vxor o => Sys2Proof.Machine.execVxor o s
  | .vnot o => Sys2Proof.Machine.execVnot o s
  | .vshl o => Sys2Proof.Machine.execVshl o s
  | .vshr o => Sys2Proof.Machine.execVshr o s
  | .vsra o => Sys2Proof.Machine.execVsra o s
  | .vrshr o => Sys2Proof.Machine.execVrshr o s
  | .vmulh o => Sys2Proof.Machine.execVmulh o s
  | .vmov o => Sys2Proof.Machine.execVmov o s
  | .vfill o => Sys2Proof.Machine.execVfill o s
  | .vidx o => Sys2Proof.Machine.execVidx o s
  | .vcmp o => Sys2Proof.Machine.execVcmp o s
  | .vsel o => Sys2Proof.Machine.execVsel o s
  | .mset o => Sys2Proof.Machine.execMset o s
  | .mlog o => Sys2Proof.Machine.execMlog o s
  | .mpopc o => Sys2Proof.Machine.execMpopc o s
  | .vcvt o => Sys2Proof.Machine.execVcvt o s
  | .vpack o => Sys2Proof.Machine.execVpack o s
  | .vunpk o => Sys2Proof.Machine.execVunpk o s
  | .vqnt o => Sys2Proof.Machine.execVqnt o s
  | .vdqnt o => Sys2Proof.Machine.execVdqnt o s
  | .vrcp o => Sys2Proof.Machine.execVrcp o s
  | .vrsq o => Sys2Proof.Machine.execVrsq o s
  | .vexp2 o => Sys2Proof.Machine.execVexp2 o s
  | .vlog2 o => Sys2Proof.Machine.execVlog2 o s
  | .vtanh o => Sys2Proof.Machine.execVtanh o s
  | .vredr o => Sys2Proof.Machine.execVredr o s
  | .vredc o => Sys2Proof.Machine.execVredc o s
  | .vscanr o => Sys2Proof.Machine.execVscanr o s
  | .vmvr o => Sys2Proof.Machine.execVmvr o s
  | .vmvc o => Sys2Proof.Machine.execVmvc o s
  | .vperm o => Sys2Proof.Machine.execVperm o s
  | .vcswp o => Sys2Proof.Machine.execVcswp o s
  | .vtrb o => Sys2Proof.Machine.execVtrb o s
  | .lds m mz => Sys2Proof.Machine.execLds m mz s
  | .ldr m row => Sys2Proof.Machine.execLdr m row s
  | .lds2 m j hb xb2 mz => Sys2Proof.Machine.execLds2 m j hb xb2 mz s
  | .ldx m wid => Sys2Proof.Machine.execLdx m wid s
  | .ldb m mz => Sys2Proof.Machine.execLdb m mz s
  | .ldg m idx mz => Sys2Proof.Machine.execLdg m idx mz s
  | .ldm m => Sys2Proof.Machine.execLdm m s
  | .sts m dport => Sys2Proof.Machine.execSts m dport s
  | .str m dport row => Sys2Proof.Machine.execStr m dport row s
  | .sts2 m dport j hb xb2 => Sys2Proof.Machine.execSts2 m dport j hb xb2 s
  | .stx m wid => Sys2Proof.Machine.execStx m wid s
  | .stn m dport nhi => Sys2Proof.Machine.execStn m dport nhi s
  | .stsc m dport idx => Sys2Proof.Machine.execStsc m dport idx s
  | .stm m => Sys2Proof.Machine.execStm m s
  | .amo m a => Sys2Proof.Machine.execAmo m a s
  | .amof m a => Sys2Proof.Machine.execAmof m a s
  | .amos m dport aop aw scp idx => Sys2Proof.Machine.execAmos m dport aop aw scp idx s
  | .cmm c => Sys2Proof.Machine.execCmm c s
  | .cmmp c => Sys2Proof.Machine.execCmmp c s
  | .czro p part lmask acc both => Sys2Proof.Machine.execCzro p part lmask acc both s
  | .cdrn c => Sys2Proof.Machine.execCdrn c s
  | .cswp p part n w => Sys2Proof.Machine.execCswp p part n w s
  | .ccur p part north cur => Sys2Proof.Machine.execCcur p part north cur s
  | .cring p part r => Sys2Proof.Machine.execCring p part r s
  | .cwait p part f => Sys2Proof.Machine.execCwait p part f s
  | .csig p part f => Sys2Proof.Machine.execCsig p part f s
  | .crail p part hi => Sys2Proof.Machine.execCrail p part hi s
  | .cpart c => Sys2Proof.Machine.execCpart c s
  | .cjoin p part shape m0 m1 m2 m3 dsc cflag => Sys2Proof.Machine.execCjoin p part shape m0 m1 m2 m3 dsc cflag s
  | .csplit p part dsc cflag => Sys2Proof.Machine.execCsplit p part dsc cflag s
  | .cfree p part dsc cflag => Sys2Proof.Machine.execCfree p part dsc cflag s
  | .csusp p part cflag => Sys2Proof.Machine.execCsusp p part cflag s
  | .cresm p part => Sys2Proof.Machine.execCresm p part s
  | .cqry p part ring qaddr now cflag => Sys2Proof.Machine.execCqry p part ring qaddr now cflag s
  | .cpy c cadd => Sys2Proof.Machine.execCpy c cadd s
  | .cpys c cadd out str => Sys2Proof.Machine.execCpys c cadd out str s
  | .cpyw c cadd wlay wnorth wpart => Sys2Proof.Machine.execCpyw c cadd wlay wnorth wpart s
  | .cpyr c cadd rring rpart => Sys2Proof.Machine.execCpyr c cadd rring rpart s
  | .cpdrn p ch cflag => Sys2Proof.Machine.execCpdrn p ch cflag s
  | .cprd p ch dx cflag => Sys2Proof.Machine.execCprd p ch dx cflag s
  | .cpub p ch str cflag => Sys2Proof.Machine.execCpub p ch str cflag s
  | .fset p fix pod => Sys2Proof.Machine.execFset p fix pod s
  | .fclr p fix => Sys2Proof.Machine.execFclr p fix s
  | .fwait p fix => Sys2Proof.Machine.execFwait p fix s
  | .fwaitGe p fix xs => Sys2Proof.Machine.execFwaitGe p fix xs s
  | .fwany p fix xs => Sys2Proof.Machine.execFwany p fix xs s
  | .faddc p fix xs pod => Sys2Proof.Machine.execFaddc p fix xs pod s
  | .fwr p fix xs pod => Sys2Proof.Machine.execFwr p fix xs pod s
  | .binit p fix xs => Sys2Proof.Machine.execBinit p fix xs s
  | .barv p fix xs pod => Sys2Proof.Machine.execBarv p fix xs pod s
  | .bexp p fix xs arv => Sys2Proof.Machine.execBexp p fix xs arv s
  | .bwait p fix xd => Sys2Proof.Machine.execBwait p fix xd s
  | .fence p kind scp => Sys2Proof.Machine.execFence p kind scp s
  | .radv p part ring ns => Sys2Proof.Machine.execRadv p part ring ns s
  | .rwait p part ring ns => Sys2Proof.Machine.execRwait p part ring ns s
  | .post p xq xc xr => Sys2Proof.Machine.execPost p xq xc xr s
  | .evpop p xa xd => Sys2Proof.Machine.execEvpop p xa xd s
  | .loffer p xa xd => Sys2Proof.Machine.execLoffer p xa xd s
  | .lacc p xa xd => Sys2Proof.Machine.execLacc p xa xd s
  | .lrcl o => Sys2Proof.Machine.execLrcl o s
  | .ldisc o => Sys2Proof.Machine.execLdisc o s
  | .lret p xa xd drop => Sys2Proof.Machine.execLret p xa xd drop s
  | .lqry o => Sys2Proof.Machine.execLqry o s
  | .frsv p xa xd => Sys2Proof.Machine.execFrsv p xa xd s
  | .frel p xa => Sys2Proof.Machine.execFrel p xa s
  | .wset p xa xd => Sys2Proof.Machine.execWset p xa xd s
  | .cseat o => Sys2Proof.Machine.execCseat o s
  | .cuns p xa xd => Sys2Proof.Machine.execCuns p xa xd s
  | .crsm p xa xd => Sys2Proof.Machine.execCrsm p xa xd s
  | .crsmAt o => Sys2Proof.Machine.execCrsmAt o s
  | .ckil p xa xd => Sys2Proof.Machine.execCkil p xa xd s
  | .csav o => Sys2Proof.Machine.execCsav o s
  | .crst o => Sys2Proof.Machine.execCrst o s
  | .cnop => Sys2Proof.Machine.execCnop s
  | .loop p exit rot count => Sys2Proof.Machine.execLoop p exit rot count s
  | .loopx p exit rot xa => Sys2Proof.Machine.execLoopx p exit rot xa s
  | .lend => Sys2Proof.Machine.execLend s
  | .lbrk tgt depth => Sys2Proof.Machine.execLbrk tgt depth s
  | .call tgt => Sys2Proof.Machine.execCall tgt s
  | .callx xa => Sys2Proof.Machine.execCallx xa s
  | .ret => Sys2Proof.Machine.execRet s
  | .jmpx xa => Sys2Proof.Machine.execJmpx xa s
  | .ctlEnd flag xa => Sys2Proof.Machine.execCtlEnd flag xa s
  | .yield p => Sys2Proof.Machine.execYield p s
  | .clus p cmask => Sys2Proof.Machine.execClus p cmask s
  | .rrot p set vamt mamt => Sys2Proof.Machine.execRrot p set vamt mamt s
  | .trapc p tcode => Sys2Proof.Machine.execTrapc p tcode s
  | .bundleIssue => Sys2Proof.Machine.execBundleIssue s
  | .resultLands => Sys2Proof.Machine.execResultLands s
  | .longLoadArrival => Sys2Proof.Machine.execLongLoadArrival s
  | .releaseLands => Sys2Proof.Machine.execReleaseLands s
  | .seatingComplete => Sys2Proof.Machine.execSeatingComplete s
  | .unseatingComplete => Sys2Proof.Machine.execUnseatingComplete s
  | .unseatAtPreEmptionPoint => Sys2Proof.Machine.execUnseatAtPreEmptionPoint s
  | .park => Sys2Proof.Machine.execPark s
  | .preEmptionDeadline => Sys2Proof.Machine.execPreEmptionDeadline s
  | .clusterWakeComplete => Sys2Proof.Machine.execClusterWakeComplete s
  | .bankRelease => Sys2Proof.Machine.execBankRelease s
  | .eventRecordPush => Sys2Proof.Machine.execEventRecordPush s
  | .translationWalkComplete => Sys2Proof.Machine.execTranslationWalkComplete s
  | .reTranslation => Sys2Proof.Machine.execReTranslation s
  | .amosEnd => Sys2Proof.Machine.execAmosEnd s
  | .computeOpStart => Sys2Proof.Machine.execComputeOpStart s
  | .computeStepEntry => Sys2Proof.Machine.execComputeStepEntry s
  | .computeOpComplete => Sys2Proof.Machine.execComputeOpComplete s
  | .cdrnStart => Sys2Proof.Machine.execCdrnStart s
  | .cdrnComplete => Sys2Proof.Machine.execCdrnComplete s
  | .cswpStart => Sys2Proof.Machine.execCswpStart s
  | .ccurStart => Sys2Proof.Machine.execCcurStart s
  | .cringStart => Sys2Proof.Machine.execCringStart s
  | .cwaitStart => Sys2Proof.Machine.execCwaitStart s
  | .csigStart => Sys2Proof.Machine.execCsigStart s
  | .crailStart => Sys2Proof.Machine.execCrailStart s
  | .cqryRecordWritten => Sys2Proof.Machine.execCqryRecordWritten s
  | .rendezvousArrival => Sys2Proof.Machine.execRendezvousArrival s
  | .reshapeTakesEffect => Sys2Proof.Machine.execReshapeTakesEffect s
  | .contextIdsFreed => Sys2Proof.Machine.execContextIdsFreed s
  | .layoutRecordArrival => Sys2Proof.Machine.execLayoutRecordArrival s
  | .apertureCopyStart => Sys2Proof.Machine.execApertureCopyStart s
  | .copyStart => Sys2Proof.Machine.execCopyStart s
  | .streamSheetPoppable => Sys2Proof.Machine.execStreamSheetPoppable s
  | .copyComplete => Sys2Proof.Machine.execCopyComplete s
  | .copyError => Sys2Proof.Machine.execCopyError s
  | .cpdrnComplete => Sys2Proof.Machine.execCpdrnComplete s
  | .cprdRecordWritten => Sys2Proof.Machine.execCprdRecordWritten s
  | .postAtHome => Sys2Proof.Machine.execPostAtHome s
  | .postReply => Sys2Proof.Machine.execPostReply s
  | .windowChangeApplies => Sys2Proof.Machine.execWindowChangeApplies s
  | .contextSaveComplete => Sys2Proof.Machine.execContextSaveComplete s
  | .contextRestoreComplete => Sys2Proof.Machine.execContextRestoreComplete s
  | .cardAccept => Sys2Proof.Machine.execCardAccept s
  | .acceptanceTimeout => Sys2Proof.Machine.execAcceptanceTimeout s
  | .dispatch => Sys2Proof.Machine.execDispatch s
  | .pendingPriorityHold => Sys2Proof.Machine.execPendingPriorityHold s
  | .schedulerSeat => Sys2Proof.Machine.execSchedulerSeat s
  | .jobEnd => Sys2Proof.Machine.execJobEnd s
  | .queueRotation => Sys2Proof.Machine.execQueueRotation s
  | .frameReceived => Sys2Proof.Machine.execFrameReceived s
  | .linkRetraining => Sys2Proof.Machine.execLinkRetraining s
  | .writeCell => Sys2Proof.Machine.execWriteCell s
  | .readRequest => Sys2Proof.Machine.execReadRequest s
  | .readReply => Sys2Proof.Machine.execReadReply s
  | .atomicRequest => Sys2Proof.Machine.execAtomicRequest s
  | .atomicReply => Sys2Proof.Machine.execAtomicReply s
  | .acknowledgement => Sys2Proof.Machine.execAcknowledgement s
  | .errorReply => Sys2Proof.Machine.execErrorReply s
  | .flagWriteCell => Sys2Proof.Machine.execFlagWriteCell s
  | .postCell => Sys2Proof.Machine.execPostCell s
  | .reservationReply => Sys2Proof.Machine.execReservationReply s
  | .requestTimeout => Sys2Proof.Machine.execRequestTimeout s
  | .leaseOffer => Sys2Proof.Machine.execLeaseOffer s
  | .leaseAcceptance => Sys2Proof.Machine.execLeaseAcceptance s
  | .zeroingConfirmation => Sys2Proof.Machine.execZeroingConfirmation s
  | .recallRequest => Sys2Proof.Machine.execRecallRequest s
  | .recall => Sys2Proof.Machine.execRecall s
  | .recallAcknowledgement => Sys2Proof.Machine.execRecallAcknowledgement s
  | .discardSet => Sys2Proof.Machine.execDiscardSet s
  | .recallDone => Sys2Proof.Machine.execRecallDone s
  | .doneAcknowledgement => Sys2Proof.Machine.execDoneAcknowledgement s
  | .recallDeadline => Sys2Proof.Machine.execRecallDeadline s
  | .ownershipFlip => Sys2Proof.Machine.execOwnershipFlip s
  | .hostFlipRequest => Sys2Proof.Machine.execHostFlipRequest s
  | .flipBackToHost => Sys2Proof.Machine.execFlipBackToHost s
  | .hostRequest => Sys2Proof.Machine.execHostRequest s
  | .linkFrame => Sys2Proof.Machine.execLinkFrame s
  | .linkDownTimeout => Sys2Proof.Machine.execLinkDownTimeout s
  | .droopBegin => Sys2Proof.Machine.execDroopBegin s
  | .droopClear => Sys2Proof.Machine.execDroopClear s
  | .hopComplete => Sys2Proof.Machine.execHopComplete s
  | .holdLowEnd => Sys2Proof.Machine.execHoldLowEnd s
  | .coneSample => Sys2Proof.Machine.execConeSample s
  | .damperRecompute => Sys2Proof.Machine.execDamperRecompute s
  | .damperPeriod => Sys2Proof.Machine.execDamperPeriod s
  | .coldStart => Sys2Proof.Machine.execColdStart s
  | .unitReady => Sys2Proof.Machine.execUnitReady s
  | .selfTestEnd => Sys2Proof.Machine.execSelfTestEnd s
  | .patrolInterval => Sys2Proof.Machine.execPatrolInterval s
  | .warmReset => Sys2Proof.Machine.execWarmReset s
  | .instructionStoreLoadComplete => Sys2Proof.Machine.execInstructionStoreLoadComplete s
  | .attestationRequest => Sys2Proof.Machine.execAttestationRequest s
  | .storePerformed => Sys2Proof.Machine.execStorePerformed s
  | .frameSend => Sys2Proof.Machine.execFrameSend s
  | .hostLinkRetraining => Sys2Proof.Machine.execHostLinkRetraining s
  | .leaseOfferAnswer => Sys2Proof.Machine.execLeaseOfferAnswer s
  | .recallRefused => Sys2Proof.Machine.execRecallRefused s
  | .granuleZeroingRequest => Sys2Proof.Machine.execGranuleZeroingRequest s
  | .fallbackZeroingComplete => Sys2Proof.Machine.execFallbackZeroingComplete s
  | .streamSheetWritten => Sys2Proof.Machine.execStreamSheetWritten s
  | .patrolRead => Sys2Proof.Machine.execPatrolRead s

end Sys2Proof.Machine
end

