-- ==== Sys2Proof/Machine/Step.lean ====
section
/-! DEFINITION. One step of the package: the next happening of the agenda, or else what is due, or else a beat. -/

namespace Sys2Proof.Machine

/-- The happenings an agenda may bring: every event row but a beat of the core itself. -/
def happens (i : Instr) : Bool := i.slot.isNone && i != .bundleIssue

/-- The package's own next step: what is due, or else one beat. -/
def State.own (s : State) : Host.Outcome State Fault Refusal :=
  match s.dueEvent with
  | some (i, a) => exec i { s with arg := a }
  | none => exec .bundleIssue s

/-- One step. A head of the agenda that is no happening lets the package take its own step first (log 1), with what it
supplies for that step: the lines of the scratchpad that the next access to them finds uncorrectable (log 106). -/
def step (s : State) : Host.Outcome State Fault Refusal :=
  match s.agenda with
  | [] => s.own
  | (i, a) :: rest => if happens i then exec i { s with agenda := rest, arg := a } else ({ s with agenda := rest, arg := a } : State).own

/-- The state with an instruction's word, laid into an otherwise empty bundle, at the position of the running context
(log 2). -/
def State.withFetchWord (s : State) (nbits w : Nat) : State :=
  let a := 128 * (s.ctx s.cur).pc.toNat
  { s with ms := { s.ms with istore := memWrite s.ms.istore a (leBytes 128 (tableBundle nbits w).toNat) } }

end Sys2Proof.Machine
end

