-- ==== Sys2Proof/Safety.lean ====
section
/-! DEFINITION. The terms in which statements about the machine are made: the invariant of a state, when one context has
the core to itself, when its instruction executes, the beat of an instruction alone, and what a beat leaves unchanged. -/

namespace Sys2Proof.Machine

/-- The memories stand in their canonical form. -/
def State.MemOk (s : State) : Prop :=
  Memory.wf s.ms.mem ∧ Memory.wf s.ms.istore ∧ Memory.wf s.cube.wbank

/-! ## One context alone -/

/-- The context in bank `b` is the only one seated, it holds the issue width (04_sequencing R75), and no context without a
seat is held at a bundle of its own. -/
structure State.Sole (s : State) (b : Nat) : Prop where
  running : s.seated s.core.running = some b
  only    : (List.range 4).filterMap s.seated = [b]
  here    : s.hasCtx b = true
  width   : s.holdsWidth = true
  others  : ∀ k ∈ s.awaiting, k ≠ b → (s.fetched k).held s k = none

/-- Besides, the energy test lets a bundle of weight 0 issue (17_power R385). -/
structure State.Alone (s : State) (b : Nat) : Prop extends s.Sole b where
  energy : s.energyOk 0 = true

/-- An instruction is legal as the only one of a bundle at the position of the context: its fields are well formed, the
checks of 02_bundle R48 pass, and a transfer is not in a delay bundle (04_sequencing R82). -/
def Ctx.legal (c : Ctx) (i : Instr) : Bool :=
  i.wf && match i.slot with
    | some sl => (Bundle.solo sl i).check.isNone && (c.dly == 0 || !(Bundle.solo sl i).hasTransfer)
    | none => false

/-- The instruction executes (its path mask takes the leaf of a bundle without tests), its context may run it, and its
registers are ready (02_bundle R27, R49, 04_sequencing R79). -/
structure State.CanIssue (s : State) (b : Nat) (i : Instr) (o : OpSem) : Prop where
  alone : s.Alone b
  legal : (s.ctx b).legal i = true
  path  : executes o.path .e = true
  priv  : o.priv = true → (s.ctx b).priv = true
  regs  : o.interlocked s b = false

/-- Besides, nothing holds it (04_sequencing R77), and the channels to which it appends have a place (11_copy R254). -/
structure State.Ready (s : State) (b : Nat) (i : Instr) (o : OpSem) : Prop extends s.CanIssue b i o where
  ready : o.stall s b = none
  room  : s.chansOver (o.chans s b) = false

/-- Besides, it meets no cause of an event (02_bundle R49). -/
structure State.Executes (s : State) (b : Nat) (i : Instr) (o : OpSem) : Prop extends s.Ready b i o where
  cause : o.cause s b = none
  check : o.check s b s = none

/-- The instruction, with its own meaning, issues, if only to raise an event. -/
def State.Issues (s : State) (b : Nat) (i : Instr) : Prop := s.Ready b i (semOf i)

/-- The instruction runs alone with its own meaning. -/
def State.Runs (s : State) (b : Nat) (i : Instr) : Prop := s.Executes b i (semOf i)

/-! ## The beat of an instruction alone -/

/-- A context whose bundle, without tests and transfers, has issued: it is counted, and the position moves on
(04_sequencing R77, R81, R97). -/
def Ctx.passed (c : Ctx) (b : Nat) : Ctx :=
  let d := { c with bcnt := c.bcnt + 1, since := if b = 15 then 0 else c.since + 1, atPoint := false, waitBts := 0 }
  match c.dly with
  | 0 => { d with pc := c.pc + 1 }
  | 1 => { d with pc := c.dtgt, dly := 0, dtgt := 0 }
  | n + 2 => { d with pc := c.pc + 1, dly := n + 1 }

/-- The beat up to the effects of its bundle. -/
def State.begun (s : State) (b : Nat) : State := (s.noteIssue 0).modCtx b (·.passed b)

/-- The rest of the beat after the effects of the bundle at `n`: a context that ended leaves its seat, and the bundle that
reaches the deadline of 04_sequencing R97 is noted. -/
def State.closed (s : State) (b : Nat) (n : BundleNo) : State :=
  let t := s.endBeat []
  if (t.ctx b).ended.isSome then t.leaveSeat b
  else t.modCtx b fun c => if c.since = 65536 then { c with dline := some n } else c

/-- The pops and pushes of streams that a bundle's op names (02_bundle R38). -/
def State.streamed (s : State) (b : Nat) (o : OpSem) : State :=
  o.pushes.foldl (fun t k => t.modCtx b (·.notePush k)) (o.pops.dedup.foldl (fun t k => t.modCtx b (·.popStream k)) s)

/-- What the one op of a bundle does to the state `t`, reading the state `s` before the bundle. -/
def OpSem.effect (o : OpSem) (s : State) (b : Nat) (t : State) : State := o.late s b ((o.act s b t).streamed b o)

/-- The state after a beat in which the context in bank `b` issues one instruction whose effect on the state is `f`. -/
def State.after (s : State) (b : Nat) (f : State → State) : State := (f (s.begun b)).closed b (s.ctx b).pc

/-- The state after a beat in which the one instruction of a bundle raises an event: nothing of it takes effect, and the
context takes the exception at its own position (02_bundle R49, 16_system R369). -/
def State.raised (s : State) (b : Nat) (i : Instr) (e : Ev) : State :=
  let n := (s.ctx b).pc
  let slot := (i.slot.map Slot.num).getD 15
  (((s.noteIssue 0).endBeat []).usedRefusal b e).takeException b e slot n n

/-! ## What a beat leaves unchanged -/

/-- The byte at a local address is one of flag `f`. -/
def ofFlag (f : Option Nat) (a : Nat) : Prop := spadBase ≤ a ∧ area (a - spadBase) = .flags ∧ f = some (flagOf (a - spadBase))

/-- The byte at a local address is one of the power status block, in which cycles and holds follow the beat (17_power R392). -/
def ofPower (a : Nat) : Prop := spadBase + 0x0FFF7C00 ≤ a ∧ a < spadBase + 0x0FFF7E80

/-- Every byte of local memory but those of the power status block is as it was. -/
def State.SameBytes (s t : State) : Prop := ∀ a, ¬ofPower a → t.locByte a = s.locByte a

/-- Outside the context in bank `b` nothing of the machine has changed but the beat: every byte of local memory but those of
flag `f` and of the power status block, the instruction store, every flag that tests and waits see, every other context, and
the engines. -/
structure State.SameOutside (s t : State) (b : Nat) (f : Option Nat) : Prop where
  bytes  : ∀ a, ¬ofFlag f a → ¬ofPower a → t.locByte a = s.locByte a
  istore : t.ms.istore = s.ms.istore
  flags  : ∀ n, t.flag n = s.flag n
  others : ∀ k, k ≠ b → t.ctx k = s.ctx k
  cube   : t.cube = s.cube
  copy   : t.copy = s.copy
  sched  : t.sched = s.sched
  fabric : t.fab = s.fab
  power  : t.pow = s.pow
  plat   : t.plat = s.plat

/-- The registers of a context are unchanged: those that name no result in flight. -/
structure Ctx.SameRegs (c d : Ctx) : Prop where
  x      : d.x = c.x
  v      : d.v = c.v
  m      : d.m = c.m
  h      : d.h = c.h
  loops  : d.loops = c.loops
  fpx    : d.fpx = c.fpx
  fpm    : d.fpm = c.fpm
  src    : d.src = c.src
  srs    : d.srs = c.srs
  vrb    : d.vrb = c.vrb
  mrb    : d.mrb = c.mrb
  stb    : d.stb = c.stb
  asid   : d.asid = c.asid
  rmask  : d.rmask = c.rmask
  priv   : d.priv = c.priv
  card   : d.card = c.card
  prio   : d.prio = c.prio
  queue  : d.queue = c.queue
  ncnt   : d.ncnt = c.ncnt
  last   : d.last = c.last
  held   : d.held = c.held

/-- Two contexts differ in their stall counters and in what a beat counts at most. -/
def Ctx.SameButStall (c d : Ctx) : Prop :=
  { d with stb := c.stb, waitBts := c.waitBts, atPoint := c.atPoint } = c

end Sys2Proof.Machine
end

