-- ==== Sys2Proof/Certificates/Slice0/Obligations.lean ====
section
/-! DEFINITION. The statements about the model, for the provers, and the tables they quantify over. -/

namespace Sys2Proof.Machine

/-- The spec's own encoded examples (02_bundle, 06_scalar, 22_prog_faults, 07_sheet, 10_memory, 21_prog_sort, 08_cube,
20_prog_cube, 09_partitions, 11_copy, 12_sync, 13_jobs, 16_system, 14_fabric, 04_sequencing): slot, instruction, word. -/
def workedWords : List (Slot × Instr × Nat) :=
  [(.s0, .add 0x11 5 6 7, 0x0188A30E00000000),
   (.s0, .addi 0x1F 9 9 24, 0x03F9248000000018),
   (.s1, .cmpi 0x1F 4 20 9 976, 0x35F8048003D04014),
   (.s0, .fadds 0x10 20 20 9 .rne, 0x40828A1200000000),
   (.v2, .vcswp
      { path := 0x1F, ty := .i32, vd := 8, a := 8, b := 0, c := 0, mask := 0, mz := false, rnd := .rne
        sat := false, xb := 0, imm := 0x10 }, 0x46F988040000000000000010),
   (.ld, .lds2 { path := 0x1F, mode := .handle, reg := 3, base := 10, hnd := 2, pitch := 0, mask := 0, ofs := 0 } 16 3 0
      false, 0x03FA19420000000000101800),
   (.st, .amo { path := 0x1F, mode := .spad, reg := 13, base := 12, hnd := 0, pitch := 0, mask := 0, ofs := 0 }
      { aop := 0, aw := 2, ord := 2, scp := .pod, xr := 0, xc := 0 }, 0x08F869800000000002A00000),
   (.cb, .cmm
      { path := 0x1F, part := 5, mm1 := 255, nm1 := 255, k := 6144, lmask := 0xF00, ain := 0, bin := 8
        fmt := 2, init := true, acc := false, t := false, keepa := true, keepb := false, cflag := 0 }, 0x01FA8FF1FE3001E001052000),
   (.cb, .cswp 0x1F 1 true false, 0x05F8C0000000000000000000),
   (.cb, .cpart
      { path := 0x1F, part := 0, srcm := 3, na := 0, af := 0, al := 11, aq := 15, bv := false, nb := 0
        bf := 0, bl := 0, bq := 0, dsc := false, cflag := 30 }, 0x10F80001805F80000000001E),
   (.cp, .cpy
      { path := 0x1F, ch := 3, layout := 7, smode := .spad, shnd := 0, sx := 20, dmode := .spad, dhnd := 0
        dx := 21, cflag := 40, rflag := false, bflag := 0 } false, 0x01F98003805002A050000000),
   (.cp, .cpy
      { path := 0x1F, ch := 1, layout := 4, smode := .spad, shnd := 0, sx := 34, dmode := .handle, dhnd := 4
        dx := 35, cflag := 41, rflag := true, bflag := 0 } true, 0x01F880020089246053000800),
   (.sy, .bexp 0x1F 100 6 true, 0x0AF8320D),
   (.sy, .post 0x1F 9 10 11, 0x10F92516),
   (.sy, .evpop 0x1F 20 10, 0x11FA8014),
   (.sy, .crsmAt { path := 0x1F, xa := 21, xb := 22, xd := 11 }, 0x22FAAB17),
   (.sy, .lrcl { path := 0x1F, xa := 4, xb := 5, xd := 3 }, 0x16F88286),
   (.ctl, .loop 0x1F 2 true 3, 0x7E00050000060)]

/-- The bits of a slot (02_bundle R18). -/
def slotWidth : Slot → Nat
  | .s0 | .s1 => 64
  | .v0 | .v1 | .v2 | .ld | .st | .cb | .cp => 96
  | .sy => 32
  | .ctl => 56

/-! ## Tables of results -/

/-- The integer ops of two source scalars (06_scalar R127): the instruction, its result for the values `a` and `b`, and
its latency. -/
def intRows (p : Path) (d x y : XReg) (a b : Word) : List (Instr × Word × Nat) :=
  [(.add p d x y, a + b, 1), (.sub p d x y, a - b, 1), (.mul p d x y, a * b, 3),
   (.mulh p d x y, BitVec.ofInt 64 (a.toInt * b.toInt / 2 ^ 64), 3),
   (.mulhu p d x y, BitVec.ofNat 64 (a.toNat * b.toNat / 2 ^ 64), 3),
   (.div p d x y, if b = 0 then BitVec.allOnes 64 else BitVec.ofInt 64 (a.toInt.tdiv b.toInt), 20),
   (.divu p d x y, if b = 0 then BitVec.allOnes 64 else BitVec.ofNat 64 (a.toNat / b.toNat), 20),
   (.rem p d x y, if b = 0 then a else BitVec.ofInt 64 (a.toInt.tmod b.toInt), 20),
   (.remu p d x y, if b = 0 then a else BitVec.ofNat 64 (a.toNat % b.toNat), 20),
   (.and p d x y, a &&& b, 1), (.or p d x y, a ||| b, 1), (.xor p d x y, a ^^^ b, 1), (.andn p d x y, a &&& ~~~b, 1),
   (.shl p d x y, BitVec.ofNat 64 (a.toNat * 2 ^ b.toNat), 1),
   (.shr p d x y, BitVec.ofNat 64 (a.toNat / 2 ^ b.toNat), 1),
   (.sra p d x y, BitVec.ofInt 64 (a.toInt / 2 ^ b.toNat), 1),
   (.ror p d x y, a.rotateRight (b.toNat % 64), 1),
   (.min p d x y, BitVec.ofInt 64 (min a.toInt b.toInt), 1), (.max p d x y, BitVec.ofInt 64 (max a.toInt b.toInt), 1),
   (.minu p d x y, BitVec.ofNat 64 (min a.toNat b.toNat), 1), (.maxu p d x y, BitVec.ofNat 64 (max a.toNat b.toNat), 1)]

/-- The integer ops of one source scalar (06_scalar R128, R129, R131, R132). -/
def intRows1 (p : Path) (d x : XReg) (e : BitVec 33) (n : BitVec 6) (h : BitVec 32) (a : Word) : List (Instr × Word) :=
  [(.addi p d x e, a + e.signExtend 64), (.andi p d x e, a &&& e.signExtend 64), (.ori p d x e, a ||| e.signExtend 64),
   (.xori p d x e, a ^^^ e.signExtend 64),
   (.shli p d x n, BitVec.ofNat 64 (a.toNat * 2 ^ n.toNat)), (.shri p d x n, BitVec.ofNat 64 (a.toNat / 2 ^ n.toNat)),
   (.srai p d x n, BitVec.ofInt 64 (a.toInt / 2 ^ n.toNat)), (.rori p d x n, a.rotateRight n.toNat),
   (.movhi p d x h, BitVec.ofNat 64 (h.toNat * 2 ^ 32 + a.toNat % 2 ^ 32)),
   (.popc p d x, BitVec.ofNat 64 ((List.range 64).countP fun k => a.getLsbD k)),
   (.abs p d x, BitVec.ofInt 64 a.toInt.natAbs)]

/-- The conditions of CMP and CMPI by number (06_scalar R134). -/
def condRows (a b : Word) : List Bool :=
  [decide (a = b), decide (a ≠ b), decide (a.toInt < b.toInt), decide (b.toInt ≤ a.toInt), decide (a.toNat < b.toNat),
   decide (b.toNat ≤ a.toNat), decide (b.toInt < a.toInt), decide (a.toInt ≤ b.toInt), decide (b.toNat < a.toNat),
   decide (a.toNat ≤ b.toNat), decide (a &&& b ≠ 0), decide (a &&& b = 0)]

/-- The control registers that CWR accepts and leaves as they are (06_scalar R143, R151). -/
def readOnlyRegs : List Nat :=
  [0x000, 0x001, 0x010, 0x011, 0x050, 0x051, 0x070, 0x080, 0x161, 0x182] ++ (List.range 6).map (0x008 + ·) ++
  (List.range 16).map (0x040 + ·) ++ (List.range 16).map (0x060 + ·) ++ (List.range 16).map (0x170 + ·)

/-- The scalar FP ops without a draw (06_scalar R138): the instruction, its latency, its FP32 result and its flags, for the
values `a`, `b` and `c` of its operands and the effective mode `m`. -/
def fpRows (p : Path) (d x y z : XReg) (r : Rnd) (m : Rnd) (a b c : XR) : List (Instr × Nat × Nat × Fx × List XReg) :=
  let out (v : XR × Bool) (m : Rnd) : Nat × Fx := let q := fF32.round v.1 m false 0; (q.1, q.2 ||| nvIf v.2)
  let row (i : Instr) (v : XR × Bool) (m : Rnd) (l : List XReg) : Instr × Nat × Nat × Fx × List XReg := (i, 4, (out v m).1, (out v m).2, l)
  [row (.fadds p d x y r) (XR.add m a b) m [x, y], row (.fsubs p d x y r) (XR.add m a b.flip) m [x, y],
   row (.fmuls p d x y r) (XR.mul a b) m [x, y], row (.ffmas p d x y z r) (XR.fma m a b c) m [x, y, z],
   row (.fmins p d x y) (XR.pick false a b) .rne [x, y], row (.fmaxs p d x y) (XR.pick true a b) .rne [x, y],
   (.frcps p d x, 6, (fnRound fF32 (fnRcp a)).1, (fnRound fF32 (fnRcp a)).2, [x])]

/-- The new value of an atomic by its operation (12_sync R293): the old value `o`, its data `v` and the compared value `c`, as
naturals of the width. -/
def atomicRow (aw : BitVec 3) (o v c : Nat) : List Nat :=
  let w := 8 * amoBytes aw
  let lt (x y : Nat) : Bool := decide (intVal (aw == 1 || aw == 4) w x < intVal (aw == 1 || aw == 4) w y)
  let pick (up : Bool) : Nat := (fF32.round (XR.pick up (fF32.val o) (fF32.val v)).1 .rne false 0).1
  [(o + v) % 2 ^ w, o &&& v, o ||| v, o ^^^ v,
   if aw = 3 then pick false else if lt v o then v else o, if aw = 3 then pick true else if lt o v then v else o,
   v, if o = c then v else o, (fF32.round (XR.add .rne (fF32.val o) (fF32.val v)).1 .rne false 0).1]

/-- The lanes of an AMOS have been applied to their words, those that name one word in their order (12_sync R295), but in the
blocks that the device alone writes; no other byte of local memory has changed. -/
def AtomicLanes (s t : State) (aop : Nat) (aw : BitVec 3) (ls : List (Nat × Word × Bool)) : Prop :=
  (∀ a, ¬ofPower a → (∀ l ∈ ls, a < spadBase + l.1 ∨ spadBase + l.1 + 4 ≤ a) → t.locByte a = s.locByte a) ∧
  ((∀ l ∈ ls, l.1 % 4 = 0) → ∀ l ∈ ls, l.1 < 0x0FFF7C00 →
    t.locRead (spadBase + l.1) 4 = leBytes 4 ((ls.filter (·.1 = l.1)).foldl
      (fun o k => (atomicRow aw o (k.2.1.toNat % 2 ^ 32) 0).getD aop 0 % 2 ^ 32) (leNat (s.locRead (spadBase + l.1) 4))) ∧
    t.locPoi (spadBase + l.1) 4 = (s.locPoi (spadBase + l.1) 4 || ls.any fun k => k.1 / 64 == l.1 / 64 && k.2.2))

/-! ## Results of V instructions -/

/-- Where a V instruction's sheet goes, and the sheet it may merge with. -/
def sheetDest (c : Ctx) (o : VOp) : PDest × Sheet :=
  if o.vd.toNat < 32 then (.v (c.physV o.vd.toNat), c.vv (c.physV o.vd.toNat))
  else (.push (o.vd.toNat - 32) (c.strm (o.vd.toNat - 32)).desc, Sheet.zero)

/-- The mark of a row of a result whose own marks are `m`, under a mask and MZ (07_sheet R158). -/
def mergedRow (k : MaskV) (masked mz : Bool) (old m : Nat → Bool) (r : Nat) : Bool :=
  m r || (masked && (k.marks.getLsbD r || (!mz && old r && !(List.range 512).all fun j => k.bits.getLsbD (512 * r + j))))

/-- The same for a V op. -/
def mergedMark (c : Ctx) (o : VOp) (old m : Nat → Bool) (r : Nat) : Bool :=
  mergedRow (c.maskOf o.mask.toNat) (o.mask ≠ 0) o.mz old m r

/-- A V instruction that runs completes: a sheet `v` with the flags `fx` is on its way, to land `lat` beats after issue, and
`P` holds of them; with `sr` it has drawn once. -/
def LandsV (s : State) (b : Nat) (i : Instr) (o : VOp) (lat : Nat) (sr : Bool) (P : Sheet → Fx → Prop) : Prop :=
  s.Runs b i → ∃ (v : Sheet) (fx : Fx), exec i s = .next (s.after b fun t =>
    ((t.landAt b (s.core.beat + lat) (sheetDest (s.ctx b) o).1 (.v v) fx true).drew b sr).streamed b (semOf i)) ∧ P v fx

/-- It lands a sheet of the lanes `f` and the marks `m`, under MASK and MZ (07_sheet R157, R158), with the flags given. -/
def LandsSheet (s : State) (b : Nat) (i : Instr) (o : VOp) (lat : Nat) (f : Nat → Lane) (m : Nat → Bool) (x : Fx) : Prop :=
  let c := s.ctx b
  LandsV s b i o lat false fun v fx =>
    (∀ l < 32768, v.lane l = if (c.maskOf o.mask.toNat).bits.getLsbD l then f l else if o.mz then 0 else (sheetDest c o).2.lane l) ∧
    (∀ r < 64, v.mark r = mergedMark c o (sheetDest c o).2.mark m r) ∧ fx = x

/-- It lands a sheet of elements of width `w`, each with its flags. -/
def LandsElemsWith (s : State) (b : Nat) (i : Instr) (o : VOp) (lat w : Nat) (sr : Bool) (f : Nat → Nat → Nat × Fx) (m : Nat → Bool) : Prop :=
  let c := s.ctx b
  let inc (l : Nat) : Bool := (c.maskOf o.mask.toNat).bits.getLsbD l
  LandsV s b i o lat sr fun v fx =>
    (∀ l < 32768, inc l = true → ∀ e < 32 / w, laneElem (v.lane l) w e = (f l e).1 % 2 ^ w) ∧
    (∀ l < 32768, inc l = false → v.lane l = if o.mz then 0 else (sheetDest c o).2.lane l) ∧
    (∀ r < 64, v.mark r = mergedMark c o (sheetDest c o).2.mark m r) ∧
    (∀ k < 5, fx.getLsbD k = true ↔ ∃ l < 32768, inc l = true ∧ ∃ e < 32 / w, (f l e).2.getLsbD k = true)

def LandsElems (s : State) (b : Nat) (i : Instr) (o : VOp) (lat w : Nat) (f : Nat → Nat → Nat × Fx) (m : Nat → Bool) : Prop :=
  LandsElemsWith s b i o lat w false f m

/-- The same for an op that may draw. -/
def LandsDrawn (s : State) (b : Nat) (i : Instr) (o : VOp) (lat w : Nat) (f : Nat → Nat → Nat × Fx) (m : Nat → Bool) : Prop :=
  LandsElemsWith s b i o lat w (effMode o.rnd (s.ctx b).fpm true == .sr) f m

/-- A flag is set if and only if one of the `n` results that count sets it (05_numbers R107, 07_sheet R159). -/
def OrOf (n : Nat) (inc : Nat → Bool) (f : Nat → Fx) (fx : Fx) : Prop :=
  ∀ k < 5, fx.getLsbD k = true ↔ ∃ l < n, inc l = true ∧ (f l).getLsbD k = true

/-- It lands a sheet of which every lane is written, with flags that satisfy `x`. -/
def LandsWhole (s : State) (b : Nat) (i : Instr) (o : VOp) (lat : Nat) (f : Nat → Lane) (m : Nat → Bool) (x : Fx → Prop) : Prop :=
  LandsV s b i o lat false fun v fx => (∀ l < 32768, v.lane l = f l) ∧ (∀ r < 64, v.mark r = m r) ∧ x fx

/-- It lands a mask of the bits `f`, under MASK and MZ, with flags that satisfy `x`. -/
def LandsMask (s : State) (b : Nat) (i : Instr) (o : VOp) (lat : Nat) (f m : Nat → Bool) (x : Fx → Prop) : Prop :=
  let c := s.ctx b
  let p := c.physM o.vd.toNat
  s.Runs b i → ∃ (v : MaskV) (fx : Fx), exec i s = .next (s.after b fun t =>
      (t.landAt b (s.core.beat + lat) (.m p) (.m v) fx true).streamed b (semOf i)) ∧
    (∀ l < 32768, v.bits.getLsbD l = if (c.maskOf o.mask.toNat).bits.getLsbD l then f l else !o.mz && (c.mv p).bits.getLsbD l) ∧
    (∀ r < 64, v.marks.getLsbD r = mergedMark c o (fun r => (c.mv p).marks.getLsbD r) m r) ∧ x fx

/-- The element ops (07_sheet R163): the instruction, its operands, and its exact result over floating-point values and over
integers. -/
def arithRows (o : VOp) (m : Rnd) : List (Instr × List (BitVec 9) × (XR → XR → XR → XR × Bool) × (Int → Int → Int → Int)) :=
  [(.vadd o, [o.a, o.b], fun x y _ => XR.add m x y, fun x y _ => x + y),
   (.vsub o, [o.a, o.b], fun x y _ => XR.add m x y.flip, fun x y _ => x - y),
   (.vmul o, [o.a, o.b], fun x y _ => XR.mul x y, fun x y _ => x * y),
   (.vfma o, [o.a, o.b, o.c], XR.fma m, fun x y z => x * y + z),
   (.vfms o, [o.a, o.b, o.c], fun x y z => XR.fma m x y z.flip, fun x y z => x * y - z),
   (.vfnma o, [o.a, o.b, o.c], fun x y z => XR.fma m x.flip y z, fun x y z => z - x * y),
   (.vmin o, [o.a, o.b], fun x y _ => XR.pick false x y, fun x y _ => min x y),
   (.vmax o, [o.a, o.b], fun x y _ => XR.pick true x y, fun x y _ => max x y),
   (.vabs o, [o.a], fun x _ _ => (if x.neg then x.flip else x, false), fun x _ _ => if x < 0 then -x else x),
   (.vneg o, [o.a], fun x _ _ => (x.flip, false), fun x _ _ => -x),
   (.vclamp o, [o.a, o.b, o.c], fun x y z => ((XR.pick false (XR.pick true x y).1 z).1,
      (XR.pick true x y).2 || (XR.pick false (XR.pick true x y).1 z).2), fun x y z => min (max x y) z)]

/-! ## Forms that store -/

/-- The form and the pieces of each store: what its meaning hands to the checks and to the performing of the store. -/
def storeShape (c : Ctx) : Instr → Option (Form × List Piece)
  | .sts m _ => some (memForm m true rowAlign (wideAreas true) (storeDreg m),
      (List.range 64).map fun r => rowPiece c m r (memHnd m) (memAddr c m 2048 + r * memPitch c m))
  | .str m _ row => some (memForm m true rowAlign (wideAreas true) (storeDreg m),
      [rowPiece c m row.toNat (memHnd m) (memAddr c m 2048)])
  | .sts2 m _ j hb xb2 => some (memForm m true rowAlign (wideAreas true) (storeDreg m),
      (List.range 64).map fun r => rowPiece c m r (twoHalves c m j hb xb2 r).1 (twoHalves c m j hb xb2 r).2.1 (twoHalves c m j hb xb2 r).2.2)
  | .stx m wid => some (memForm m true (fun _ => widBytes wid.toNat) (stxAreas wid) fun _ => m.reg.toNat,
      [⟨0, memHnd m, memAddr c m (widBytes wid.toNat), widBytes wid.toNat, false,
        [(0, leBytes (widBytes wid.toNat) (c.xw m.reg).toNat)], c.xm m.reg⟩])
  | .stn m _ _ => some (memForm m true rowAlign (wideAreas false) (storeDreg m),
      (List.range 64).map fun r => rowPiece c m r (memHnd m) (memAddr c m 2048 + r * memPitch c m))
  | .stsc m _ idx => some (memForm m true (fun _ => 4) (wideAreas false) (storeDreg m),
      (maskLanes c m.mask).map fun l =>
        ⟨l, memHnd m, memAddr c m 4 + 4 * idxLane c idx l, 4, false, [(0, laneBytes ((storeData c m).lane l))],
          (storeData c m).mark (l / 512) || (m.mask != 0 && (c.maskOf m.mask.toNat).marks.getLsbD (l / 512))⟩)
  | .stm m => some (memForm m true (fun _ => 64) (wideAreas true) fun c => 256 + c.physM m.reg.toNat,
      (List.range 64).map fun r => ⟨r, memHnd m, memAddr c m 64 + 64 * r, 64, false,
        [(0, leBytes 64 ((c.maskOf m.reg.toNat).bits.extractLsb' (512 * r) 512).toNat)], (c.maskOf m.reg.toNat).marks.getLsbD r⟩)
  | .amo m a => some (amoForm m a, [amoPiece c m a])
  | .amof m a => some (amoForm m a, [amoPiece c m a])
  | _ => none

/-- The byte that some runs of bytes give an address: that of the last that holds it. -/
def runByte (rs : List (Nat × List Byte)) (a : Nat) : Option Byte :=
  rs.foldl (fun o r => if r.1 ≤ a ∧ a < r.1 + r.2.length then some (r.2.getD (a - r.1) 0) else o) none

/-- The byte that a store performs at a local address in its beat: its pieces in their order, but for those at the aperture. -/
def storedByte (ts : List (Piece × Tgt)) (a : Nat) : Option Byte :=
  runByte (ts.flatMap fun q => match q.2 with
    | .spad x => if area x = .aperture then [] else q.1.runsAt (spadBase + x)
    | _ => []) a

/-- What a store leaves of the byte `v` that it gives and the byte `o` that stood there: STN keeps the nibble that it does not
name (10_memory R248). -/
def keptByte (i : Instr) (v o : Byte) : Byte :=
  match i with
  | .stn _ _ hi => if hi then (v &&& 0xF0) ||| (o &&& 0x0F) else (v &&& 0x0F) ||| (o &&& 0xF0)
  | _ => v

/-- The operands of an atomic. -/
def atomicOf : Instr → Option (MemOp × AmoOp)
  | .amo m g | .amof m g => some (m, g)
  | _ => none

/-! ## Forms that load -/

/-- The form, the pieces, the handles, the register, what is kept for it, and the latency of each load: what its meaning hands
to the checks and to the performing of the load. -/
def loadShape (c : Ctx) : Instr → Option (Form × List Piece × List Nat × PDest × LDest × Nat)
  | .lds m mz => some (memForm m false rowAlign (wideAreas true),
      (List.range 64).map (fun r => rdPiece r (memHnd m) (memAddr c m 2048 + r * memPitch c m) 2048), memHandles m,
      .v (c.physV m.reg.toNat), .rows (c.physV m.reg.toNat) (c.vv (c.physV m.reg.toNat)) (c.maskOf m.mask.toNat) (m.mask != 0) mz false, 6)
  | .ldr m row => some (memForm m false rowAlign (wideAreas true),
      [rdPiece row.toNat (memHnd m) (memAddr c m 2048) 2048], memHandles m, .v (c.physV m.reg.toNat),
      .row (c.physV m.reg.toNat) row.toNat (c.vv (c.physV m.reg.toNat)) (c.maskOf m.mask.toNat) (m.mask != 0) (row.getLsbD 0), 6)
  | .lds2 m j hb xb2 mz => some (memForm m false rowAlign (wideAreas true),
      (List.range 64).map (fun r => let t := twoHalves c m j hb xb2 r; rdPiece r t.1 t.2.1 2048 t.2.2), [m.hnd.toNat, hb.toNat],
      .v (c.physV m.reg.toNat), .rows (c.physV m.reg.toNat) (c.vv (c.physV m.reg.toNat)) (c.maskOf m.mask.toNat) (m.mask != 0) mz false, 6)
  | .ldx m wid => some (memForm m false (fun _ => widBytes wid.toNat) (ldxAreas wid),
      [rdPiece 0 (memHnd m) (memAddr c m (widBytes wid.toNat)) (widBytes wid.toNat)], memHandles m,
      .x m.reg.toNat, .x m.reg.toNat wid.toNat, 5)
  | .ldb m mz => some (memForm m false rowAlign (wideAreas true),
      [rdPiece 0 (memHnd m) (memAddr c m 2048) 2048], memHandles m, .v (c.physV m.reg.toNat),
      .rows (c.physV m.reg.toNat) (c.vv (c.physV m.reg.toNat)) (c.maskOf m.mask.toNat) (m.mask != 0) mz true, 6)
  | .ldg m idx mz => some (memForm m false (fun _ => 4) (wideAreas false),
      (maskLanes c m.mask).map (fun l => rdPiece l (memHnd m) (memAddr c m 4 + 4 * idxLane c idx l) 4), memHandles m,
      .v (c.physV m.reg.toNat),
      .gather (c.physV m.reg.toNat) (c.vv (c.physV m.reg.toNat)) (c.maskOf m.mask.toNat) (m.mask != 0) mz, 20)
  | .ldm m => some (memForm m false (fun _ => 64) (wideAreas false),
      (List.range 64).map (fun r => rdPiece r (memHnd m) (memAddr c m 64 + 64 * r) 64), memHandles m,
      .m (c.physM m.reg.toNat), .mask (c.physM m.reg.toNat), 6)
  | _ => none

/-- The value of a load's register (10_memory R246, R250, R251), where piece `n` of the load has read the bytes `got n` with the
mark `poi n`: a lane takes the four bytes at its column, under MASK and MZ; LDR leaves the other rows, LDB gives its one row to
every row, LDG gives each lane of its mask its own four bytes, LDM takes the bits of its rows and LDX extends its bytes. -/
def LoadedAs (c : Ctx) (i : Instr) (got : Nat → List Byte) (poi : Nat → Bool) (v : PVal) : Prop :=
  let quad (n j : Nat) : Lane := BitVec.ofNat 32 (leNat (((got n).drop (4 * j)).take 4))
  let sheet (m : MemOp) (mz : Bool) (f : Nat → Lane) (mk : Nat → Bool) (rows : Nat → Prop) : Prop :=
    let old := c.vv (c.physV m.reg.toNat)
    let k := c.maskOf m.mask.toNat
    ∃ w : Sheet, v = .v w ∧ ∀ r < 64,
      (rows r → (∀ j < 512, w.lane (512 * r + j) =
          if k.bits.getLsbD (512 * r + j) then f (512 * r + j) else if mz then 0 else old.lane (512 * r + j)) ∧
        w.mark r = mergedRow k (m.mask ≠ 0) mz old.mark mk r) ∧
      (¬rows r → (∀ j < 512, w.lane (512 * r + j) = old.lane (512 * r + j)) ∧ w.mark r = old.mark r)
  match i with
  | .lds m mz | .lds2 m _ _ _ mz => sheet m mz (fun l => quad (l / 512) (l % 512)) poi fun _ => True
  | .ldb m mz => sheet m mz (fun l => quad 0 (l % 512)) (fun _ => poi 0) fun _ => True
  | .ldr m row => sheet m (row.getLsbD 0) (fun l => quad (l / 512) (l % 512)) poi (· = row.toNat)
  | .ldg m _ mz => sheet m mz (fun l => quad l 0) (fun r => (List.range 512).any fun j =>
      (c.maskOf m.mask.toNat).bits.getLsbD (512 * r + j) && poi (512 * r + j)) fun _ => True
  | .ldm _ => ∃ w : MaskV, v = .m w ∧ (∀ l < 32768, w.bits.getLsbD l = ((got (l / 512)).getD (l % 512 / 8) 0).getLsbD (l % 8)) ∧
      ∀ r < 64, w.marks.getLsbD r = poi r
  | .ldx _ wid => v = .x ⟨BitVec.ofInt 64 (intVal (wid.toNat % 2 == 0 && wid.toNat != 6) (8 * widBytes wid.toNat) (leNat (got 0))), poi 0⟩
  | _ => False

/-- The last data of a load in flight is about to arrive by the happening `e`: from local memory, from the host, or with a read
reply of another package; `val` gives each piece its bytes and its mark (10_memory R237, 18_platform R394, 14_fabric R325). -/
def LastData (s : State) (x : Access) (e : Instr) (val : RdPiece → List Byte × Bool) : Prop :=
  let due := x.rd.filter fun p => p.got = none
  (∀ p ∈ x.rd, ∀ g, p.got = some g → val p = g) ∧
  ((e = .longLoadArrival ∧ s.arg = .id x.id ∧ s.core.evpops = [] ∧ s.core.ctlOps = [] ∧
      ∀ p ∈ due, p.home = .here ∧ s.unitsReady p.addr p.len = true ∧ s.unitsGone p.addr p.len = false ∧
        val p = (s.locRead p.addr p.len, s.locPoi p.addr p.len)) ∨
    (e = .longLoadArrival ∧ due ≠ [] ∧ x.hsent = true ∧ s.hostAnswers x.id = true ∧ (∀ p ∈ due, p.home = .host) ∧
      ∃ bs : List Byte, s.arg = .arrival x.id (.host bs) ∧ bs.length = (due.map (·.len)).sum ∧
        ∀ n p, due[n]? = some p → val p = ((bs.drop ((due.take n).map (·.len)).sum).take p.len, false)) ∨
    (e = .readReply ∧ ∃ k y r j q, s.arg = .id k ∧ s.cellAt k = some y ∧ y.type = .readReply ∧ s.reqOf y = some r ∧
      r.why = .load x.id j ∧ x.rd[j]? = some q ∧ (y.bytes.map (·.1)).Nodup ∧ ∀ p ∈ due, p.block = q.block ∧
        (val p).1.length = p.len ∧ (∀ n < p.len, ∀ v, (p.addr + n, v) ∈ y.bytes → (val p).1.getD n 0 = v) ∧
        (∀ n < p.len, (∀ w, (p.addr + n, w) ∉ y.bytes) → (val p).1.getD n 0 = 0) ∧
        ((val p).2 = true ↔ ∃ n < p.len, (p.addr + n) % 128 / 64 ∈ y.poi)))

/-- The state in which a load reads: it has marked the regions it touches, and met the lines found uncorrectable. -/
def readingState (ts : List (Piece × Tgt)) (t : State) : State := (t.amosFlush.meetErrors (spadSpans ts)).touch (hearthSpans ts)

/-- The flag of a compare. -/
def comparedFlag : Instr → Option Nat
  | .cmp _ _ f _ _ | .cmpi _ _ f _ _ | .fcmps _ _ f _ _ | .hchk _ f _ _ => some f.toNat
  | _ => none

/-- The instructions of the scalar, vector and load slots that write registers alone. -/
def registerOnly (i : Instr) : Bool :=
  match i with
  | .cwr .. | .fpxWrite .. | .basidWrite .. | .ltbWrite .. | .qmapWrite .. | .isldWrite .. | .egrantWrite .. | .xltwG .. => false
  | _ => match i.slot with
    | some .s0 | some .s1 | some .v0 | some .v1 | some .v2 | some .ld => true
    | _ => false

/-- The instructions that may draw. -/
def draws (i : Instr) : Bool :=
  match i with
  | .fcvtis .. | .fcvtsi .. | .vcvt .. | .vpack .. | .vunpk .. | .vqnt .. | .vdqnt .. => true
  | _ => false

/-! ## The fields of the control registers -/

/-- The reshapes. -/
def reshapes : Instr → Bool
  | .cpart .. | .cjoin .. | .csplit .. | .cfree .. => true
  | _ => false

/-- The fields of the registers that show one context, the core, the windows, the rails and the package: loop0 to loop5
(04_sequencing R84), ebst, wal, damp, rail and cfg (06_scalar R145 to R147, R149). -/
def UserRegisterFields (s : State) (b : Nat) : Prop :=
  let c := s.ctx b
  let f (n lo len : Nat) : Nat := ((s.creg b n).extractLsb' lo len).toNat
  (∀ k < 6, match c.loops[k]? with
    | some e => f (0x008 + k) 63 1 = 1 ∧ f (0x008 + k) 62 1 = e.rot.toNat ∧ f (0x008 + k) 46 16 = e.start.toNat ∧
        f (0x008 + k) 23 23 = e.idx.toNat ∧ f (0x008 + k) 0 23 = e.rem.toNat
    | none => s.creg b (0x008 + k) = 0) ∧
  f 0x011 32 32 = s.core.ins.toNat ∧ f 0x011 10 22 = 0 ∧
  f 0x011 0 10 = ((s.core.window.filter fun e => decide (s.core.beat < e.1 + 64)).map (·.2)).sum % 1024 ∧
  (∀ k < 16, let w := s.window k
    w.out < 2 ^ 15 → w.lim < 2 ^ 15 → f (0x040 + k) 32 32 = w.ackd.toNat ∧ f (0x040 + k) 31 1 = w.fail.toNat ∧
      f (0x040 + k) 16 15 = w.out ∧ f (0x040 + k) 15 1 = 0 ∧ f (0x040 + k) 0 15 = w.lim) ∧
  ((∀ l < 12, tget s.pow.steps l 0 < 16) → (∀ l < 12, f 0x050 (4 * l) 4 = tget s.pow.steps l 0) ∧ f 0x050 48 16 = 0) ∧
  (∀ k < 48, (s.creg b 0x051).getLsbD k = true ↔ k ∉ s.pow.lowBlk) ∧ f 0x051 48 16 = 0 ∧
  (s.plat.rcxl.Nodup → s.plat.rhbm.Nodup → (∀ k ∈ s.plat.rcxl, k < 8) → (∀ k ∈ s.plat.rhbm, k < 8) →
    (∀ k < 8, ((s.creg b 0x070).getLsbD (31 + k) = true ↔ k ∈ s.plat.rcxl) ∧
      ((s.creg b 0x070).getLsbD (23 + k) = true ↔ k ∈ s.plat.rhbm)) ∧
    (s.plat.rlay.Nodup → (∀ l ∈ s.plat.rlay, l < 12) → f 0x070 39 25 = 0 ∧ f 0x070 22 1 = s.plat.spare.toNat ∧
      (∀ l < 12, (s.creg b 0x070).getLsbD (10 + l) = true ↔ l ∈ s.plat.rlay) ∧ f 0x070 0 10 = s.plat.pkg.toNat))

/-- pst STATE of a partition id (09_partitions R214). -/
def partState (v : Machine.Part) : Nat :=
  if v.kind = .none then 0 else if v.err then 5 else if v.susp then 4
  else if v.queue.head?.map (fun e => reshapes e.op) = some true then 3 else if v.queue = [] then 1 else 2

/-- The fields of pst of an id (06_scalar R148, 09_partitions R214). What SKIP of a chain id counts, R214 does not say
(DESIGN CHOICE, log 121). -/
def PstFields (s : State) (b p : Nat) : Prop :=
  let v := s.part p
  let box := if v.kind = .chain then s.part (v.members.headD 0) else v
  let f (lo len : Nat) : Nat := ((s.creg b (0x060 + p)).extractLsb' lo len).toNat
  box.first < 16 → box.last < 16 → v.queue.length ≤ 64 → (∀ k, v.chain = some k → k < 16) →
  f 30 2 = 0 ∧ f 22 1 = 0 ∧ f 21 1 = box.railHi.toNat ∧ (f 20 1 = 1 ↔ v.kind ≠ .none ∧ v.uid = (s.ctx b).uid) ∧
  f 8 4 = box.quads.toNat ∧ f 4 4 = box.last ∧ f 0 4 = box.first ∧
  (v.kind ≠ .chain → f 32 32 = v.skip.toNat ∧ f 23 7 = v.queue.length ∧ f 17 3 = partState v ∧
    f 16 1 = v.chain.isSome.toNat ∧ ∀ k, v.chain = some k → f 12 4 = k) ∧
  (v.kind = .chain → f 23 7 = 0 ∧ f 16 1 = 1 ∧ f 12 4 = p ∧ (∀ q ∈ v.members, partState (s.part q) ≤ f 17 3) ∧
    (v.members ≠ [] → ∃ q ∈ v.members, partState (s.part q) = f 17 3))

/-- The fields of the registers of the privileged block (06_scalar R151, 16_system R365, 11_copy R257, 13_jobs R297,
14_fabric R322, R328, 18_platform R405, 17_power R386). -/
def PrivilegedRegisterFields (s : State) (b : Nat) : Prop :=
  let f (n lo len : Nat) : Nat := ((s.creg b n).extractLsb' lo len).toNat
  let l := s.lease s.core.lsel.toNat
  s.creg b 0x100 = s.core.bsel.setWidth 64 ∧ s.creg b 0x101 = (s.ctx s.core.bsel.toNat).rmask ∧
  s.creg b 0x102 = (s.ctx s.core.bsel.toNat).asid.setWidth 64 ∧ s.creg b 0x110 = s.core.asel.setWidth 64 ∧
  s.creg b 0x111 = tget s.ms.ptb s.core.asel.toNat 0 ∧ s.creg b 0x112 = tget s.ms.ltb s.core.asel.toNat 0 ∧
  (∀ k < 64, s.creg b (0x120 + k) = tget s.sched.qmap k 0) ∧ s.creg b 0x160 = s.core.lsel.setWidth 64 ∧
  (l.gcnt < 2 ^ 17 → l.lost.length < 2 ^ 17 → f 0x161 61 3 = l.lst.num ∧ f 0x161 60 1 = l.mir.toNat ∧
    f 0x161 50 10 = l.peer.toNat ∧ f 0x161 33 17 = l.gcnt ∧ f 0x161 16 17 = l.lost.length ∧ f 0x161 7 9 = 0 ∧
    f 0x161 0 7 = l.pidx.toNat) ∧
  (∀ k < 16, let w := s.window k
    f (0x170 + k) 57 7 = w.pbase.toNat ∧ f (0x170 + k) 47 10 = w.peer.toNat ∧ f (0x170 + k) 34 13 = w.wasid.toNat ∧
      f (0x170 + k) 33 1 = w.cfg.toNat ∧ f (0x170 + k) 0 33 = 0) ∧
  f 0x180 48 16 = 0 ∧ f 0x180 7 41 = s.plat.isrc.toNat ∧ f 0x180 0 7 = 0 ∧
  f 0x181 48 16 = s.plat.isldFirst.toNat ∧ f 0x181 32 16 = s.plat.isldCnt.toNat ∧ f 0x181 12 20 = 0 ∧
  f 0x181 0 12 = s.plat.isldFlag.toNat ∧
  f 0x182 63 1 = s.plat.isBusy.toNat ∧ f 0x182 62 1 = s.plat.isErr.toNat ∧ f 0x182 17 45 = 0 ∧ f 0x182 0 17 = s.plat.isDone.toNat ∧
  f 0x190 28 36 = 0 ∧ f 0x190 16 12 = s.pow.ccap.toNat ∧ f 0x190 10 6 = 0 ∧ f 0x190 0 10 = s.pow.grant.toNat

/-! ## Engine ops -/

/-- The ids in whose queues an op of the CB slot takes a place, in the tail view (08_cube R185, 09_partitions R216, R224). -/
def cubeQueues (s : State) : Instr → Option (List Nat)
  | .cmm c | .cmmp c => some ((s.tail c.part.toNat).targets c.part.toNat)
  | .cdrn c => some ((s.tail c.part.toNat).targets c.part.toNat)
  | .czro _ q _ _ _ | .cswp _ q _ _ | .ccur _ q _ _ | .cring _ q _ | .cwait _ q _ | .csig _ q _ | .crail _ q _
  | .csplit _ q _ _ | .cfree _ q _ _ => some ((s.tail q.toNat).targets q.toNat)
  | .cqry _ q _ _ now _ => if now ∨ (s.tail q.toNat).kind = .none then none else some ((s.tail q.toNat).targets q.toNat)
  | .cpart c => some ((idsOf c.srcm ++ cpartNew c).dedup)
  | .cjoin _ _ shape m0 m1 m2 m3 _ _ => some (cjoinMembers shape m0 m1 m2 m3)
  | _ => none

/-- The id that an op of 08_cube names. -/
def cubeTarget : Instr → Option Nat
  | .cmm c | .cmmp c => some c.part.toNat
  | .cdrn c => some c.part.toNat
  | .czro _ q _ _ _ | .cswp _ q _ _ | .ccur _ q _ _ | .cring _ q _ | .cwait _ q _ | .csig _ q _ | .crail _ q _ => some q.toNat
  | _ => none

/-- The op as partition `k` runs it: layers that the op names in the box of member 0 are those at the same offsets in the box of
`k` (09_partitions R208; for CRING, DESIGN CHOICE, log 102), and a drain has its rounding from its issue (08_cube R201). -/
def memberOp (s : State) (c : Ctx) (i : Instr) (k : Nat) : Instr :=
  let at_ (q : PartId) (l : BitVec 12) : BitVec 12 := shiftMask l (s.tailBox q.toNat).first (s.tail k).first
  match i with
  | .cmm o => .cmm { o with lmask := at_ o.part o.lmask }
  | .cmmp o => .cmmp { o with lmask := at_ o.part o.lmask }
  | .cdrn o => .cdrn { o with
      dlay := BitVec.ofNat 4 (o.dlay.toNat + (s.tail k).first - (s.tailBox o.part.toNat).first)
      rnd := (if 1 ≤ o.dfmt.toNat ∧ o.dfmt.toNat < 5 then effMode ((Rnd.ofCode o.rnd).getD .rne) c.fpm true else Rnd.rne).code }
  | .czro p q l a e => .czro p q (at_ q l) a e
  | .cring p q r => .cring p q { r with lmask := at_ q r.lmask }
  | _ => i

/-- A copy op: its operands, whether it counts, and what it names beyond its sides. -/
def copyOf : Instr → Option (CpOp × Bool × CpExtra)
  | .cpy c a => some (c, a, .plain)
  | .cpys c a out str => some (c, a, .stream out str.toNat)
  | .cpyw c a l n p => some (c, a, .bank l.toNat n p.toNat)
  | .cpyr c a r p => some (c, a, .ring r.toNat p.toNat)
  | _ => none

/-- The kind and the sides of a copy's descriptor, and the swap counts or ring configurations that it takes at issue
(11_copy R262, R267, R269, R270). -/
def copyContent (s : State) (c : Ctx) (o : CpOp) (x : CpExtra) : CopyKind × Side × Side × List (Nat × Nat) × List (Nat × Nat) :=
  let src := copySide c o.smode o.shnd o.sx
  let dst := copySide c o.dmode o.dhnd o.dx
  match x with
  | .plain => (.copy, src, dst, [], [])
  | .stream out k => if out then (.sOut, .stream k, dst, [], []) else (.sIn, src, .stream k, [], [])
  | .bank l n p => (.weights, src, .bank p l n (c.xw o.dx).toNat,
      ((s.tail p).targets p).map fun q => (q, if n then (s.tail q).issN else (s.tail q).issW), [])
  | .ring r p => (.ring, src, .slot p r, [], ((s.tail p).targets p).map fun q => (q, ((s.tailRing q r).map (·.1)).getD 0))

/-- The op of the context-control unit that is in progress has left it, and its scalar has its result, if nothing else is pending
to it. -/
def Answered (s t : State) (o : CtlOp) (v : Word) : Prop :=
  t.core.ctlOps = [] ∧ ∀ d, s.hasCtx o.bank = true → (s.ctx o.bank).uid = o.uid → (s.ctx o.bank).locks = [⟨.x d, o.id⟩] →
    (∀ p ∈ (s.ctx o.bank).pend, p.dst ≠ .x d) → 0 < d → (t.ctx o.bank).xv d = ⟨v, false⟩ ∧ (t.ctx o.bank).locks = []

/-- A number of `n` bytes at a local address. -/
def numAt (s : State) (a n : Nat) : Nat := leNat (s.locRead a n)

/-- What an op of the lease agent does that finds the agent free, its block, if it has one, at xa (14_fabric R321, R330, R331,
R333, R334, R336, R340). An op that asks another package stays with the agent until that answers; one that lands leaves it. -/
def LeaseEffects (s : State) (b : Nat) (p : Path) (x z : XReg) (o : SyOp) : Prop :=
  let c := s.ctx b
  let blk (ofs n : Nat) : Nat := numAt s (spadBase + (c.xw x).toNat + ofs) n
  let at_ (t : State) (d : XReg) (v : Nat) : Prop := (t.ctx b).locks = c.locks ∧ t.fab.agent = [] ∧
    (d ≠ 0 → (∀ p ∈ c.pend, p.dst ≠ .x d.toNat) → (t.ctx b).xv d.toNat = ⟨BitVec.ofNat 64 v, false⟩)
  let lands (i : Instr) (d : XReg) (v : Nat) (P : State → Prop) : Prop := s.Runs b i → ∃ t, exec i s = .next t ∧ at_ t d v ∧ P t
  let asks (i : Instr) (d : XReg) (k g : Nat) (why : ReqFor) (m : LeaseMsg) (P : State → Prop) : Prop :=
    s.Runs b i → ∃ (t : State) (a : AgentOp) (r : Req) (y : TxCell), exec i s = .next t ∧ t.fab.agent = [a] ∧ a.op = i ∧ a.id = s.ids ∧
      a.began = true ∧ a.ent = k ∧ (t.ctx b).locks = c.locks ++ [⟨.x d.toNat, s.ids⟩] ∧ t.fab.reqs = s.fab.reqs ++ [r] ∧
      r.dst = g ∧ r.why = why ∧ t.fab.txq = s.fab.txq ++ [y] ∧ y.cell.dst.toNat = g ∧ y.cell.lease = some m ∧ y.req = some r.id ∧ P t
  let others (t : State) (k : Nat) : Prop := ∀ m, m ≠ k → t.lease m = s.lease m
  let declines (t : State) (l : Lease) : Prop := ∃ y, t.fab.txq = s.fab.txq ++ [y] ∧ y.cell.dst = l.peer ∧
    y.cell.lease = some (.acceptance l.pidx.toNat false 0)
  -- LOFFER: the lowest free lent entry is offered
  (∀ k, 64 ≤ k → k < 127 → (s.lease k).lst = .free → (∀ j, 64 ≤ j → j < k → (s.lease j).lst ≠ .free) →
    blk 0 8 % 2 ^ 21 = 0 → 0 < blk 8 4 → blk 8 4 ≤ 65536 → blk 12 2 < 1024 → blk 14 1 ≤ 1 → blk 15 1 = 0 → blk 16 2 < 4094 →
    blk 18 14 = 0 → inHbm (blk 0 8) (2 ^ 21 * blk 8 4) = true → blk 12 2 ∉ s.fab.lost →
    (∀ e ∈ s.fab.leases, 64 ≤ e.1 → e.2.lst ≠ .free → overlaps (blk 0 8) (2 ^ 21 * blk 8 4) e.2.base (leaseBytes e.2) = false) →
    let m := LeaseMsg.offer k (blk 8 4) (blk 14 1 == 1) (blk 0 8) (BitVec.ofNat 12 (blk 16 2))
    asks (.loffer p x z) z k (blk 12 2) (.ask m) m fun t => ∀ j, t.lease j = s.lease j) ∧
  -- LACC: an offer is declined or accepted
  (∀ (k : Nat) (l : Lease), k = blk 0 1 → l = s.lease k → 0 < k → k < 64 → l.lst = .offered → l.peer.toNat ∉ s.fab.lost →
    blk 2 2 < 8192 → blk 4 4 = 0 → blk 24 8 = 0 → blk 16 8 % 2 ^ 21 = 0 → blk 16 8 < 2 ^ 57 →
    (blk 1 1 = 0 → lands (.lacc p x z) z k fun t => t.lease k = Lease.zero ∧ others t k ∧ declines t l) ∧
    (blk 1 1 = 1 → blk 8 8 % 2 ^ 21 = 0 → inTier2 (blk 8 8) (leaseBytes l) = true →
      (∀ e ∈ s.fab.leases, e.1 < 64 → e.1 ≠ k → e.2.reserves = true → overlaps (blk 8 8) (leaseBytes l) e.2.fbase (leaseBytes e.2) = false) →
      (∀ g < l.gcnt, blk 16 8 + 2 ^ 21 * g < 2 ^ 57 ∧ ∃ a, s.ptePlace (BitVec.ofNat 13 (blk 2 2)) (blk 16 8 + 2 ^ 21 * g) = some a ∧
        s.readPoi a 8 = false ∧ (numAt s a 8).testBit 0 = false) →
      let m := LeaseMsg.acceptance l.pidx.toNat true (blk 8 8)
      asks (.lacc p x z) z k l.peer.toNat (.ask m) m fun t => others t k ∧ t.lease k = { l with
        asid := BitVec.ofNat 13 (blk 2 2), fbase := blk 8 8, vbase := blk 16 8, accept := true, zLender := false, zFall := !l.mir })) ∧
  -- LRCL: the recall begins, with its deadline
  (∀ (k : Nat) (l : Lease), k = (c.xw o.xa).toNat → l = s.lease k → 64 ≤ k → k < 127 → l.lst = .active → s.recalls true < 8 →
    l.peer.toNat ∉ s.fab.lost →
    let m := LeaseMsg.recall l.pidx.toNat
    asks (.lrcl o) o.xd k l.peer.toNat (.ask m) m fun t => others t k ∧ (t.lease k).lst = .recalling ∧ (t.lease k).start = s.core.beat ∧
      (t.lease k).flag = (c.xw o.xb).toNat % 4096 ∧ (t.lease k).peer = l.peer ∧ (t.lease k).base = l.base ∧ (t.lease k).gcnt = l.gcnt ∧
      (t.lease k).dline = some (s.core.beat + 2 ^ 22 + ((if l.mir then 0 else 2 ^ 21 * l.gcnt) + 191) / 192)) ∧
  -- LDISC: granules of a mapped lease are discarded
  (∀ (k : Nat) (l : Lease), (k, l) ∈ s.fab.leases → (s.fab.leases.map (·.1)).Nodup → 0 < k → k < 64 → l.lst = .active →
    let va := (c.xw o.xa).toNat
    let n := (c.xw o.xb).toNat
    va % 2 ^ 21 = 0 → 0 < n → n ≤ 65536 → l.asid = c.asid → l.vbase ≤ va → va + 2 ^ 21 * n ≤ l.vbase + leaseBytes l →
    (∀ e ∈ s.fab.leases, e.1 < 64 → e.1 ≠ k → e.2.asid = c.asid → ¬(e.2.vbase ≤ va ∧ va + 2 ^ 21 * n ≤ e.2.vbase + leaseBytes e.2)) →
    lands (.ldisc o) o.xd n fun t => others t k ∧ (t.lease k).lst = .active ∧
      ∀ g, g ∈ (t.lease k).disc ↔ g ∈ l.disc ∨ ∃ i < n, g = (va - l.vbase) / 2 ^ 21 + i) ∧
  -- LRET, by the state of its entry
  (∀ (k : Nat) (l : Lease) (drop : Bool), k = (c.xw x).toNat → l = s.lease k → 0 < k → k < 127 →
    (64 ≤ k → l.lst = .returned → lands (.lret p x z drop) z k fun t => t.lease k = Lease.zero ∧ others t k) ∧
    (k < 64 → l.lst = .offered → l.accept = false → lands (.lret p x z drop) z k fun t =>
      t.lease k = Lease.zero ∧ others t k ∧ declines t l) ∧
    (k < 64 → l.lst = .active → l.peer.toNat ∉ s.fab.lost →
      let m := LeaseMsg.recallRequest l.pidx.toNat
      asks (.lret p x z drop) z k l.peer.toNat (.ask m) m fun t => others t k ∧ (t.lease k).lst = .active ∧
        ∀ g, g ∈ (t.lease k).disc ↔ g ∈ l.disc ∨ (drop = true ∧ g < l.gcnt)) ∧
    (k < 64 → l.lst = .returned ∨ l.lst = .dead → l.disc = [] → lands (.lret p x z drop) z k fun t =>
      t.lease k = Lease.zero ∧ others t k)) ∧
  -- FRSV: the lowest free id asks for its slots
  (∀ k, 0 < k → k < 256 → tfind s.fab.resv k = none → (∀ j, 0 < j → j < k → tfind s.fab.resv j ≠ none) →
    let w := (c.xw x).toNat
    let dst := w % 1024
    let cls := w / 1024 % 4
    let n := w / 4096
    0 < n → n ≤ 48 → dst ∉ s.fab.lost → s.reservedOn (s.cellPort dst cls) + n ≤ 48 →
    asks (.frsv p x z) z k dst (.resv k) (.reserve cls n) fun t => ∀ j, tfind t.fab.resv j =
      if j = k then some { dst := BitVec.ofNat 10 dst, cls := BitVec.ofNat 2 cls, slots := n, port := s.cellPort dst cls, held := false }
      else tfind s.fab.resv j) ∧
  -- WSET: a grant and a revival apply at once, a window waits for the event that applies it
  (blk 25 7 = 0 →
    (blk 0 1 = 1 → blk 1 1 < 64 → blk 2 2 / 1024 % 32 = 0 → blk 4 2 < 8192 → blk 6 2 < 16 → blk 16 8 % 4096 = 0 → blk 24 1 < 2 →
      lands (.wset p x z) z 0 fun t => ∀ j, tfind t.fab.grants j = if j ≠ blk 1 1 then tfind s.fab.grants j
        else if blk 16 8 = 0 then none
        else some { any := decide (32768 ≤ blk 2 2), pkg := BitVec.ofNat 10 (blk 2 2), asid := BitVec.ofNat 13 (blk 4 2)
                    rd := (blk 6 2).testBit 0, wr := (blk 6 2).testBit 1, at_ := (blk 6 2).testBit 2, ap := (blk 6 2).testBit 3
                    base := blk 8 8, size := blk 16 8, local_ := blk 24 1 == 1 }) ∧
    (blk 0 1 = 2 → blk 1 1 = 0 → blk 2 2 < 1024 → blk 4 2 = 0 → blk 6 2 = 0 → blk 8 8 = 0 → blk 16 8 = 0 → blk 24 1 = 0 →
      lands (.wset p x z) z 0 fun t => (∀ g, g ∈ t.fab.lost ↔ g ∈ s.fab.lost ∧ g ≠ blk 2 2) ∧
        (t.ms.hostLost = true ↔ s.ms.hostLost = true ∧ blk 2 2 ≠ s.pkg)) ∧
    (blk 0 1 = 0 → blk 1 1 < 16 → blk 2 2 < 1024 → blk 4 2 < 8192 → blk 6 2 < 32768 → blk 8 8 % 2 ^ 25 = 0 → blk 8 8 < 2 ^ 32 →
      blk 16 8 = 0 → blk 24 1 = 0 → s.Runs b (.wset p x z) → ∃ (t : State) (a : AgentOp), exec (.wset p x z) s = .next t ∧
        t.fab = { s.fab with agent := [a] } ∧ a.id = s.ids ∧ a.began = true ∧ a.op = .wset p x z ∧
        (t.ctx b).locks = c.locks ++ [⟨.x z.toNat, s.ids⟩] ∧ a.blk = s.locRead (spadBase + (c.xw x).toNat) 32))

/-- A change of a window applies once it has no cell outstanding (14_fabric R340): wcfg, LIM and FAIL change, ACKD stays. -/
def WindowChangeApplies (s : State) (u : AgentOp) : Prop :=
  let f (ofs n : Nat) : Nat := leNat ((u.blk.drop ofs).take n)
  let w := f 1 1
  ∀ p x z, s.fab.agent = [u] → u.began = true → u.op = .wset p x z → (s.window w).out = 0 →
    ∃ t, exec .windowChangeApplies s = .next t ∧ t.fab.agent = [] ∧ (∀ k, k ≠ w → t.window k = s.window k) ∧
      t.window w = { s.window w with
        cfg := decide (f 6 2 ≠ 0), pbase := BitVec.ofNat 7 (f 8 8 / 2 ^ 25), peer := BitVec.ofNat 10 (f 2 2)
        wasid := BitVec.ofNat 13 (f 4 2), lim := f 6 2, fail := false }

/-- An image of a context stands at a local address (16_system R373): magic, version, awake clusters, position, held code,
scalars and their marks, handles, masks and the sheets of the awake clusters. -/
def ImageAt (s : State) (a : Nat) (c : Ctx) : Prop :=
  let f (ofs n : Nat) : Nat := numAt s (a + ofs) n
  let up := (List.range 4).filter fun k => c.clus k == .awake
  f 0 4 = 0x49435A56 ∧ f 4 2 = 1 ∧ (∀ k < 4, (f 6 1).testBit k = decide (c.clus k = .awake)) ∧ f 16 8 / 2 ^ 48 = c.pc.toNat ∧
  f 180 1 = c.held % 256 ∧ (∀ r < 64, f (592 + 8 * r) 8 = (c.xv r).val.toNat ∧ (f 200 8).testBit r = (c.xv r).mark) ∧
  (∀ r < 32, bitsOf (f (1104 + 16 * r) 8) 12 2 = (c.hv r).hst.num ∧ f (1112 + 16 * r) 8 % 2 ^ 57 = (c.hv r).vbase.toNat) ∧
  (∀ r < 16, ∀ l < 32768, (s.locByte (a + 4096 + 4096 * r + l / 8)).getLsbD (l % 8) = (c.mv r).bits.getLsbD l) ∧
  (∀ i k, up[i]? = some k → ∀ j < 8, ∀ l < 32768, f (69632 + 1048576 * i + 131072 * j + 4 * l) 4 = ((c.vv (8 * k + j)).lane l).toNat)

/-- The channel in whose queue an op of the CP slot takes a place (11_copy R254). -/
def chanOf : Instr → Option Nat
  | .cpy c _ | .cpys c .. | .cpyw c .. | .cpyr c .. => some c.ch.toNat
  | .cpdrn _ ch _ | .cprd _ ch _ _ | .cpub _ ch _ _ => some ch.toNat
  | _ => none

/-! ## The happenings -/

/-- The happenings that take an identity, what each does to the state, and whether it is enabled. -/
def idRows (s : State) (n : Nat) : List (Instr × Option State) :=
    [(.seatingComplete, s.seatingEnds n), (.unseatingComplete, s.unseatingEnds n),
     (.unseatAtPreEmptionPoint, s.unseatAtPoint n), (.park, s.parkNow n), (.preEmptionDeadline, s.deadline n),
     (.translationWalkComplete, s.walkComplete n), (.computeOpStart, s.computeOpStart n),
     (.computeOpComplete, s.computeOpComplete n), (.cdrnStart, s.cdrnStart n),
     (.cswpStart, s.cswpStart n), (.ccurStart, s.ccurStart n), (.cringStart, s.cringStart n), (.cwaitStart, s.cwaitStart n),
     (.csigStart, s.csigStart n), (.crailStart, s.crailStart n), (.cqryRecordWritten, s.cqryRecord n),
     (.rendezvousArrival, s.rendezvous n), (.reshapeTakesEffect, s.reshapeEffect n), (.contextIdsFreed, s.freeId n),
     (.apertureCopyStart, s.apertureStart n), (.copyStart, s.copyStart n), (.cardAccept, s.cardAccept n),
     (.cpdrnComplete, s.cpdrnComplete n), (.cprdRecordWritten, s.cprdWritten n), (.postAtHome, s.postHome n),
     (.postReply, s.postReply n), (.acceptanceTimeout, s.acceptTimeout n), (.dispatch, s.dispatch n),
     (.pendingPriorityHold, s.pendingLook n), (.jobEnd, s.jobEnd n), (.writeCell, s.writeCell n),
     (.readRequest, s.readRequest n []), (.readReply, s.readReply n), (.atomicRequest, s.atomicRequest n []),
     (.atomicReply, s.atomicReply n), (.acknowledgement, s.ackArrives n), (.errorReply, s.errorReply n),
     (.flagWriteCell, s.flagWriteCell n), (.postCell, s.postCell n), (.leaseOffer, s.leaseOffer n),
     (.leaseAcceptance, s.leaseAcceptance n), (.zeroingConfirmation, s.zeroingConfirmed n),
     (.recallRequest, s.recallRequest n), (.recall, s.recallArrives n), (.recallAcknowledgement, s.recallAck n),
     (.discardSet, s.discardSet n), (.recallDone, s.recallDone n), (.doneAcknowledgement, s.doneAck n),
     (.recallDeadline, s.recallDeadline n), (.flipBackToHost, s.flipBack n), (.droopBegin, s.droopBegin n),
     (.droopClear, s.droopClear n), (.hopComplete, s.hopEnd n), (.holdLowEnd, s.holdEnd n), (.damperPeriod, s.damperPeriod n),
     (.patrolInterval, s.patrolInterval n), (.copyError, s.copyError n), (.hostLinkRetraining, s.linkLanes n),
     (.leaseOfferAnswer, s.offerAnswer n), (.recallRefused, s.recallRefused n), (.granuleZeroingRequest, s.granuleZeroing n)] ++
    [(.storePerformed, s.storePerformed n (.memory [])), (.streamSheetWritten, s.sheetWritten n (.memory [])),
     (.longLoadArrival, s.longLoadArrival n (.memory [])), (.streamSheetPoppable, s.sheetPoppable n (.memory [])),
     (.copyComplete, s.copyComplete n (.memory [])),
     (.cdrnComplete, s.cdrnComplete n ⟨[], [], []⟩), (.bankRelease, (s.bankRelease n).map (·.ctlPoll)),
     (.requestTimeout, s.requestTimeout n), (.fallbackZeroingComplete, s.fallbackZeroed n),
     (.frameSend, if n = 64 then s.linkSend else s.frameSend n)]

/-- The happenings that need no operand. -/
def plainRows (s : State) : List (Instr × Option State) :=
    [(.resultLands, s.resultLands), (.amosEnd, s.amosEnds), (.releaseLands, s.releaseLands), (.windowChangeApplies, s.windowChange),
     (.contextSaveComplete, s.saveComplete), (.contextRestoreComplete, s.restoreComplete), (.schedulerSeat, s.schedulerSeat),
     (.queueRotation, s.rotate), (.hostRequest, s.hostRequest (argLines s.arg)), (.linkDownTimeout, s.linkTimeout),
     (.damperRecompute, s.damperRecompute), (.instructionStoreLoadComplete, s.loadComplete)]

/-- The happenings with the operand `a`. -/
def eventRows (s : State) (a : Arg) : List (Instr × Option State) :=
  plainRows s ++ match a with
    | .none => []
    | .id n => idRows s n
    | .two n k =>
      [(.clusterWakeComplete, s.clusterWakes n k), (.reTranslation, s.reTranslate n k),
       (.layoutRecordArrival, s.recordArrival n k), (.linkRetraining, s.linkRetrain n k), (.requestTimeout, s.lostAccess n),
       (.hostFlipRequest, s.hostFlipRequest n k), (.fallbackZeroingComplete, s.granuleFallback n k)]
    | .arrival n how =>
      [(.longLoadArrival, s.longLoadArrival n how), (.streamSheetPoppable, s.sheetPoppable n how),
       (.copyComplete, s.copyComplete n how), (.streamSheetWritten, s.sheetWritten n how), (.storePerformed, s.storePerformed n how),
       (.readRequest, s.readRequest n (arrivalLines how)), (.atomicRequest, s.atomicRequest n (arrivalLines how))]
    | .step p er => [(.computeStepEntry, s.computeStepEntry p er), (.cdrnComplete, s.cdrnComplete p er)]
    | .granted n ok => [(.reservationReply, s.resvReply n ok), (.ownershipFlip, s.ownershipFlip n ok)]
    | .frame k f => [(.frameReceived, s.frameReceived k f)]
    | .link f => [(.linkFrame, s.linkFrame f)]
    | .cones rs => [(.coneSample, s.coneSample rs)]
    | .image i failed bad => [(.coldStart, some (s.coldStart i failed bad)), (.warmReset, some (s.warmReset i failed))]
    | .unit u => [(.unitReady, s.unitReady u)]
    | .test u pass lost => [(.selfTestEnd, s.selfTestEnd u pass lost)]
    | .nonce bs => [(.attestationRequest, s.attest bs)]
    | .patrol line errs => [(.patrolRead, s.patrolRead line errs)]
    | .bad _ => []

end Sys2Proof.Machine

open Sys2Proof Sys2Proof.Machine Host

/-! ## Encoding -/

/-- 02_bundle R48: the decoder gives back every well-formed instruction from the word the encoding tables give it, in every
slot that takes it, with every operand; CNOP is the empty CTL slot. -/
def Obligations.EncodeThenDecodeGivesInstruction : Prop :=
  (∀ (i : Instr) (sl : Slot) (w : Nat), i.wf = true → i.accepts sl = true → encode i = some w → i ≠ .cnop →
    (Bundle.solo sl i).check = none → decodeBundle (BitVec.ofNat 1024 (w <<< sl.base)) = .ok (Bundle.solo sl i)) ∧
  encode .cnop = some 0 ∧ (decodeBundle 0).toOption.map (·.ops) = some []

/-- 02_bundle R18, R32, R48: whatever the decoder accepts holds well-formed instructions alone, each in a slot that takes it,
each encoded by all the bits of its slot and by no others, and passes the checks across ops. -/
def Obligations.DecodedBundlesAreLegal : Prop :=
  ∀ (w : BitVec 1024) (bd : Bundle), decodeBundle w = .ok bd →
    bd.check = none ∧ (bd.ops.map (·.1)).Nodup ∧
    ∀ e ∈ bd.ops, e.2.wf = true ∧ e.2.accepts e.1 = true ∧ decodeSlot w e.1 = .ok (some e.2) ∧
      encode e.2 = some (w.toNat / 2 ^ e.1.base % 2 ^ slotWidth e.1)

/-- Words written out from the spec's encodings, and its worked examples, decode to the instructions they stand for
(02_bundle R33, 04_sequencing R83, 06_scalar, 07_sheet, 08_cube, 09_partitions, 10_memory, 11_copy, 12_sync). -/
def Obligations.WorkedWordsDecode : Prop :=
  ∀ e ∈ workedWords, decodeBundle (BitVec.ofNat 1024 (e.2.2 <<< e.1.base)) = .ok (Bundle.solo e.1 e.2.1)

/-- 02_bundle R24: a header with a pattern that R24 does not allow is an illegal encoding. -/
def Obligations.HeaderHasOneEncoding : Prop :=
  ∀ (w : BitVec 1024) (bd : Bundle), decodeBundle w = .ok bd →
    let valid (k : Nat) := w.getLsbD (8 + 16 * k)
    let target (k : Nat) : BitVec 16 := w.extractLsb' (72 + 16 * k) 16
    (∀ k < 4, valid k = false → w.getLsbD (9 + 16 * k) = false ∧ w.extractLsb' (10 + 16 * k) 12 = 0) ∧
    (target 0 ≠ 0 → valid 0 = true ∧ valid 1 = true) ∧ (target 1 ≠ 0 → valid 0 = true) ∧
    (target 2 ≠ 0 → valid 2 = true) ∧ (target 3 ≠ 0 → valid 3 = true)

/-! ## Issue -/

/-- 02_bundle R17, R48, 04_sequencing R75: where nothing is due, no happening stands before it, and the position of the one
seated context decodes to a bundle that holds one well-formed instruction, a step is `exec` of that instruction. -/
def Obligations.StepRunsDecodedInstruction : Prop :=
  ∀ (s : State) (b : Nat) (i : Instr) (sl : Slot),
    s.agenda = [] → s.dueEvent = none → s.seated s.core.running = some b → (List.range 4).filterMap s.seated = [b] →
    i.wf = true → i.slot = some sl → decodeBundle (s.bundleBits (s.ctx b).pc) = .ok (Bundle.solo sl i) →
    step s = exec i s

/-- 02_bundle R49, R51: every instruction of the slots and of CTL that executes completes: its bundle passes, its effect
reads the state before the bundle, its stream pops and pushes are counted, what holds for later bundles alone follows, and
the beat ends. -/
def Obligations.ExecutingInstructionCompletes : Prop :=
  ∀ (s : State) (b : Nat) (i : Instr), i.slot.isSome = true → (∀ p tc, i ≠ .trapc p tc) → s.Executes b i (semOf i) →
    exec i s = .next (s.after b ((semOf i).effect s b))

/-- 02_bundle R28: an instruction whose path mask does not take the selected leaf has no effect, waits for nothing and
raises nothing: its bundle passes. -/
def Obligations.UnexecutedInstructionHasNoEffect : Prop :=
  ∀ (s : State) (b : Nat) (i : Instr), s.Alone b → (s.ctx b).legal i = true → executes (semOf i).path .e = false →
    exec i s = .next (s.after b id)

/-- 04_sequencing R77, R79: while a register of an instruction is not ready, the context does not move: a beat passes and
stb0 counts it. -/
def Obligations.InterlockedInstructionWaits : Prop :=
  ∀ (s : State) (b : Nat) (i : Instr), s.Alone b → (s.ctx b).legal i = true → executes (semOf i).path .e = true →
    (semOf i).interlocked s b = true →
    ∃ t, exec i s = .next t ∧ t.core.beat = s.core.beat + 1 ∧ (t.ctx b).pc = (s.ctx b).pc ∧
      (t.ctx b).bcnt = (s.ctx b).bcnt ∧ (t.ctx b).stall 0 = (s.ctx b).stall 0 + 1 ∧
      (∀ k, k ≠ 0 → (t.ctx b).stall k = (s.ctx b).stall k) ∧ (s.ctx b).SameButStall (t.ctx b)

/-- 17_power R385: where the budget of the window does not admit it, no bundle issues: a stall beat is inserted and
counted, and stb5 counts it. -/
def Obligations.EnergyStallInsertsBeat : Prop :=
  ∀ (s : State) (b : Nat) (i : Instr), s.Sole b → (s.ctx b).legal i = true → executes (semOf i).path .e = true →
    (semOf i).interlocked s b = false → (semOf i).stall s b = none →
    s.windowSum ≠ 0 → s.pow.grant.toNat < s.windowSum →
    ∃ t, exec i s = .next t ∧ t.core.ins = s.core.ins + 1 ∧ t.core.beat = s.core.beat + 1 ∧ (t.ctx b).pc = (s.ctx b).pc ∧
      (t.ctx b).stall 5 = (s.ctx b).stall 5 + 1

/-- 16_system R370, 02_bundle R49: a privileged instruction in a context that is not privileged raises privileged
instruction, code 0x02, and has no effect. -/
def Obligations.PrivilegedInstructionTraps : Prop :=
  ∀ (s : State) (b : Nat) (i : Instr), s.Alone b → (s.ctx b).legal i = true → executes (semOf i).path .e = true →
    (semOf i).interlocked s b = false → (semOf i).stall s b = none →
    (semOf i).priv = true → (s.ctx b).priv = false → exec i s = .next (s.raised b i { code := 0x02 })

/-- 02_bundle R49: an instruction that meets a cause raises its first cause and has no effect. -/
def Obligations.CauseReplacesEffect : Prop :=
  ∀ (s : State) (b : Nat) (i : Instr) (e : Ev), s.Issues b i →
    (((semOf i).cause s b).orElse fun _ => (semOf i).check s b s) = some e → exec i s = .next (s.raised b i e)

/-- 04_sequencing R94, 16_system R369: TRAPC takes effect and then holds the context of a job, at the bundle after its own,
with code 0x07 and its TCODE as EINFO1 in a record that waits for the vent. That the steward, which is never held, restarts
instead at bundle 0, as after a fault of its own, is the model's choice (DESIGN CHOICE, log 42). -/
def Obligations.TrapcHoldsItsContext : Prop :=
  ∀ (s : State) (b : Nat) (p : Path) (tc : BitVec 16), s.Runs b (.trapc p tc) →
    let u := (s.begun b).endBeat []
    let t := u.takeException b { code := 0x07, info1 := tc.toNat } 10 (s.ctx b).pc (u.ctx b).pc
    (b ≠ 15 → exec (.trapc p tc) s = .next t ∧ (t.ctx b).held = 0x07 ∧ (t.ctx b).pc = ((s.ctx b).passed b).pc ∧
      ∃ r : VentE, t.sched.ventQ = s.sched.ventQ ++ [r] ∧ r.code = 0x07 ∧ r.info1 = tc.setWidth 64 ∧ r.held = true ∧
        r.epc = (s.ctx b).pc ∧ r.eres = ((s.ctx b).passed b).pc) ∧
    (b = 15 → exec (.trapc p tc) s = .next t ∧ (t.ctx 15).held = (s.ctx 15).held ∧ (t.ctx 15).pc = 0)

/-! ## Branch trees -/

/-- 02_bundle R21: a valid test of polarity 1 is true when its word is nonzero, one of polarity 0 when it is zero, an
invalid test is false, f4095 reads 1, f4094 reads 0, and writes to either are discarded. -/
def Obligations.TestsReadFlagWords : Prop :=
  (∀ (s : State) (t : Test), s.test t = true ↔
    t.valid = true ∧ ((t.pol = true ∧ (s.flag t.ix.toNat).val ≠ 0) ∨ (t.pol = false ∧ (s.flag t.ix.toNat).val = 0))) ∧
  (∀ s : State, (s.flag 4095).val = 1 ∧ (s.flag 4094).val = 0) ∧
  (∀ (s : State) (v : FlagW) (u : Nat), s.setFlag 4094 v = s ∧ s.setFlag 4095 v = s ∧
    ∀ n, ((s.landFlag u 4094 v).flag n) = s.flag n ∧ ((s.landFlag u 4095 v).flag n) = s.flag n)

/-- 02_bundle R23: the tree selects A, B, C, D or E, and the next bundle is the leaf's target or the one that follows. -/
def Obligations.TreeSelectsNextBundle : Prop :=
  ∀ (s : State) (b : Nat) (bd : Bundle) (l : List (Slot × OpSem)),
    s.hasCtx b = true → (s.ctx b).dly = 0 → (∀ o ∈ l, executes o.2.path (s.leaf bd) = false) →
    let t (k : Nat) : Bool := match bd.tests[k]? with
      | some x => s.test x
      | none => false
    let tgt (k : Nat) : BundleNo := bd.targets.getD k 0
    ((Issuing.effect ⟨bd, l⟩ s s b).ctx b).pc =
      if t 0 = true ∧ t 1 = true then tgt 0 else if t 0 = true then tgt 1 else if t 2 = true then tgt 2
      else if t 3 = true then tgt 3 else (s.ctx b).pc + 1

/-! ## Scalars -/

/-- 06_scalar R126, R127: an integer op of two scalars completes; its result is on its way to `d`, to land its latency
after the beat of issue, marked if a source is. -/
def Obligations.IntegerOpsOfTwoScalars : Prop :=
  ∀ (s : State) (b : Nat) (p : Path) (d x y : XReg),
    ∀ e ∈ intRows p d x y ((s.ctx b).xw x) ((s.ctx b).xw y), s.Runs b e.1 →
      exec e.1 s = .next (s.after b fun t => t.landX b d e.2.1 ((s.ctx b).xm x || (s.ctx b).xm y) e.2.2)

/-- 06_scalar R126, R128, R129, R131: the integer ops of one scalar. -/
def Obligations.IntegerOpsOfOneScalar : Prop :=
  ∀ (s : State) (b : Nat) (p : Path) (d x : XReg) (e : BitVec 33) (n : BitVec 6) (h : BitVec 32),
    ∀ r ∈ intRows1 p d x e n h ((s.ctx b).xw x), s.Runs b r.1 →
      exec r.1 s = .next (s.after b fun t => t.landX b d r.2 ((s.ctx b).xm x) 1)

/-- 06_scalar R130: MADD sets xd to xa.i × xb.i + xc, wrapped, with latency 3; in its word (whose PATH is not 0, 02_bundle R27)
IMM[5:0] names xc, IMM[32:6] must be 0, and xc is a source register. -/
def Obligations.MaddMultipliesAndAdds : Prop :=
  (∀ (s : State) (b : Nat) (p : Path) (d x y z : XReg), s.Runs b (.madd p d x y z) →
    let c := s.ctx b
    exec (.madd p d x y z) s = .next (s.after b fun t =>
      t.landX b d (BitVec.ofInt 64 ((c.xw x).toInt * (c.xw y).toInt + (c.xw z).toInt)) (c.xm x || c.xm y || c.xm z) 3)) ∧
  (∀ w : BitVec 64, w.extractLsb' 56 8 = 0x07 → w.extractLsb' 51 5 ≠ 0 → decodeSlot (w.setWidth 1024 <<< 192) .s0 =
    if w.extractLsb' 6 27 = 0 then
      .ok (some (.madd (w.extractLsb' 51 5) (w.extractLsb' 45 6) (w.extractLsb' 39 6) (w.extractLsb' 33 6) (w.extractLsb' 0 6)))
    else .error .illegalOperands) ∧
  (∀ (s : State) (b : Nat) (p : Path) (d x y z : XReg), (.x z.toNat) ∈ (semOf (.madd p d x y z)).reads s b)

/-- 05_numbers R116: division by zero gives all ones, and the remainder is then the dividend; the signed minimum divided by
−1 gives itself, with remainder 0. -/
def Obligations.DivisionCorners : Prop :=
  ∀ (s : State) (b : Nat) (p : Path) (d x y : XReg),
    let c := s.ctx b
    let out (v : Word) : Host.Outcome State Fault Refusal := .next (s.after b fun t => t.landX b d v (c.xm x || c.xm y) 20)
    (c.xw y = 0 →
      (s.Runs b (.div p d x y) → exec (.div p d x y) s = out (BitVec.allOnes 64)) ∧
      (s.Runs b (.divu p d x y) → exec (.divu p d x y) s = out (BitVec.allOnes 64)) ∧
      (s.Runs b (.rem p d x y) → exec (.rem p d x y) s = out (c.xw x)) ∧
      (s.Runs b (.remu p d x y) → exec (.remu p d x y) s = out (c.xw x))) ∧
    (c.xw x = 0x8000000000000000 → c.xw y = BitVec.allOnes 64 →
      (s.Runs b (.div p d x y) → exec (.div p d x y) s = out 0x8000000000000000) ∧
      (s.Runs b (.rem p d x y) → exec (.rem p d x y) s = out 0))

/-- 06_scalar R131: CLZ and CTZ give the number of zero bits above the highest set bit, and below the lowest, 64 for 0;
BREV moves bit k to bit 63 − k. -/
def Obligations.BitCountsAndReversal : Prop :=
  ∀ (s : State) (b : Nat) (p : Path) (d x : XReg),
    let c := s.ctx b
    let a := c.xw x
    let out (v : Word) : Host.Outcome State Fault Refusal := .next (s.after b fun t => t.landX b d v (c.xm x) 1)
    (s.Runs b (.clz p d x) → ∃ n ≤ 64, exec (.clz p d x) s = out (BitVec.ofNat 64 n) ∧
      (∀ k < n, a.getLsbD (63 - k) = false) ∧ (n < 64 → a.getLsbD (63 - n) = true)) ∧
    (s.Runs b (.ctz p d x) → ∃ n ≤ 64, exec (.ctz p d x) s = out (BitVec.ofNat 64 n) ∧
      (∀ k < n, a.getLsbD k = false) ∧ (n < 64 → a.getLsbD n = true)) ∧
    (s.Runs b (.brev p d x) → ∃ v : Word, exec (.brev p d x) s = out v ∧ ∀ k < 64, v.getLsbD (63 - k) = a.getLsbD k)

/-- 06_scalar R129, R132, R133: MOVI, the bit fields and SEL. -/
def Obligations.MovesFieldsAndSelects : Prop :=
  ∀ (s : State) (b : Nat) (p : Path) (d x y : XReg) (e : BitVec 33) (len : BitVec 7) (pos : BitVec 6) (f : FlagIx),
    let c := s.ctx b
    let out (v : Word) (m : Bool) : Host.Outcome State Fault Refusal := .next (s.after b fun t => t.landX b d v m 1)
    (s.Runs b (.movi p d e) → exec (.movi p d e) s = out (BitVec.ofInt 64 e.toInt) false) ∧
    (s.Runs b (.bext p d x false len pos) → ∃ v : Word, exec (.bext p d x false len pos) s = out v (c.xm x) ∧
      ∀ k < 64, v.getLsbD k = (decide (k < len.toNat) && (c.xw x).getLsbD (pos.toNat + k))) ∧
    (s.Runs b (.bext p d x true len pos) → ∃ v : Word, exec (.bext p d x true len pos) s = out v (c.xm x) ∧
      ∀ k < 64, v.getLsbD k = (c.xw x).getLsbD (pos.toNat + min k (len.toNat - 1))) ∧
    (s.Runs b (.bins p d x y len pos) → ∃ v : Word, exec (.bins p d x y len pos) s = out v (c.xm x || c.xm y) ∧
      ∀ k < 64, v.getLsbD k = if pos.toNat ≤ k ∧ k < pos.toNat + len.toNat then (c.xw x).getLsbD (k - pos.toNat)
        else (c.xw y).getLsbD k) ∧
    (s.Runs b (.sel p d f x y) → exec (.sel p d f x y) s =
      if (s.flag f.toNat).val ≠ 0 then out (c.xw x) (c.xm x || (s.flag f.toNat).mark)
      else out (c.xw y) (c.xm y || (s.flag f.toNat).mark))

/-- 06_scalar R134, R135, R139: a compare completes; 1 or 0, with the marks of its sources, is on its way to its flag. -/
def Obligations.ComparesWriteTheirFlag : Prop :=
  ∀ (s : State) (b : Nat) (p : Path) (cond : BitVec 4) (f : FlagIx) (x y : XReg) (e : BitVec 17),
    let c := s.ctx b
    (s.Runs b (.cmp p cond f x y) → exec (.cmp p cond f x y) s = .next (s.after b fun t =>
      t.landFlagAt b 1 f.toNat ((condRows (c.xw x) (c.xw y)).getD cond.toNat false) (c.xm x || c.xm y) 0)) ∧
    (s.Runs b (.cmpi p cond f x e) → exec (.cmpi p cond f x e) s = .next (s.after b fun t =>
      t.landFlagAt b 1 f.toNat ((condRows (c.xw x) (e.signExtend 64)).getD cond.toNat false) (c.xm x) 0)) ∧
    (s.Runs b (.fcmps p cond f x y) → exec (.fcmps p cond f x y) s = .next (s.after b fun t =>
      t.landFlagAt b 4 f.toNat (condFp cond (c.fp x) (c.fp y)) (c.xm x || c.xm y) (cmpFx (c.fp x) (c.fp y))))

/-- 06_scalar R135: a compare that names f0 in a context that is not privileged raises protection, code 0x10. -/
def Obligations.CompareToF0NeedsPrivilege : Prop :=
  ∀ (s : State) (b : Nat) (p : Path) (cond : BitVec 4) (x y : XReg) (e : BitVec 17), (s.ctx b).priv = false →
    ∀ i ∈ [Instr.cmp p cond 0 x y, .cmpi p cond 0 x e, .fcmps p cond 0 x y], s.Issues b i →
      exec i s = .next (s.raised b i { code := 0x10, info1 := 0x1C000000, info2 := (s.ctx b).asid.toNat })

/-- 06_scalar R136: LIX and LCNT read the index and the remaining count of the loop `k` below the innermost; below the
stack they raise loop stack underflow, code 0x05. -/
def Obligations.LoopStateReads : Prop :=
  ∀ (s : State) (b : Nat) (p : Path) (d : XReg) (k : BitVec 3),
    let l := (s.ctx b).loops
    (∀ e, l[l.length - 1 - k.toNat]? = some e → k.toNat < l.length →
      (s.Runs b (.lix p d k) → exec (.lix p d k) s = .next (s.after b fun t => t.landX b d (e.idx.setWidth 64) false 1)) ∧
      (s.Runs b (.lcnt p d k) → exec (.lcnt p d k) s = .next (s.after b fun t => t.landX b d (e.rem.setWidth 64) false 1))) ∧
    (l.length ≤ k.toNat → ∀ i ∈ [Instr.lix p d k, .lcnt p d k], s.Issues b i →
      exec i s = .next (s.raised b i { code := 0x05, info1 := l.length }))

/-- 06_scalar R137, R138: the scalar FP ops complete; value and flags land together, the value in the low half. -/
def Obligations.ScalarFloatResults : Prop :=
  ∀ (s : State) (b : Nat) (p : Path) (d x y z : XReg) (r : Rnd),
    let c := s.ctx b
    ∀ e ∈ fpRows p d x y z r (effMode r c.fpm false) (c.fp x) (c.fp y) (c.fp z), s.Runs b e.1 →
      exec e.1 s = .next (s.after b fun t => t.landAt b (t.core.beat + e.2.1) (.x d.toNat)
        (.x ⟨BitVec.ofNat 64 e.2.2.1, e.2.2.2.2.any fun n => c.xm n⟩) e.2.2.2.1 true)

/-- 06_scalar R140, R141: the conversions complete; under SR they draw once. -/
def Obligations.ScalarConversions : Prop :=
  ∀ (s : State) (b : Nat) (p : Path) (d x : XReg) (ity : BitVec 4) (sat : Bool) (r : Rnd),
    let c := s.ctx b
    let m := effMode r c.fpm true
    let bits := srBits c.srs c.src 32768 0
    let v : Int := if ity = 0 then ((c.xw x).setWidth 32).toInt else if ity = 1 then (((c.xw x).setWidth 32).toNat : Int)
      else if ity = 2 then (c.xw x).toInt else ((c.xw x).toNat : Int)
    (s.Runs b (.fcvtis p d x ity r) → exec (.fcvtis p d x ity r) s =
      let q := fF32.round (XR.ofInt v 0 false) m false bits
      .next (s.after b fun t => (t.drew b (m == .sr)).landAt b (t.core.beat + 4) (.x d.toNat)
        (.x ⟨BitVec.ofNat 64 q.1, c.xm x⟩) q.2 true)) ∧
    (s.Runs b (.fcvtsi p d x ity sat r) → exec (.fcvtsi p d x ity sat r) s =
      let q := toInt (c.fp x) (decide (ity = 0 ∨ ity = 2)) (if ity = 0 ∨ ity = 1 then 32 else 64) m sat bits
      .next (s.after b fun t => (t.drew b (m == .sr)).landAt b (t.core.beat + 4) (.x d.toNat)
        (.x ⟨if ity = 0 then BitVec.ofInt 64 (BitVec.ofNat 32 q.1).toInt else BitVec.ofNat 64 q.1, c.xm x⟩) q.2 true))

/-! ## Handles and control registers -/

/-- 10_memory R234: XLT, XLTW and XLTW.G. One whose page the TLB holds, and that no flip holds back, lands its handle 8 beats
after issue; any other locks the handle and starts a walk. XLTW.G first drops the page's translation in its own ASID. That an
address outside the virtual space lands 8 beats after issue too, and that a recall holds a translation back, are read by
inference (DEDUCED, log 70). -/
def Obligations.TranslationsCompleteOrWalk : Prop :=
  ∀ (s : State) (b : Nat) (p : Path) (h : HReg) (x y : XReg),
    let c := s.ctx b
    ∀ e ∈ [(Instr.xlt p h x, false, false, c.asid), (.xltw p h x, true, false, c.asid),
        (.xltwG p h x y, true, true, (c.xw y).setWidth 13)],
      let s0 := s.xltStart e.2.2.1 e.2.2.2 (c.xw x)
      s.Runs b e.1 →
        (∀ v, s0.quickXlt e.2.2.2 (c.xw x) e.2.1 = some v → exec e.1 s = .next (s.after b fun t =>
          (t.xltStart e.2.2.1 e.2.2.2 (c.xw x)).landAt b (s.core.beat + 8) (.h h.toNat) (.h v) 0 false)) ∧
        (s0.quickXlt e.2.2.2 (c.xw x) e.2.1 = none → ∃ t, exec e.1 s = .next t ∧
          t.ms.walks = s0.ms.walks ++ [⟨b, c.uid, e.2.2.2, (c.xw x).setWidth 57, .xlt s.ids h.toNat e.2.1⟩] ∧
          (t.ctx b).locks = c.locks ++ [⟨.h h.toNat, s.ids⟩])

/-- 10_memory R233, R234: what an XLT lands at once: the fields of the leaf that the TLB holds, be its page the host's for an
XLT without W, and an absent handle for an address of 2^57 or more, which needs no walk (DEDUCED, log 70). An XLTW of a page
of the host's waits for its flip, and a translation in recall for the recall's end (log 70). -/
def Obligations.QuickTranslationGivesLeafFields : Prop :=
  ∀ (s : State) (asid : BitVec 13) (a : Word) (xw : Bool),
    (2 ^ 57 ≤ a.toNat → ∃ h, s.quickXlt asid a xw = some h ∧ h.hst = .absent ∧ h.vbase = a.setWidth 57) ∧
    (a.toNat < 2 ^ 57 → ∀ t, s.tlbHit asid a.toNat = some t →
      ((xw = true ∧ t.pte.getLsbD 2 = true) ∨ s.recalling (pteLease t.pte.toNat) = true → s.quickXlt asid a xw = none) ∧
      ((xw = false ∨ t.pte.getLsbD 2 = false) → s.recalling (pteLease t.pte.toNat) = false → ∃ h, s.quickXlt asid a xw = some h ∧ h.hst = .valid ∧ h.vbase.toNat = a.toNat ∧ h.xw = xw ∧
        h.lease = t.pte.extractLsb' 58 6 ∧ h.frame = t.pte.extractLsb' 21 37 ∧ h.attr = t.pte.extractLsb' 0 10))

/-- 10_memory R235: HINV empties one handle or all, HRD reads a handle's fields, HCHK writes whether it is valid and, with
`w`, writable. -/
def Obligations.HandleOpsComplete : Prop :=
  ∀ (s : State) (b : Nat) (p : Path) (d : XReg) (h : HReg) (f : FlagIx) (w : Bool),
    let c := s.ctx b
    let v := c.hv h.toNat
    (s.Runs b (.hinv p false h) → exec (.hinv p false h) s = .next (s.after b fun t =>
      t.landAt b (s.core.beat + 1) (.h h.toNat) (.h Handle.zero) 0 false)) ∧
    (s.Runs b (.hinv p true h) → exec (.hinv p true h) s = .next (s.after b fun t =>
      (List.range 32).foldl (fun t k => t.landAt b (s.core.beat + 1) (.h k) (.h Handle.zero) 0 false) t)) ∧
    (s.Runs b (.hrd p d h false) → ∃ r : Word, exec (.hrd p d h false) s = .next (s.after b fun t => t.landX b d r false 2) ∧
      r.extractLsb' 58 6 = v.lease ∧ r.extractLsb' 21 37 = v.frame ∧ r.getLsbD 14 = v.acause ∧
      (r.extractLsb' 12 2).toNat = v.hst.num ∧ r.extractLsb' 1 9 = v.attr.extractLsb' 1 9 ∧
      (v.hst = .valid → r.getLsbD 0 = v.attr.getLsbD 0)) ∧
    (s.Runs b (.hrd p d h true) → ∃ r : Word, exec (.hrd p d h true) s = .next (s.after b fun t => t.landX b d r false 2) ∧
      r.extractLsb' 0 57 = v.vbase ∧ r.getLsbD 57 = v.xw) ∧
    (s.Runs b (.hchk p f h w) → exec (.hchk p f h w) s = .next (s.after b fun t =>
      t.landFlagAt b 1 f.toNat (decide (v.hst = .valid ∧ (w = true → v.attr.getLsbD 1 = true))) false 0))

/-- 06_scalar R142 to R151, 04_sequencing R74, R84: CRD completes with the register's value, unmarked, two beats after issue; the
fields of every control register, those of the privileged block among them. That the ASID in cid is the context's present one,
which basid may have changed, is read by inference (DEDUCED, log 69). -/
def Obligations.ControlRegisterReads : Prop :=
  (∀ (s : State) (b : Nat) (p : Path) (d : XReg) (n : BitVec 12), s.Runs b (.crd p d n) →
    exec (.crd p d n) s = .next (s.after b fun t => t.landX b d (s.creg b n.toNat) false 2)) ∧
  (∀ (s : State) (b : Nat), b < 16 → (s.ctx b).dly ≤ 3 → (s.ctx b).loops.length ≤ 6 →
    let c := s.ctx b
    (s.creg b 0x000).extractLsb' 32 32 = c.card.extractLsb' 0 32 ∧ (s.creg b 0x000).extractLsb' 29 3 = c.prio ∧
    (s.creg b 0x000).extractLsb' 23 6 = c.queue ∧ (s.creg b 0x000).extractLsb' 0 13 = c.asid ∧
    (s.creg b 0x000).extractLsb' 13 10 = s.plat.pkg ∧
    (s.creg b 0x001).extractLsb' 48 16 = c.pc ∧ (s.creg b 0x001).extractLsb' 32 16 = c.dtgt ∧
    ((s.creg b 0x001).extractLsb' 30 2).toNat = c.dly ∧ ((s.creg b 0x001).extractLsb' 27 3).toNat = c.loops.length ∧
    (s.creg b 0x001).getLsbD 26 = c.priv ∧ ((s.creg b 0x001).extractLsb' 22 4).toNat = b ∧
    (∀ k, s.seatOf b = some k → ((s.creg b 0x001).extractLsb' 20 2).toNat = k) ∧ (s.creg b 0x001).extractLsb' 0 20 = 0 ∧
    s.creg b 0x002 = c.fpx.setWidth 64 ∧ s.creg b 0x003 = c.fpm.setWidth 64 ∧
    (s.creg b 0x004).extractLsb' 0 32 = c.srs ∧ (s.creg b 0x004).extractLsb' 32 32 = c.src ∧
    (s.creg b 0x005).extractLsb' 0 4 = c.vrb ∧ (s.creg b 0x005).extractLsb' 8 3 = c.mrb ∧
    s.creg b 0x010 = s.pow.grant.setWidth 64 ∧ (∀ k < 8, s.creg b (0x020 + k) = c.stall k) ∧ s.creg b 0x030 = c.bcnt ∧
    (s.creg b 0x080).extractLsb' 32 32 = c.ncnt ∧ (s.creg b 0x080).extractLsb' 0 8 = c.last ∧
    UserRegisterFields s b ∧ PrivilegedRegisterFields s b ∧ ∀ p < 16, PstFields s b p)

/-- 06_scalar R142, R143, 05_numbers R109: CWR completes; the register takes the writable fields of xa, but that fpm stores 0 for
a mode of 5 to 7, and a read-only register ignores the write. -/
def Obligations.ControlRegisterWrites : Prop :=
  ∀ (s : State) (b : Nat) (p : Path) (n : BitVec 12) (x : XReg), s.Runs b (.cwr p n x) →
    let v := (s.ctx b).xw x
    let out (f : State → State) : Host.Outcome State Fault Refusal := .next (s.after b f)
    (n = 0x004 → exec (.cwr p n x) s = out fun t => t.modCtx b fun c =>
      { c with srs := v.extractLsb' 0 32, src := v.extractLsb' 32 32 }) ∧
    (n = 0x005 → exec (.cwr p n x) s = out fun t => t.modCtx b fun c =>
      { c with vrb := v.extractLsb' 0 4, mrb := v.extractLsb' 8 3 }) ∧
    (n = 0x003 → exec (.cwr p n x) s = out fun t => t.modCtx b fun c =>
      { c with fpm := if (v.extractLsb' 0 3).toNat < 5 then v.extractLsb' 0 3 else 0 }) ∧
    (∀ k < 8, n.toNat = 0x020 + k → exec (.cwr p n x) s = out fun t => t.modCtx b fun c => c.setStall k v) ∧
    (n = 0x030 → exec (.cwr p n x) s = out fun t => t.modCtx b fun c => { c with bcnt := v }) ∧
    (n = 0x100 → exec (.cwr p n x) s = out fun t => { t with core := { t.core with bsel := v.extractLsb' 0 4 } }) ∧
    (n = 0x101 → exec (.cwr p n x) s = out fun t => t.modCtx s.core.bsel.toNat fun c => { c with rmask := v }) ∧
    (n = 0x110 → exec (.cwr p n x) s = out fun t => { t with core := { t.core with asel := v.extractLsb' 0 13 } }) ∧
    (n = 0x111 → exec (.cwr p n x) s = out fun t =>
      { t with ms := { t.ms with ptb := tput t.ms.ptb s.core.asel.toNat v 0 } }) ∧
    (n = 0x160 → exec (.cwr p n x) s = out fun t => { t with core := { t.core with lsel := v.extractLsb' 0 7 } }) ∧
    (n = 0x180 → exec (.cwr p n x) s = out fun t => { t with plat := { t.plat with isrc := v.extractLsb' 7 41 } }) ∧
    (n.toNat ∈ readOnlyRegs → exec (.cwr p n x) s = out id)

/-- 05_numbers R108, 16_system R365, 11_copy R257, 17_power R386, 18_platform R405, 13_jobs R297: the writes of fpx, basid,
ltb, egrant, isld and qmap complete with their effects. -/
def Obligations.SpecialRegisterWrites : Prop :=
  ∀ (s : State) (b : Nat) (p : Path) (x : XReg) (n : BitVec 6),
    let v := (s.ctx b).xw x
    let k := s.core.bsel.toNat
    (s.Runs b (.fpxWrite p x) → exec (.fpxWrite p x) s = .next (s.after b fun t =>
      t.modCtx b fun c => { c with fpx := v.extractLsb' 0 5 })) ∧
    (s.Runs b (.basidWrite p x) → s.hasCtx k = true → ∃ t, exec (.basidWrite p x) s = .next t ∧
      (t.ctx k).asid = v.extractLsb' 0 13 ∧ ∀ h, ((t.ctx k).hv h).hst ≠ .valid) ∧
    (s.Runs b (.ltbWrite p x) → ∃ t, exec (.ltbWrite p x) s = .next t ∧
      (∀ a, tget t.ms.ltb a 0 = if a = s.core.asel.toNat then v &&& 0xFFFFFFFFFFFFFFC1 else tget s.ms.ltb a 0) ∧
      ∀ e, e ∈ t.ms.laycache ↔ e ∈ s.ms.laycache ∧ e.asid ≠ s.core.asel) ∧
    (s.Runs b (.egrantWrite p x) → exec (.egrantWrite p x) s = .next (s.after b fun t =>
      { t with pow := { t.pow with grant := v.extractLsb' 0 10, ccap := v.extractLsb' 16 12 } })) ∧
    (s.Runs b (.isldWrite p x) → ∃ t, exec (.isldWrite p x) s = .next t ∧ t.plat.isBusy = true ∧ t.plat.isDone = 0 ∧
      ∃ l, t.plat.load = some l ∧ l.src = s.plat.isrc.toNat * 128 ∧ l.first = (v.extractLsb' 48 16).toNat ∧
        l.count = (v.extractLsb' 32 16).toNat + 1 ∧ l.lflag = (v.extractLsb' 0 12).toNat ∧ l.uid = (s.ctx b).uid) ∧
    (s.Runs b (.qmapWrite p n x) → ∃ t, exec (.qmapWrite p n x) s = .next t ∧ t.creg b (0x120 + n.toNat) = v ∧
      ∀ m < 64, m ≠ n.toNat → t.creg b (0x120 + m) = s.creg b (0x120 + m))

/-- 06_scalar R142: a CWR whose xa is poisoned raises poison consumption, code 0x20, and writes nothing. -/
def Obligations.PoisonedControlWriteTraps : Prop :=
  ∀ (s : State) (b : Nat) (p : Path) (n : BitVec 12) (m : BitVec 6) (x : XReg), (s.ctx b).xm x = true →
    ∀ e ∈ [(Instr.cwr p n x, n.toNat), (.fpxWrite p x, 0x002), (.basidWrite p x, 0x102), (.ltbWrite p x, 0x112),
        (.qmapWrite p m x, 0x120 + m.toNat), (.isldWrite p x, 0x181), (.egrantWrite p x, 0x190)],
      s.Issues b e.1 → exec e.1 s = .next (s.raised b e.1 { code := 0x20, info1 := 4, info2 := e.2 })

/-! ## Control flow -/

/-- 04_sequencing R82, R86: LOOP and LOOPX push an entry that starts at the next bundle, or, for a count of 0, continue at the
loop's exit, but redirect nothing from a delay bundle; a count of 2^23 or more, or a seventh entry, raises loop stack
overflow, code 0x04. -/
def Obligations.LoopPushesOrSkips : Prop :=
  ∀ (s : State) (b : Nat) (p : Path) (exit : BundleNo) (rot : Bool) (n : BitVec 23) (x : XReg),
    let c := s.ctx b
    ∀ e ∈ [(Instr.loop p exit rot n, n.toNat), (.loopx p exit rot x, (c.xw x).toNat)],
      (s.Runs b e.1 → e.2 ≠ 0 → exec e.1 s = .next (s.after b fun t => t.modCtx b fun c' =>
        { c' with pc := if c.dly = 0 then c.pc + 1 else c'.pc, loops := c'.loops ++ [⟨rot, c.pc + 1, 0, BitVec.ofNat 23 e.2⟩] })) ∧
      (s.Runs b e.1 → e.2 = 0 → exec e.1 s = .next (s.after b fun t => t.modCtx b fun c' =>
        { c' with pc := if c.dly = 0 then exit else c'.pc })) ∧
      (s.Issues b e.1 → c.xm x = false → (8388607 < e.2 ∨ (e.2 ≠ 0 ∧ c.loops.length = 6)) →
        exec e.1 s = .next (s.raised b e.1 { code := 0x04, info1 := c.loops.length }))

/-- 04_sequencing R75, R87, R95: LEND continues the innermost loop at its start with the next index, or pops it after its last
iteration; a rotating loop's bases fall by one, `MRB` with `VRB` (DEDUCED, log 91); it is a pre-emption point, and gives up
the issue width at the 4,096th beat of a run, its own beat counted (DESIGN CHOICE, log 41). -/
def Obligations.LendContinuesOrPops : Prop :=
  ∀ (s : State) (b : Nat) (l : List LoopE) (e : LoopE), (s.ctx b).loops = l ++ [e] → s.Runs b .lend →
    let r : BitVec 4 := if e.rot then 1 else 0
    exec .lend s = .next (s.after b fun t =>
      let u := t.modCtx b fun c =>
        let c1 := { c with vrb := c.vrb - r, mrb := c.mrb - r.setWidth 3, since := 0, atPoint := true }
        if e.rem = 1 then { c1 with loops := l, pc := (s.ctx b).pc + 1 }
        else { c1 with loops := l ++ [{ e with rem := e.rem - 1, idx := e.idx + 1 }], pc := e.start }
      if 4095 ≤ s.core.runCtr then { u with core := { u.core with yielded := true } } else u)

/-- 04_sequencing R88: LBRK pops DEPTH entries and continues at TGT, raises loop stack underflow, code 0x05, where the stack
holds fewer, does not rotate, and is not a pre-emption point. -/
def Obligations.LbrkPopsAndContinues : Prop :=
  ∀ (s : State) (b : Nat) (tgt : BundleNo) (depth : BitVec 3),
    let c := s.ctx b
    (depth.toNat ≤ c.loops.length → s.Runs b (.lbrk tgt depth) → ∃ t, exec (.lbrk tgt depth) s = .next t ∧
      (t.ctx b).loops = c.loops.take (c.loops.length - depth.toNat) ∧ (t.ctx b).pc = tgt ∧
      (t.ctx b).vrb = c.vrb ∧ (t.ctx b).mrb = c.mrb ∧ (t.ctx b).atPoint = false) ∧
    (c.loops.length < depth.toNat → s.Issues b (.lbrk tgt depth) →
      exec (.lbrk tgt depth) s = .next (s.raised b (.lbrk tgt depth) { code := 0x05, info1 := c.loops.length }))

/-- 04_sequencing R81, R90: CALL, CALLX, RET and JMPX continue at their target after three delay bundles; CALL and CALLX land
the number of the bundle after those in x63. -/
def Obligations.TransfersHaveThreeDelayBundles : Prop :=
  ∀ (s : State) (b : Nat) (tgt : BundleNo) (x : XReg),
    let c := s.ctx b
    let to16 (v : Word) : BundleNo := v.extractLsb' 0 16
    (∀ e ∈ [(Instr.call tgt, tgt), (.callx x, to16 (c.xw x))], s.Runs b e.1 →
      exec e.1 s = .next (s.after b fun t =>
        (t.modCtx b fun c' => { c' with pc := c.pc + 1, dly := 3, dtgt := e.2 }).landX b 63 ((c.pc + 4).setWidth 64) false 1)) ∧
    (∀ e ∈ [(Instr.ret, to16 (c.xw 63)), (.jmpx x, to16 (c.xw x))], s.Runs b e.1 →
      exec e.1 s = .next (s.after b fun t => t.modCtx b fun c' => { c' with pc := c.pc + 1, dly := 3, dtgt := e.2 }))

/-- 04_sequencing R90, R91, R87, R86: a transfer, an END or a LOOPX whose scalar is poisoned raises poison consumption, code
0x20, and LEND of an empty stack raises loop stack underflow, code 0x05. -/
def Obligations.ControlFlowFaults : Prop :=
  ∀ (s : State) (b : Nat) (p : Path) (exit : BundleNo) (rot : Bool) (x : XReg) (f : FlagIx),
    let c := s.ctx b
    (c.xm x = true → ∀ i ∈ [Instr.callx x, .jmpx x, .loopx p exit rot x], s.Issues b i →
      exec i s = .next (s.raised b i { code := 0x20, info1 := 1, info2 := x.toNat })) ∧
    (c.xm 63 = true → s.Issues b .ret → exec .ret s = .next (s.raised b .ret { code := 0x20, info1 := 1, info2 := 63 })) ∧
    (c.xm x = true → f ≠ 0 → s.Issues b (.ctlEnd f x) →
      exec (.ctlEnd f x) s = .next (s.raised b (.ctlEnd f x) { code := 0x20, info1 := 3, info2 := x.toNat + f.toNat * 2 ^ 16 })) ∧
    (c.loops = [] → s.Issues b .lend → exec .lend s = .next (s.raised b .lend { code := 0x05 }))

/-- 04_sequencing R91, R92, R93, R89: END ends its context, with its result on its way to its flag; YIELD gives up the issue
width; RROT moves or sets the rotation bases; CLUS wakes and gates clusters; CNOP does nothing. -/
def Obligations.ContextControlOps : Prop :=
  ∀ (s : State) (b : Nat) (p : Path) (f : FlagIx) (x : XReg) (set : Bool) (va : BitVec 4) (ma : BitVec 3) (cm : BitVec 4),
    let c := s.ctx b
    let v : BitVec 32 := if x = 0 then 1 else (c.xw x).extractLsb' 0 32
    (s.Runs b (.ctlEnd 0 x) → ∃ t, exec (.ctlEnd 0 x) s = .next t ∧ (t.ctx b).ended = some (.byEnd 0) ∧ t.ms.rels = s.ms.rels) ∧
    (f ≠ 0 → s.Runs b (.ctlEnd f x) → ∃ t r, exec (.ctlEnd f x) s = .next t ∧ (t.ctx b).ended = some (.byEnd v) ∧
      t.ms.rels = s.ms.rels ++ [r] ∧ r.ix = f.toNat ∧ r.upd = .set ⟨v, false⟩ ∧ r.scp = .pkg ∧ r.uid = c.uid) ∧
    (s.Runs b (.yield p) → exec (.yield p) s = .next (s.after b fun t =>
      let t1 := t.modCtx b fun c => { c with since := 0, atPoint := true }
      { t1 with core := { t1.core with yielded := true } })) ∧
    (s.Runs b (.rrot p set va ma) → exec (.rrot p set va ma) s = .next (s.after b fun t => t.modCtx b fun c =>
      if set then { c with vrb := va, mrb := ma } else { c with vrb := c.vrb + va, mrb := c.mrb + ma })) ∧
    (s.Runs b (.clus p cm) → ∃ t, exec (.clus p cm) s = .next t ∧ ∀ k < 4,
      (t.ctx b).clus k = if cm.getLsbD k then (if c.clus k = .gated then .waking (s.core.beat + 24) else c.clus k) else .gated) ∧
    (s.Runs b .cnop → exec .cnop s = .next (s.after b id))

/-! ## Bundles -/

/-- 02_bundle R23, R49, R51, 04_sequencing R75: a beat of the one seated context. A legal bundle none of whose executing ops
waits or meets a cause takes effect: its ops act in slot order, each reading the state before the bundle, and the tree's
leaf gives the next bundle. A cause of an op replaces every effect: the first in slot order is raised. Bytes that are no
legal bundle raise illegal encoding, code 0x01, and a valid test of a marked word raises poison consumption, code 0x20. -/
def Obligations.BundleEffectsInSlotOrder : Prop :=
  ∀ (s : State) (b : Nat), s.Sole b →
    let c := s.ctx b
    let w := s.bundleBits c.pc
    (∀ bd, decodeBundle w = .ok bd → s.energyOk bd.ew.toNat = true →
      (c.dly = 0 ∨ (bd.hasTransfer = false ∧ bd.tests.any (·.valid) = false)) →
      let live := bd.ops.filter fun o => executes (semOf o.2).path (s.leaf bd)
      let ops := live.map fun o => (o.1, semOf o.2)
      let issued := (s.noteIssue bd.ew.toNat).endBeat []
      (∀ o ∈ live, (semOf o.2).interlocked s b = false ∧ (semOf o.2).stall s b = none) →
      (∀ o ∈ live, (semOf o.2).priv = true → c.priv = true) →
      (s.markedTest bd = none → firstOp s b s ops = none → (∀ o ∈ live, ∀ p tc, o.2 ≠ .trapc p tc) →
        exec .bundleIssue s =
          let t := (s.noteIssue bd.ew.toNat).modCtx b fun c => (c.count b).advance bd (s.leaf bd)
          let t := ops.foldl (fun t o => o.2.act s b t) t
          let t := (ops.flatMap fun o => o.2.pops).dedup.foldl (fun t k => t.modCtx b (·.popStream k)) t
          let t := (ops.flatMap fun o => o.2.pushes).foldl (fun t k => t.modCtx b (·.notePush k)) t
          let t := ops.foldl (fun t o => o.2.late s b t) t
          .next (t.closed b c.pc)) ∧
      (∀ e n, s.markedTest bd = none → firstOp s b s ops = some (e, n) →
        exec .bundleIssue s = .next ((issued.usedRefusal b e).takeException b e n c.pc c.pc)) ∧
      (∀ n, s.markedTest bd = some n →
        exec .bundleIssue s = .next (issued.takeException b { code := 0x20, info1 := 0, info2 := n } 11 c.pc c.pc))) ∧
    (∀ e, decodeBundle w = .error e → s.energyOk (w.extractLsb' 0 4).toNat = true →
      exec .bundleIssue s =
        .next (((s.noteIssue (w.extractLsb' 0 4).toNat).endBeat []).takeException b { code := 0x01 } 15 c.pc c.pc))

/-! ## Sheets -/

/-- 07_sheet R165, R171, R172, R180: VAND, VOR, VXOR and VNOT act on the 32 bits of each lane and never set a flag. MLOG
sets a bit of its mask to bit 2p + q of its table: R171 defines it so and lists a table that this order does not give
(DEDUCED, log 90). MPOPC counts the bits of a row of ma, or those at the columns below.
VPERM takes the lane of its row at the column that the index lane's bits 8:0 name. MASK and MZ govern the lanes written,
and each is row-local. -/
def Obligations.SheetLogicMasksAndPermutation : Prop :=
  ∀ (s : State) (b : Nat) (o : VOp),
    let c := s.ctx b
    let x := fun l => (c.opnd o.a o.xb).lane l
    let y := fun l => (c.opnd o.b o.xb).lane l
    let p := c.maskOf o.a.toNat
    let q := c.maskOf o.b.toNat
    let ab := fun r => (c.opnd o.a o.xb).mark r || (c.opnd o.b o.xb).mark r
    LandsSheet s b (.vand o) o 4 (fun l => x l &&& y l) ab 0 ∧
    LandsSheet s b (.vor o) o 4 (fun l => x l ||| y l) ab 0 ∧
    LandsSheet s b (.vxor o) o 4 (fun l => x l ^^^ y l) ab 0 ∧
    LandsSheet s b (.vnot o) o 4 (fun l => ~~~x l) (c.opnd o.a o.xb).mark 0 ∧
    LandsMask s b (.mlog o) o 4 (fun l => o.imm.getLsbD (2 * (p.bits.getLsbD l).toNat + (q.bits.getLsbD l).toNat))
      (fun r => p.marks.getLsbD r || q.marks.getLsbD r) (· = 0) ∧
    LandsSheet s b (.mpopc o) o 6
      (fun l => BitVec.ofNat 32 ((List.range 512).countP fun k =>
        p.bits.getLsbD (l / 512 * 512 + k) && (o.imm.toNat % 2 == 0 || decide (k < l % 512)))) p.marks.getLsbD 0 ∧
    LandsSheet s b (.vperm o) o 8 (fun l => x (l / 512 * 512 + ((y l).extractLsb' 0 9).toNat)) ab 0

/-- 07_sheet R163, R164, 05_numbers R104, R105, R114 to R117: the element ops and the dot products. Each element of each
written lane is the exact result, rounded once under the effective mode for a floating-point type, else wrapped or, with
SAT, saturated; the flags are those of the elements written. -/
def Obligations.SheetArithmetic : Prop :=
  ∀ (s : State) (b : Nat) (o : VOp),
    let c := s.ctx b
    let m := effMode o.rnd c.fpm false
    let w := o.ty.width
    let g := signedTy o.ty
    let el (x : BitVec 9) (w l e : Nat) : Nat := laneElem ((c.opnd x o.xb).lane l) w e
    (∀ r ∈ arithRows o m, ∀ v, v = (match fmtOf o.ty with
        | some f => fun l e =>
            let z := r.2.2.1 (f.val (el o.a w l e)) (f.val (el o.b w l e)) (f.val (el o.c w l e))
            let q := f.round z.1 m o.sat 0
            (q.1, q.2 ||| nvIf z.2)
        | none => fun l e =>
            (narrow (r.2.2.2 (intVal g w (el o.a w l e)) (intVal g w (el o.b w l e)) (intVal g w (el o.c w l e))) g w o.sat, 0)) →
      LandsElems s b r.1 o 4 w v fun k => r.2.1.any fun x => (c.opnd x o.xb).mark k) ∧
    (∀ i ∈ [Instr.vdot2 o, .vdot4 o], ∀ v, v = (match fmtOf o.ty with
        | some f => fun l _ =>
            let z := XR.sum m ((fF32.val (el o.c 32 l 0), false) ::
              (List.range (32 / w)).map fun e => XR.mul (f.val (el o.a w l e)) (f.val (el o.b w l e)))
            let q := fF32.round z.1 m false 0
            (q.1, q.2 ||| nvIf z.2)
        | none => fun l _ =>
            (narrow (intVal g 32 (el o.c 32 l 0) +
              ((List.range (32 / w)).map fun e => intVal g w (el o.a w l e) * intVal g w (el o.b w l e)).sum) g 32 o.sat, 0)) →
      LandsElems s b i o 5 32 v fun k => [o.a, o.b, o.c].any fun x => (c.opnd x o.xb).mark k)

/-- 07_sheet R166, R167: the shifts and VMULH act per element, with the amount in the element of b or in AMT; VMOV copies,
VFILL repeats its immediate, VIDX numbers lanes, rows or columns. -/
def Obligations.SheetShiftsMovesAndFills : Prop :=
  ∀ (s : State) (b : Nat) (o : VOp),
    let c := s.ctx b
    let w := o.ty.width
    let x (l e : Nat) : Nat := laneElem ((c.opnd o.a o.xb).lane l) w e
    let y (l e : Nat) : Nat := laneElem ((c.opnd o.b o.xb).lane l) w e
    let n (l e : Nat) : Nat := if o.imm.getLsbD 29 then o.imm.toNat % 64 else y l e
    let v (z : Nat) : Int := intVal (signedTy o.ty) w z
    let ab := fun r => (c.opnd o.a o.xb).mark r || (!o.imm.getLsbD 29 && (c.opnd o.b o.xb).mark r)
    LandsElems s b (.vshl o) o 4 w (fun l e => (if w ≤ n l e then 0 else x l e * 2 ^ n l e % 2 ^ w, 0)) ab ∧
    LandsElems s b (.vshr o) o 4 w (fun l e => (if w ≤ n l e then 0 else x l e / 2 ^ n l e, 0)) ab ∧
    LandsElems s b (.vsra o) o 4 w (fun l e => (wrapInt (intVal true w (x l e) / (2 ^ min (n l e) w : Nat)) w, 0)) ab ∧
    LandsElems s b (.vrshr o) o 4 w (fun l e => (wrapInt (if n l e = 0 then v (x l e)
      else (v (x l e) + (2 ^ (min (n l e) 64 - 1) : Nat)) / (2 ^ min (n l e) 64 : Nat)) w, 0)) ab ∧
    LandsElems s b (.vmulh o) o 4 w (fun l e => (wrapInt (v (x l e) * v (y l e) / (2 ^ w : Nat)) w, 0))
      (fun r => (c.opnd o.a o.xb).mark r || (c.opnd o.b o.xb).mark r) ∧
    LandsSheet s b (.vmov o) o 4 (fun l => (c.opnd o.a o.xb).lane l) (c.opnd o.a o.xb).mark 0 ∧
    LandsSheet s b (.vfill o) o 4 (fun _ => match o.ty with
      | .b32 | .i32 => o.imm.signExtend 32
      | .n32 => o.imm.setWidth 32
      | .f32 => BitVec.ofNat 32 (4 * o.imm.toNat)
      | _ => BitVec.ofNat 32 ((List.range (32 / w)).foldl (fun a e => a + o.imm.toNat * 2 ^ (w * e)) 0)) (fun _ => false) 0 ∧
    LandsSheet s b (.vidx o) o 4 (fun l => BitVec.ofNat 32 (([l / 512, l % 512]).getD o.imm.toNat l) +
        (if o.b = 0 then 0 else (c.opnd o.b o.xb).lane l))
      (fun r => o.b ≠ 0 && (c.opnd o.b o.xb).mark r) 0

/-- 07_sheet R168, R169, R170, R158, R159: VCMP sets the bits where its relation holds, with the flags of the lanes written,
VSEL takes each lane from a or from b by its mask and merges nothing, MSET writes a mask from its rule; a poisoned count of
MSET raises poison consumption. -/
def Obligations.SheetComparesSelectsAndMasks : Prop :=
  ∀ (s : State) (b : Nat) (o : VOp),
    let c := s.ctx b
    let x := fun l => (c.opnd o.a o.xb).lane l
    let y := fun l => (c.opnd o.b o.xb).lane l
    let k := c.maskOf o.mask.toNat
    let n := if o.imm.getLsbD 29 then (c.xw o.xb).toNat else o.imm.toNat / 8 % 2 ^ 17
    (o.ty ≠ .f32 → LandsMask s b (.vcmp o) o 4 (fun l =>
        let v (z : Lane) : Int := intVal (signedTy o.ty) 32 z.toNat
        ([decide (x l = y l), decide (x l ≠ y l), decide (v (x l) < v (y l)), decide (v (x l) ≤ v (y l)),
          decide (v (y l) < v (x l)), decide (v (y l) ≤ v (x l)), false, false, decide (x l &&& y l ≠ 0),
          decide (x l &&& y l = 0)]).getD (o.imm.toNat % 16) false)
      (fun r => (c.opnd o.a o.xb).mark r || (c.opnd o.b o.xb).mark r) (· = 0)) ∧
    (o.ty = .f32 → LandsMask s b (.vcmp o) o 4
      (fun l => condFp (BitVec.ofNat 4 (o.imm.toNat % 16)) (fF32.val (x l).toNat) (fF32.val (y l).toNat))
      (fun r => (c.opnd o.a o.xb).mark r || (c.opnd o.b o.xb).mark r)
      (OrOf 32768 k.bits.getLsbD fun l => cmpFx (fF32.val (x l).toNat) (fF32.val (y l).toNat))) ∧
    (s.Runs b (.vsel o) → ∃ v : Sheet, exec (.vsel o) s = .next (s.after b fun t =>
        (t.landAt b (s.core.beat + 4) (sheetDest c o).1 (.v v) 0 true).streamed b (semOf (.vsel o))) ∧
      (∀ l < 32768, v.lane l = if k.bits.getLsbD l then x l else y l) ∧
      ∀ r < 64, v.mark r = ((o.mask ≠ 0 && k.marks.getLsbD r) ||
        ((List.range 512).any (fun j => k.bits.getLsbD (512 * r + j)) && (c.opnd o.a o.xb).mark r) ||
        ((List.range 512).any (fun j => !k.bits.getLsbD (512 * r + j)) && (c.opnd o.b o.xb).mark r))) ∧
    LandsMask s b (.mset o) o 4 (fun l =>
        ([false, true, decide (l < n), decide (l % 512 < n), decide (l / 512 < n), decide (x l ≠ 0)]).getD (o.imm.toNat % 8) false)
      (fun r => o.imm.toNat % 8 = 5 && (c.opnd o.a o.xb).mark r) (· = 0) ∧
    (s.Issues b (.mset o) → (semOf (.mset o)).cold s b = none → o.imm.getLsbD 29 = true → c.xm o.xb = true →
      exec (.mset o) s = .next (s.raised b (.mset o) { code := 0x20, info1 := 1, info2 := o.xb.toNat }))

/-- 07_sheet R173 to R177, 05_numbers R105, R106, R111 to R113, R121: the conversions place each converted element, or its
part, and the special functions round each element once; the flags are those of the elements written, and a conversion
under SR draws once. VEXP2, VLOG2 and VTANH round, of their infinite result, a value computed to 512 bits, which is the
model's choice (DEDUCED, log 15). -/
def Obligations.SheetConversionsAndFunctions : Prop :=
  ∀ (s : State) (b : Nat) (o : VOp),
    let c := s.ctx b
    let m := effMode o.rnd c.fpm true
    let st := o.stype.getD .f32
    let ws := st.width
    let wd := o.ty.width
    let k := o.imm.toNat / 32 % 8
    let el (x : BitVec 9) (w l e : Nat) : Nat := laneElem ((c.opnd x o.xb).lane l) w e
    let old (l e : Nat) : Nat := if o.c = 0 then 0 else el o.c wd l e
    let cv (n l e : Nat) : Nat × Fx := convert st o.ty n m o.sat (srBits c.srs c.src l e)
    let ex (v : XR × Bool) (l e : Nat) : Nat × Fx :=
      let q := match fmtOf o.ty with
        | some f => f.round v.1 m o.sat (srBits c.srs c.src l e)
        | none => toInt v.1 (signedTy o.ty) wd m o.sat (srBits c.srs c.src l e)
      (q.1, q.2 ||| nvIf v.2)
    let mk (xs : List (BitVec 9)) (r : Nat) : Bool := xs.any fun x => (c.opnd x o.xb).mark r
    let cs := if o.c = 0 then [] else [o.c]
    LandsDrawn s b (.vcvt o) o 5 wd (fun l e => cv (el o.a ws l e) l e) (mk [o.a]) ∧
    LandsDrawn s b (.vpack o) o 5 wd (fun l e =>
      let j := 32 / ws
      if k * 2 * j ≤ e ∧ e < k * 2 * j + j then cv (el o.a ws l (e - k * 2 * j)) l e
      else if k * 2 * j + j ≤ e ∧ e < k * 2 * j + 2 * j then cv (el o.b ws l (e - k * 2 * j - j)) l e
      else (old l e, 0)) (mk ([o.a, o.b] ++ cs)) ∧
    LandsDrawn s b (.vunpk o) o 5 wd (fun l e => cv (el o.a ws l (k * (32 / wd) + e)) l e) (mk [o.a]) ∧
    LandsDrawn s b (.vqnt o) o 5 wd (fun l e =>
      if e = k then ex (XR.mul (fF32.val (el o.a 32 l 0)) (fF32.val (el o.b 32 l 0))) l e else (old l e, 0)) (mk ([o.a, o.b] ++ cs)) ∧
    LandsDrawn s b (.vdqnt o) o 5 32 (fun l e => ex (XR.mul (elemVal st (el o.a ws l k)) (fF32.val (el o.b 32 l 0))) l e)
      (mk [o.a, o.b]) ∧
    ∀ r ∈ [(Instr.vrcp o, fnRcp), (.vrsq o, fnRsq), (.vexp2 o, fnExp2), (.vlog2 o, fnLog2), (.vtanh o, fnTanh)],
      LandsElems s b r.1 o 8 wd (fun l e => fnRound ((fmtOf o.ty).getD fF32) (r.2 (((fmtOf o.ty).getD fF32).val (el o.a wd l e))))
        (mk [o.a])

/-- 07_sheet R159, R178, R179, R181, R182, 05_numbers R118: integer row and column sums give their exact sum once narrowed;
floating-point and extremal reductions and scans fold as R118 orders them, with the flags of their nodes; that column 0 of a
scan keeps the bits of its lane, a NaN among them, is the model's choice (DESIGN CHOICE, log 39); VMVR and VMVC move rows and
columns, VCSWP compares and exchanges with the lane at its distance, VTRB transposes each block. -/
def Obligations.SheetCrossLaneOps : Prop :=
  ∀ (s : State) (b : Nat) (o : VOp),
    let c := s.ctx b
    let x := fun l => (c.opnd o.a o.xb).lane l
    let xm := (c.opnd o.a o.xb).mark
    let k := c.maskOf o.mask.toNat
    let m := effMode o.rnd c.fpm false
    let rop := o.imm.toNat % 4
    let g := signedTy o.ty
    let inc (l : Nat) : Bool := o.mask = 0 || k.bits.getLsbD l
    let z (l : Nat) : Nat := if inc l then (x l).toNat else redIdent o.ty rop m
    let rm (r : Nat) : Bool := xm r || (o.mask ≠ 0 && k.marks.getLsbD r)
    let total (ls : List Nat) : Nat :=
      narrow ((ls.map fun l => if inc l then intVal g 32 (x l).toNat else 0).sum) g 32 o.sat
    let row (r n : Nat) : List Nat := (List.range n).map fun j => 512 * r + j
    let col (j : Nat) : List Nat := (List.range 64).map fun r => 512 * r + j
    (o.ty ≠ .f32 → rop = 0 →
      LandsWhole s b (.vredr o) o 10 (fun l => BitVec.ofNat 32 (total (row (l / 512) 512))) rm (· = 0) ∧
      LandsWhole s b (.vredc o) o 12 (fun l => BitVec.ofNat 32 (total (col (l % 512)))) (fun _ => (List.range 64).any rm) (· = 0) ∧
      LandsWhole s b (.vscanr o) o 12 (fun l => BitVec.ofNat 32 (total (row (l / 512) (l % 512 + 1)))) rm (· = 0)) ∧
    (o.ty = .f32 ∨ rop ≠ 0 →
      let tree (n : Nat) (ls : List Nat) : Nat × Fx := treeFold (redNode o.ty rop m) n (ls.map z) 0
      let acc (r n : Nat) : Nat := ((row r n).map z).tail.foldl (fun a v => (redNode o.ty rop m a v).1) (z (512 * r))
      LandsWhole s b (.vredr o) o 10 (fun l => BitVec.ofNat 32 (tree 9 (row (l / 512) 512)).1) rm
        (OrOf 64 (fun _ => true) fun r => (tree 9 (row r 512)).2) ∧
      LandsWhole s b (.vredc o) o 12 (fun l => BitVec.ofNat 32 (tree 6 (col (l % 512))).1) (fun _ => (List.range 64).any rm)
        (OrOf 512 (fun _ => true) fun j => (tree 6 (col j)).2) ∧
      LandsWhole s b (.vscanr o) o 12 (fun l => BitVec.ofNat 32 (acc (l / 512) (l % 512 + 1))) rm
        (OrOf 32768 (fun l => l % 512 ≠ 0) fun l => (redNode o.ty rop m (acc (l / 512) (l % 512)) (z l)).2)) ∧
    (let n := if o.imm.getLsbD 29 then (c.xw o.xb).toNat else o.imm.toNat % 512
     let src (w i : Nat) : Option Nat :=
       let j : Int := if o.imm.getLsbD 10 then (i : Int) + n else (i : Int) - n
       if o.imm.getLsbD 9 then (if 0 ≤ j ∧ j < w then some j.toNat else none) else some (j % w).toNat
     LandsSheet s b (.vmvr o) o 6 (fun l => match src 64 (l / 512) with
       | some r => x (512 * r + l % 512)
       | none => 0) (fun r => match src 64 r with
       | some q => xm q
       | none => false) 0 ∧
     LandsSheet s b (.vmvc o) o 6 (fun l => match src 512 (l % 512) with
       | some j => x (l / 512 * 512 + j)
       | none => 0) xm 0 ∧
     (∀ i ∈ [Instr.vmvr o, .vmvc o], s.Issues b i → (semOf i).cold s b = none → (semOf i).misuse s b = none →
       o.imm.getLsbD 29 = true → c.xm o.xb = true →
       exec i s = .next (s.raised b i { code := 0x20, info1 := 1, info2 := o.xb.toNat }))) ∧
    (let d := 2 ^ (o.imm.toNat % 16)
     let rows := o.imm.getLsbD 8
     let place (l : Nat) : Nat := if rows then l / 512 else l % 512
     let pair (l : Nat) : Nat := if rows then 512 * ((l / 512) ^^^ d) + l % 512 else 512 * (l / 512) + ((l % 512) ^^^ d)
     let up (l : Nat) : Bool := (place l / 2 ^ (o.imm.toNat / 16 % 16) % 2 == 1) == o.imm.getLsbD 10
     let first (l : Nat) : Bool := place l / d % 2 == 0
     let key (l : Nat) : Int := keyOf o.ty (x l)
     let take (l : Nat) : Nat := if (first l == up l) = true then (if key (pair l) < key l then pair l else l)
       else if key l < key (pair l) then pair l else l
     LandsSheet s b (.vcswp o) o 6
       (fun l => if o.imm.getLsbD 9 then (c.opnd o.b o.xb).lane (take l) else x (take l))
       (fun r =>
         let mr (r : Nat) : Bool := xm r || (o.imm.getLsbD 9 && (c.opnd o.b o.xb).mark r)
         mr r || (rows && mr (r ^^^ d))) 0) ∧
    (let w := o.ty.width
     let n := 32 / w
     LandsElems s b (.vtrb o) o 10 w
       (fun l e =>
         let u := n * (l % 512) + e
         let q := 64 * (u / 64) + l / 512
         (laneElem (x (512 * (u % 64) + q / n)) w (q % n), 0))
       (fun _ => (List.range 64).any xm))

/-! ## Memory -/

/-- 10_memory R225, R232, 16_system R366, 00_scope R5: a write of local memory reads back, byte for byte, at every address
that no device byte and no flag word stands at, and leaves every other byte as it was: that the bytes which the device
alone writes keep their values is the model's choice (DESIGN CHOICE, log 63). The memory stays in its canonical form. -/
def Obligations.LocalWritesReadBack : Prop :=
  ∀ (s : State) (a : Nat) (bs : List Byte) (poi : Bool),
    (a + bs.length ≤ spadBase ∨ (spadBase ≤ a ∧ area (a - spadBase) ≠ .flags)) →
    let t := s.locWrite a bs poi
    (∀ x, t.locByte x =
      if a ≤ x ∧ x < a + bs.length ∧ (x < spadBase ∨ (area (x - spadBase) ≠ .flags ∧ s.deviceByte (x - spadBase) = none))
      then bs.getD (x - a) 0 else s.locByte x) ∧
    (Memory.wf s.ms.mem → Memory.wf t.ms.mem)

/-- 10_memory R243 to R247, R253, 12_sync R293, R294, R251: scalar loads, stores and atomics of the hearth scratchpad perform
in their beat of issue at xb plus the scaled offset, little-endian; a load's value, extended, lands 5 beats after issue, an
AMOF's old value 6 beats after issue, each with its mark. An AMOS applies row r in beat r after issue, its lanes in their
order, rows 0 and 1 by the end of its own beat, and counts 64 beats (that a later access to the hearth scratchpad performs the
rows left is read by inference, DEDUCED, log 74). Each marks the regions it touches, for the copies that may not move in them
(11_copy R256), and a load or an atomic first loses the lines that are found uncorrectable (18_platform R400): that the agenda
names them is the model's choice (DESIGN CHOICE, log 106). -/
def Obligations.ScratchpadScalarAccess : Prop :=
  ∀ (s : State) (b : Nat) (m : MemOp) (wid : BitVec 3) (g : AmoOp) (a : Nat), m.mode = .spad →
    let c := s.ctx b
    let at_ (sz : Nat) : Prop := (a : Int) = (c.xw m.base).toNat + m.ofs.toInt * sz ∧ a + sz ≤ 2 ^ 28
    let met (n : Nat) (t : State) : State := (t.meetErrors [(a, n)]).touch [(a, n)]
    let n := widBytes wid.toNat
    (at_ n →
      (s.Runs b (.ldx m wid) → exec (.ldx m wid) s = .next (s.after b fun t => (met n t).landAt b (s.core.beat + 5) (.x m.reg.toNat)
        (.x ⟨BitVec.ofInt 64 (intVal (wid.toNat % 2 == 0 && wid.toNat != 6) (8 * n) (leNat ((met n t).locRead (spadBase + a) n))),
          (met n t).locPoi (spadBase + a) n⟩) 0 false)) ∧
      (s.Runs b (.stx m wid) → exec (.stx m wid) s = .next (s.after b fun t =>
        (t.touch [(a, n)]).locWrite (spadBase + a) (leBytes n (c.xw m.reg).toNat) (c.xm m.reg)))) ∧
    (at_ (amoBytes g.aw) →
      let n := amoBytes g.aw
      let old (t : State) : Nat := leNat (t.locRead (spadBase + a) n)
      let poi := c.xm m.reg || c.xm g.xc
      let upd (t : State) : State := t.locWrite (spadBase + a)
        (leBytes n ((atomicRow g.aw (old t) ((c.xw m.reg).toNat % 2 ^ (8 * n)) ((c.xw g.xc).toNat % 2 ^ (8 * n))).getD g.aop.toNat 0))
        (t.locPoi (spadBase + a) n || poi)
      (s.Runs b (.amo m g) → exec (.amo m g) s = .next (s.after b fun t => upd (met n t))) ∧
      (s.Runs b (.amof m g) → exec (.amof m g) s = .next (s.after b fun t =>
        (upd (met n t)).landAt b (s.core.beat + 6) (.x g.xr.toNat)
          (.x ⟨widExtend (amoWid g.aw) (old (met n t)), (met n t).locPoi (spadBase + a) n⟩) 0 false))) ∧
    (∀ (dp : BitVec 3) (aop : BitVec 4) (aw : BitVec 3) (scp : Scope) (idx : BitVec 5),
      let lanes (r : Nat) : List (Nat × Word × Bool) := amosLanes c m idx r
      s.Runs b (.amos m dp aop aw scp idx) → ∃ t, exec (.amos m dp aop aw scp idx) s = .next t ∧
        t.ms.amosEnd = some (s.core.beat + 64) ∧ (s.ctx b).SameRegs (t.ctx b) ∧ (∀ k, k ≠ b → t.ctx k = s.ctx k) ∧
        t.ms.amos = (((List.range 64).drop 2).map fun r => ⟨s.core.beat + r, c.uid, s.seq, aop.setWidth 5, aw, lanes r⟩).filter
          (fun r => r.lanes != []) ∧
        AtomicLanes s t aop.toNat aw (lanes 0 ++ lanes 1)) ∧
    (s.Runs b .cnop → ∃ t, exec .cnop s = .next t ∧ t.ms.amos = s.ms.amos.filter (fun r => decide (s.core.beat + 1 < r.due)) ∧
      ∀ r, s.ms.amos.filter (fun r => decide (r.due ≤ s.core.beat + 1)) = [r] → r.aw.toNat ∈ [1, 2, 3] → r.aop.toNat < 9 →
        (∀ l ∈ r.lanes, l.1 % 4 = 0 ∧ l.1 + 4 ≤ 2 ^ 28) → AtomicLanes s t r.aop.toNat r.aw r.lanes)

/-- 10_memory R237, R243, R245, R246, R250, R251, R253: the loads LDS, LDR, LDS2, LDX, LDB, LDG and LDM, in every mode. One
whose every target lies in the local scratchpad space reads in its beat of issue, and its value lands its latency after issue,
16 beats if it reads a face window. One with another target enters flight with its register locked; when the last of its data
arrives, from local memory, the host or another package, its value is written and the lock goes. The value is that of its
bytes under MASK and MZ; that an LDR's MZ is the low bit of ROW is the model's choice (DESIGN CHOICE, log 9), and so is that
the agenda names the lines found uncorrectable (DESIGN CHOICE, log 106). LDS of the hearth scratchpad is stated besides by its
addresses. -/
def Obligations.SheetLoadsReadTheirRows : Prop :=
  (∀ (s : State) (b : Nat) (m : MemOp) (mz : Bool) (p : Nat → Nat), m.mode = .spad → (∀ ls, s.arg ≠ .bad ls) →
    let c := s.ctx b
    let old := c.vv (c.physV m.reg.toNat)
    let k := c.maskOf m.mask.toNat
    (∀ r < 64, (p r : Int) = (c.xw m.base).toNat + m.ofs.toInt * 2048 +
        (if m.pitch = 0 then 2048 else (c.xw m.pitch).toInt) * r ∧ p r + 2048 ≤ 2 ^ 28) →
    s.Runs b (.lds m mz) → ∃ v : Sheet,
      exec (.lds m mz) s = .next (s.after b fun t =>
        (t.touch ((List.range 64).map fun r => (p r, 2048))).landAt b (s.core.beat + 6) (.v (c.physV m.reg.toNat)) (.v v) 0 false) ∧
      (∀ r < 64, ∀ j < 512, v.lane (512 * r + j) =
        if k.bits.getLsbD (512 * r + j) then BitVec.ofNat 32 (leNat (s.locRead (spadBase + p r + 4 * j) 4))
        else if mz then 0 else old.lane (512 * r + j)) ∧
      ∀ r < 64, v.mark r = mergedRow k (m.mask ≠ 0) mz old.mark (fun r => s.locPoi (spadBase + p r) 2048) r) ∧
  (∀ (s : State) (b : Nat) (i : Instr) (f : Form) (ps : List Piece) (hs : List Nat) (dst : PDest) (dest : LDest) (lat : Nat),
    loadShape (s.ctx b) i = some (f, ps, hs, dst, dest, lat) → s.Runs b i →
    let ts := s.targets (s.ctx b) f ps
    let u := readingState ts (s.begun b)
    (isLong ts = false → ∃ v, exec i s = .next (s.after b fun t =>
        ((readingState ts t).landFrom (loadBlocks ts) b (s.core.beat + spadLatency ts lat) dst v 0 false).noteQueued b hs (spadLatency ts lat)) ∧
      ∀ (got : Nat → List Byte) (poi : Nat → Bool), (∀ q ∈ ts, ∀ a, q.2 = .spad a →
          got q.1.ix = u.locRead (spadBase + a) q.1.len ∧ poi q.1.ix = u.locPoi (spadBase + a) q.1.len) →
        LoadedAs (s.ctx b) i got poi v) ∧
    (isLong ts = true → ∃ t x, exec i s = .next t ∧ t.ms.flight = s.ms.flight ++ [x] ∧ (t.ctx b).locks = (s.ctx b).locks ++ [⟨dst, x.id⟩] ∧
      x.id = s.ids ∧ x.kind = .load ∧ x.bank = b ∧ x.uid = (s.ctx b).uid ∧ x.seq = s.seq ∧ x.issued = s.core.beat ∧ x.dest = dest ∧
      x.rd = u.rdPieces (s.ctx b) ts ∧ x.wr = [] ∧ x.amo = none ∧ x.rel = none ∧ x.bad = false ∧ (s.ctx b).SameRegs (t.ctx b))) ∧
  (∀ (s : State) (b : Nat) (c : Ctx) (i e : Instr) (x : Access) (f : Form) (ps : List Piece) (hs : List Nat) (dst : PDest) (dest : LDest)
      (lat : Nat) (val : RdPiece → List Byte × Bool),
    let part (n : Nat) : List RdPiece := x.rd.filter fun p => p.ix = n
    let got (n : Nat) : List Byte := (part n).flatMap fun p => (val p).1
    loadShape c i = some (f, ps, hs, dst, dest, lat) → s.ms.flight = [x] → x.kind = .load → x.dest = dest →
    x.amo = none → x.bad = false → x.rel = none → x.wr = [] → (∀ p ∈ x.rd, ∃ q ∈ ps, q.ix = p.ix) →
    (∀ q ∈ ps, (got q.ix).length = q.len) → ((∃ m y z, i = .ldg m y z) → (x.rd.map (·.ix)).Nodup) → LastData s x e val →
    s.bankOf x.uid x.bank = some b → (s.ctx b).locks = [⟨dst, x.id⟩] → (∀ p ∈ (s.ctx b).pend, p.dst ≠ dst) →
    ∃ t v, exec e s = .next t ∧ t.ms.flight = [] ∧ t.ctx b = { (s.ctx b).write dst v with locks := [] } ∧
      (∀ k, k ≠ b → t.ctx k = s.ctx k) ∧ t.ms.mem = s.ms.mem ∧ LoadedAs c i got (fun n => (part n).any fun p => (val p).2) v)

/-- 10_memory R242, R226, R252: a scalar access or atomic of the hearth scratchpad that is not aligned to its size, or
outside the regions of the context's mask, raises protection, code 0x10. -/
def Obligations.MisplacedScratchpadAccessTraps : Prop :=
  ∀ (s : State) (b : Nat) (m : MemOp) (wid : BitVec 3) (g : AmoOp) (a : Nat), m.mode = .spad →
    let c := s.ctx b
    ∀ e ∈ [(Instr.ldx m wid, widBytes wid.toNat), (.stx m wid, widBytes wid.toNat), (.amo m g, amoBytes g.aw),
        (.amof m g, amoBytes g.aw)],
      (a : Int) = (c.xw m.base).toNat + m.ofs.toInt * e.2 → a + e.2 ≤ 2 ^ 28 → c.xm m.base = false →
      (a % e.2 ≠ 0 ∨ s.regionsOk c.rmask a e.2 = false) → s.Issues b e.1 →
      exec e.1 s = .next (s.raised b e.1 { code := 0x10, info1 := a, info2 := c.asid.toNat })

/-- 10_memory R244, R247, R248, 12_sync R294: every form that stores (STS, STR, STS2, STX, STN, STSC, STM, AMO and AMOF). The
bytes a form performs in its beat are those of its runs at their local scratchpad addresses, the last run where some overlap;
its pieces elsewhere enter flight; every other byte of local memory (but those of the power status block, which follow the
beat), every register, every other context, the instruction store and the engines but the windows' counts are unchanged. A row
stores the lanes of its mask alone. A store to the aperture (11_copy R274) may besides start a copy, which draws, or refuse it,
which writes the flag it names. That the agenda names the lines found uncorrectable, and that device bytes keep their values,
are the model's choices (DESIGN CHOICE, logs 106 and 63). -/
def Obligations.StoresChangeTheirBytesAlone : Prop :=
  (∀ (s : State) (b : Nat) (i : Instr) (f : Form) (ps : List Piece),
    storeShape (s.ctx b) i = some (f, ps) → s.Runs b i → s.ms.amos = [] → (∀ ls, s.arg ≠ .bad ls) →
    let ts := s.targets (s.ctx b) f ps
    ∃ t, exec i s = .next t ∧
      (∀ a, ¬ofPower a → (∀ q ∈ ts, ∀ x, q.2 = .spad x → if area x = .aperture
            then ¬(spadBase ≤ a ∧ area (a - spadBase) = .flags)
            else ∀ r ∈ q.1.runs, a < spadBase + x + r.1 ∨ spadBase + x + r.1 + r.2.length ≤ a) → t.locByte a = s.locByte a) ∧
      (atomicOf i = none →
        (∀ a v, storedByte ts a = some v → s.deviceByte (a - spadBase) = none →
          (area (a - spadBase) = .flags → flagOf (a - spadBase) < 4094) → t.locByte a = keptByte i v (s.locByte a)) ∧
        (wrPieces ts = [] → t.ms.flight = s.ms.flight) ∧
        (wrPieces ts ≠ [] → ∃ x, t.ms.flight = s.ms.flight ++ [x] ∧ x.kind = .store ∧ x.uid = (s.ctx b).uid ∧ x.seq = s.seq ∧
          x.bank = b ∧ x.rd = [] ∧ x.wr = wrPieces ts)) ∧
      (∀ m g, atomicOf i = some (m, g) → isLong ts = true → ∃ x p, t.ms.flight = s.ms.flight ++ [x] ∧ x.kind = .amo ∧
        x.uid = (s.ctx b).uid ∧ x.seq = s.seq ∧ x.bank = b ∧ x.amo = some (amoArg (s.ctx b) m g) ∧ x.rd = [p] ∧ p.got = none ∧
        p.len = amoBytes g.aw ∧ x.acq = g.ord.getLsbD 0 ∧ (x.rel = none ↔ g.ord.getLsbD 1 = false)) ∧
      (s.ctx b).SameRegs { t.ctx b with src := (s.ctx b).src } ∧
      ((∀ q ∈ ts, ∀ x, q.2 = .spad x → area x ≠ .aperture) → (t.ctx b).src = (s.ctx b).src ∧ t.copy = s.copy) ∧
      (∀ k, k ≠ b → t.ctx k = s.ctx k) ∧ t.ms.istore = s.ms.istore ∧ t.cube = s.cube ∧ t.sched = s.sched ∧ t.pow = s.pow ∧
      t.plat = s.plat) ∧
  (∀ (c : Ctx) (m : MemOp) (r : Nat) (h : Option Nat) (a : Int) (half : Bool), r < 64 →
    let p := rowPiece c m r h a half
    p.ix = r ∧ p.hnd = h ∧ p.at_ = a ∧ p.len = 2048 ∧ ∀ j < 512, ∀ e < 4, runByte p.runs (4 * j + e) =
      if (c.maskOf m.mask.toNat).bits.getLsbD (512 * r + j) then some (((storeData c m).lane (512 * r + j)).extractLsb' (8 * e) 8) else none)

/-- 02_bundle R50, 04_sequencing R78: the frame of the instructions of the scalar, vector and load slots, but for the
control-register writes and XLTW.G: their results are on their way or locked, and in their beat they change no register but
the draw counter of a conversion, no flag that tests and waits see, no byte of memory but those of the flag that a compare
writes, no other context and no engine. The power status block follows the beat (17_power R392), and the lines that a load may
find uncorrectable are those that the agenda names (DESIGN CHOICE, log 106). -/
def Obligations.RegisterInstructionsChangeNothingElse : Prop :=
  ∀ (s : State) (b : Nat) (i : Instr), registerOnly i = true → s.Runs b i → s.ms.amos = [] → (∀ ls, s.arg ≠ .bad ls) →
    ∃ t, exec i s = .next t ∧ s.SameOutside t b (comparedFlag i) ∧ (s.ctx b).SameRegs { t.ctx b with src := (s.ctx b).src } ∧
      (draws i = false → (t.ctx b).src = (s.ctx b).src)

/-! ## Flags, barriers, waits and fences -/

/-- 12_sync R280, R285, R286: the flag and barrier writes complete; each write is queued at its scope with its update, to
land no earlier than the next beat, and changes no flag at issue. A barrier update adds its bytes to PEND and takes its
arrivals from the count; the phase bit of word n + 1 follows PEND, an overdrawn count sets the error bit, and an update of a
barrier that is not armed sets it alone. -/
def Obligations.FlagAndBarrierWritesQueue : Prop :=
  (∀ (s : State) (b : Nat) (p : Path) (f : FlagIx) (x : XReg) (pod arv : Bool),
    let c := s.ctx b
    let w : FlagW := ⟨(c.xw x).setWidth 32, c.xm x⟩
    let n : Nat := (c.xw x).toNat
    let sc : Scope := if pod then .pod else .pkg
    ∀ e ∈ [(Instr.fset p f pod, sc, FlagUpd.set ⟨1, false⟩), (.fclr p f, .ctx, .set ⟨0, false⟩), (.fwr p f x pod, sc, .set w),
        (.faddc p f x pod, sc, .add (if x = 0 then ⟨1, false⟩ else w)),
        (.binit p f x, .ctx, .two ⟨BitVec.ofNat 32 (n % 2 ^ 28), false⟩
          ⟨BitVec.ofNat 32 (n / 2 ^ 32 % 2 ^ 16 + if n % 2 ^ 28 = 0 then 0 else 65536), false⟩),
        (.barv p f x pod, sc, .bar 0 (if x = 0 then 1 else n % 2 ^ 16) false),
        (.bexp p f x arv, if arv then .pod else .ctx, .bar (n % 2 ^ 28) arv.toNat false)],
      s.Runs b e.1 → exec e.1 s = .next (s.after b fun t => t.queueFlag b e.2.1 f.toNat e.2.2)) ∧
  (∀ (w0 w1 : BitVec 32) (d : BitVec 28) (a : Nat) (err : Bool),
    let r := barrierUpdate w0 w1 d a err
    (w1 = 0 → r.2 = 0 ∧ r.1.extractLsb' 0 31 = w0.extractLsb' 0 31 ∧
      r.1.getLsbD 31 = (w0.getLsbD 31 || decide (d ≠ 0 ∨ a ≠ 0) || err)) ∧
    (w1 ≠ 0 → r.1.extractLsb' 0 28 = w0.extractLsb' 0 28 + d ∧ r.1.extractLsb' 28 3 = w0.extractLsb' 28 3 ∧
      (r.2.extractLsb' 0 16).toNat = (w1.extractLsb' 0 16).toNat - a ∧
      r.2.getLsbD 16 = decide (w0.extractLsb' 0 28 + d ≠ 0) ∧ r.2.extractLsb' 17 15 = w1.extractLsb' 17 15 ∧
      r.1.getLsbD 31 = (w0.getLsbD 31 || err || decide ((w1.extractLsb' 0 16).toNat < a))))

/-- 12_sync R281, R288, R291, 04_sequencing R77: a wait whose condition holds completes, and FWANY and BWAIT land what they
found; one whose condition fails holds its context and stb2 counts. A wait tests the words as they stood before the beat, and a
context's own writes as they stand (DEDUCED, log 16); behind an AMOS it performs the rows left (DEDUCED, log 74). FENCE
completes at once and is remembered just while an older access, AMOS row, flag write, POST, EVPOP or CRST of its context has
not performed; so are the fences before it. -/
def Obligations.WaitsPassOrHold : Prop :=
  ∀ (s : State) (b : Nat) (p : Path) (f : FlagIx) (x : XReg) (kind : BitVec 4) (scp : Scope),
    let c := s.ctx b
    let words (n : Nat) : List FlagW := match tfind s.ms.flagsWas n with
      | some w => if w.2.contains c.uid then [w.1, s.flag n] else [w.1]
      | none => [s.flag n]
    let set_ (n : Nat) : Prop := ∀ w ∈ words n, w.val ≠ 0
    (s.Runs b (.fwait p f) → set_ f.toNat ∧ exec (.fwait p f) s = .next (s.after b State.amosFlush)) ∧
    (s.Runs b (.fwaitGe p f x) → (∀ w ∈ words f.toNat, (w.val - (c.xw x).setWidth 32).toNat < 2 ^ 31) ∧
      exec (.fwaitGe p f x) s = .next (s.after b State.amosFlush)) ∧
    (s.Runs b (.fwany p f x) → ∃ v : Word, exec (.fwany p f x) s = .next (s.after b fun t => t.amosFlush.landX b x v false 1) ∧
      (c.xw x = 0 ∨ v ≠ 0) ∧ ∀ k < 64, v.getLsbD k = true ↔ (c.xw x).getLsbD k = true ∧ set_ (f.toNat + k)) ∧
    (s.Runs b (.bwait p f x) → (∀ w ∈ words (f.toNat + 1), w.val = 0) ∧ ∀ w, (words f.toNat).getLast? = some w →
      exec (.bwait p f x) s = .next (s.after b fun t => t.amosFlush.landX b x (w.val.setWidth 64) false 1)) ∧
    (∀ i ∈ [Instr.fwait p f, .fwaitGe p f x, .fwany p f x, .bwait p f x], s.CanIssue b i (semOf i) → (semOf i).stall s b = some 2 →
      ∃ t, exec i s = .next t ∧ (t.ctx b).pc = c.pc ∧ (t.ctx b).bcnt = c.bcnt ∧ t.core.beat = s.core.beat + 1 ∧
        (t.ctx b).stall 2 = c.stall 2 + 1) ∧
    (s.Runs b (.fence p kind scp) → (s.core.banks.map (·.1)).Nodup → ∃ t, exec (.fence p kind scp) s = .next t ∧
      let open_ (n : Nat) : Prop := (∃ a ∈ s.ms.flight, a.uid = c.uid ∧ a.seq < n) ∨ (∃ r ∈ s.ms.amos, r.uid = c.uid ∧ r.seq < n) ∨
        (∃ r ∈ s.ms.rels, r.uid = c.uid ∧ r.seq < n) ∨
        (∃ k, s.hasCtx k = true ∧ (s.ctx k).uid = c.uid ∧ ∃ p ∈ (s.ctx k).pend, p.seq < n ∧ ∃ m, p.dst = .flag m) ∨
        (∃ e ∈ s.sched.posts, e.bank ≠ 16 ∧ e.uid = c.uid ∧ e.seq < n) ∨ (∃ o ∈ s.core.evpops, o.uid = c.uid ∧ o.seq < n) ∨
        ∃ o ∈ s.core.ctlOps, o.uid = c.uid ∧ o.seq < n ∧ ∃ y, o.op = .crst y
      ∀ e : FenceE, e ∈ (t.ctx b).fences ↔ (e ∈ c.fences ∨ e = { kind := kind, scp := scp, seq := s.seq }) ∧ open_ e.seq)

/-! ## Engine ops -/

/-- 08_cube R185, 09_partitions R216, R223, R224, 11_copy R254, R262, R267 to R273: an op of the CB or CP slot completes at
issue by taking its place at the end of the queue of each partition or of the channel it names, and of no other: the entry
holds the op as that partition runs it, the descriptor the copy's kind, sides, record, flags and counts. CSWP raises the
issued-swap counts, CPYS binds its stream and CPUB ends its binding; a reshape is noted for every id it affects; CQRY with
`.now` waits to report within 8 beats; CSUSP and CRESM set and clear the suspension of the members of their id, and CSUSP sets
its flag once none of their ops runs, behind its context's older accesses. No register but the draw counter, no other context,
and, but for CSUSP's flag and the power status block, which follows the beat, no byte of memory changes. -/
def Obligations.EngineOpsQueueTheirWork : Prop :=
  ∀ (s : State) (b : Nat) (i : Instr), s.Runs b i → s.ms.amos = [] →
    let c := s.ctx b
    let frame (t : State) (f : Option Nat) : Prop := (∀ a, ¬ofFlag f a → ¬ofPower a → t.locByte a = s.locByte a) ∧
      t.copy = s.copy ∧ (∀ k, k ≠ b → t.ctx k = s.ctx k) ∧ (s.ctx b).SameRegs (t.ctx b)
    (∀ ids, cubeQueues s i = some ids → ∃ t, exec i s = .next t ∧
      (∀ k, ∃ es : List QEntry, (t.part k).queue = (s.part k).queue ++ es ∧ (es ≠ [] ↔ k ∈ ids) ∧
        (∀ e ∈ es, e.gid = s.ids ∧ e.uid = c.uid ∧ e.bank = b ∧ e.seq = s.seq ∧ e.started = false ∧ e.steps = 0 ∧
          e.op = memberOp s c i k ∧ (cubeTarget i ≠ none → e.srs = c.srs ∧ e.src = c.src)) ∧
        (ids.Nodup → es.length ≤ 1 ∧ ∀ e ∈ es, e.org = match cubeTarget i with
          | some p => memberOrg (s.tail p) (s.tailBox p).quads (ids.idxOf k)
          | none => (0, 0))) ∧
      (∀ p q n w, i = .cswp p q n w → ids.Nodup → ∀ k ∈ ids,
        (t.part k).issW = (s.part k).issW + w.toNat ∧ (t.part k).issN = (s.part k).issN + n.toNat) ∧
      (reshapes i = true → ∃ r : Reshape, t.cube.resh = s.cube.resh ++ [r] ∧ r.op = i ∧ r.gid = s.ids ∧ r.ids = ids) ∧
      s.SameBytes t ∧ t.copy = s.copy ∧ (∀ k, k ≠ b → t.ctx k = s.ctx k) ∧
      (s.ctx b).SameRegs { t.ctx b with src := (s.ctx b).src }) ∧
    (∀ ch, chanOf i = some ch → ∃ t, exec i s = .next t ∧
      (∀ k, (tget t.copy.queues k []).map (·.id) = (tget s.copy.queues k []).map (·.id) ++ if k = ch then [s.ids] else []) ∧
      (∃ d, (tget t.copy.queues ch []).getLast? = some d ∧ d.id = s.ids ∧ d.uid = c.uid ∧ d.bank = b ∧ d.seq = s.seq ∧
        d.asid = c.asid ∧ d.rmask = c.rmask ∧ d.started = false ∧
        (∀ o a x, copyOf i = some (o, a, x) → ∃ r, s.record c.asid o.layout.toNat = some (some r) ∧ d.rec_ = r ∧
          (d.kind, d.src, d.dst, d.swaps, d.gens) = copyContent s c o x ∧ d.cflag = o.cflag.toNat ∧ d.cadd = a ∧
          d.rflag = o.rflag ∧ d.bflag = o.bflag.toNat ∧ d.srs = c.srs ∧ d.srcC = c.src ∧ d.err = none ∧
          (t.ctx b).src = c.src + (if r.conv ≠ 0 ∧ r.rnd = 4 then 1 else 0) ∧
          ∀ out k, x = .stream out k → d.str = k ∧ (t.ctx b).strm k =
            { dir := if out then .output else .input, chan := ch, desc := s.ids,
              total := if out then r.sheets r.sstr r.ssz else r.sheets r.dstr r.dsz, moved := 0, buf := [] }) ∧
        (∀ p h cf, i = .cpdrn p h cf → d.kind = .drain ∧ d.cflag = cf.toNat ∧ ((c.chst ch).first = 0 → d.err = none) ∧
          ((c.chst ch).first ≠ 0 → d.err = some (c.chst ch).first.toNat) ∧ ((t.ctx b).chst ch).first = 0) ∧
        (∀ p h x cf, i = .cprd p h x cf → d.kind = .report ∧ d.cflag = cf.toNat ∧ d.dst = .spad (c.xw x).toNat) ∧
        (∀ p h st cf, i = .cpub p h st cf → d.kind = .unbind ∧ d.cflag = cf.toNat ∧ d.str = st.toNat ∧
          (t.ctx b).strm st.toNat = Stream.none)) ∧
      s.SameBytes t ∧ t.cube = s.cube ∧ (∀ k, k ≠ b → t.ctx k = s.ctx k) ∧
      (s.ctx b).SameRegs { t.ctx b with src := (s.ctx b).src }) ∧
    (∀ p q ring qa now cf, i = .cqry p q ring qa now cf → (now = true ∨ (s.tail q.toNat).kind = .none) →
      ∃ t, exec i s = .next t ∧ t.cube.qrys = s.cube.qrys ++
        [{ gid := s.ids, part := q.toNat, op := i, bank := b, uid := (s.ctx b).uid, seq := s.seq, due := s.core.beat + 8,
           seen := none }] ∧ (∀ k, t.part k = s.part k) ∧ frame t none) ∧
    (∀ p q cf, i = .csusp p q cf → ∃ t, exec i s = .next t ∧
      let quiet : Prop := (s.part q.toNat).kind = .none ∨ s.running (s.membersOf q.toNat) = []
      let all := s.allPerformed (s.ctx b).uid s.seq
      (∀ k, (t.part k).susp = ((s.part k).susp ||
        decide ((s.part q.toNat).kind ≠ .none ∧ k ∈ s.membersOf q.toNat))) ∧
      (quiet → all = true → 0 < cf.toNat → cf.toNat < 4094 → t.flag cf.toNat = ⟨1, false⟩) ∧
      (quiet → all = false → 0 < cf.toNat → ∃ r : Release, t.ms.rels = s.ms.rels ++ [r] ∧ r.ix = cf.toNat ∧
        r.upd = .set ⟨1, false⟩ ∧ r.scp = .pkg ∧ r.uid = (s.ctx b).uid ∧ r.seq = s.seq) ∧
      (¬quiet → (t.part q.toNat).sflags = (s.part q.toNat).sflags ++
        [⟨cf.toNat, b, (s.ctx b).uid, s.seq, s.running (s.membersOf q.toNat)⟩]) ∧
      frame t (some cf.toNat)) ∧
    (∀ p q, i = .cresm p q → ∃ t, exec i s = .next t ∧
      (∀ k, (t.part k).susp = ((s.part k).susp && !decide ((s.part q.toNat).kind ≠ .none ∧ k ∈ s.membersOf q.toNat))) ∧
      frame t none)

/-! ## System ops -/

/-- 13_jobs R313, 16_system R373 to R376, R378 to R380, 14_fabric R321, R339, 12_sync R290: POST, EVPOP, and an op of the
lease agent behind another of its kind take their place in their queue and lock their scalar until they land; an op of the
context-control unit that names no bank it may, LRCL, LRET, LDISC and FRSV out of range land their status, LQRY lands the
state of its entry, and FREL frees its reservation; LOFFER, LACC, LRCL, LDISC, LRET, FRSV and WSET, the agent being free, do
what R321, R330, R331, R333, R334, R336 and R340 say; RADV claims its slots of an input ring and waits to act, and RWAIT
passes. CSEAT seats its context in a free seat, or asks the occupant to leave, and lands 0 once it is seated; CUNS asks its
context to leave, keeps it from being seated, and lands 0 once it is away; CKIL ends its context, discards its cube ops and its
copies, and lands 0 once the bank is released; CSAV writes the image once the context is away and quiet, empties the bank and
lands the image's length; CRST makes an image's context resident and lands its bank. A status lands behind what is still pending
to its scalar; that the unit settles in the beat of issue what needs no wait is the model's choice (DESIGN CHOICE, log 109). -/
def Obligations.SystemOps : Prop :=
  ∀ (s : State) (b : Nat) (p : Path) (x y z : XReg) (o : SyOp) (drop : Bool) (q : PartId) (ring : BitVec 3) (n : BitVec 8),
    let c := s.ctx b
    let locked (t : State) (d : XReg) : Prop := (t.ctx b).locks = c.locks ++ [⟨.x d.toNat, s.ids⟩]
    let landed (i : Instr) (d : XReg) (v : Word) : Prop :=
      s.Runs b i → d ≠ 0 → ∃ t, exec i s = .next t ∧ (t.ctx b).locks = c.locks ∧
        ((∀ p ∈ c.pend, p.dst ≠ .x d.toNat) → (t.ctx b).xv d.toNat = ⟨v, false⟩) ∧
        ((∃ p ∈ c.pend, p.dst = .x d.toNat) → ∃ n : Pending, (t.ctx b).pend = c.pend ++ [n] ∧ n.dst = .x d.toNat ∧
          n.val = .x ⟨v, false⟩ ∧ ∀ p ∈ c.pend, p.dst = .x d.toNat → p.due < n.due)
    let fails (i : Instr) (d : XReg) (st : Nat) : Prop := landed i d (0x8000000000000000 + BitVec.ofNat 64 st)
    (s.Runs b (.post p x y z) → ∃ (t : State) (e : PostE), exec (.post p x y z) s = .next t ∧ t.sched.posts = s.sched.posts ++ [e] ∧
      e.id = s.ids ∧ e.pkg = (c.xw x).toNat / 2 ^ 48 ∧ e.qaddr = (c.xw x).toNat % 2 ^ 48 ∧ e.asid = c.asid ∧ e.priv = c.priv ∧
      e.card = s.amosFlush.locRead (spadBase + (c.xw y).toNat) 128 ∧ locked t z) ∧
    (s.Runs b (.evpop p x z) → ∃ (t : State) (e : CtlOp), exec (.evpop p x z) s = .next t ∧ t.core.evpops = s.core.evpops ++ [e] ∧
      e.id = s.ids ∧ e.xa = c.xw x ∧ e.due = s.core.beat + 8 ∧ t.sched = s.sched ∧ locked t z) ∧
    (∀ e ∈ [(Instr.loffer p x z, z), (.lacc p x z, z), (.lrcl o, o.xd), (.ldisc o, o.xd), (.lret p x z drop, z), (.lqry o, o.xd),
        (.frsv p x z, z), (.frel p x, 0), (.wset p x z, z)],
      s.Runs b e.1 → (∀ a ∈ s.fab.agent, a.began = true) → (∃ a ∈ s.fab.agent, agentKind a.op = agentKind e.1) →
      ∃ (t : State) (a : AgentOp), exec e.1 s = .next t ∧ t.fab = { s.fab with agent := s.fab.agent ++ [a] } ∧ a.op = e.1 ∧
        a.id = s.ids ∧ a.began = false ∧ locked t e.2) ∧
    ((∀ l ∈ c.locks, l.id < s.ids) → s.core.ctlOps = [] →
      (15 ≤ (c.xw o.xa).toNat → fails (.cseat o) o.xd 2 ∧ fails (.crsmAt o) o.xd 2) ∧
      (15 ≤ (c.xw x).toNat → fails (.cuns p x z) z 2 ∧ fails (.crsm p x z) z 2 ∧ fails (.ckil p x z) z 2) ∧
      ((c.xw o.xa).toNat = 15 → fails (.csav o) o.xd 5) ∧ (15 < (c.xw o.xa).toNat → fails (.csav o) o.xd 2) ∧
      ((c.xw o.xa).toNat % 4096 ≠ 0 → fails (.crst o) o.xd 2)) ∧
    ((∀ l ∈ c.locks, l.id < s.ids) → s.fab.agent = [] →
      ((c.xw o.xa).toNat < 64 ∨ 126 < (c.xw o.xa).toNat → fails (.lrcl o) o.xd 2) ∧
      (c.xw o.xb = 0 → fails (.ldisc o) o.xd 2) ∧ (c.xw x = 0 → fails (.lret p x z drop) z 2 ∧ fails (.frsv p x z) z 2) ∧
      (0 < (c.xw o.xa).toNat → (c.xw o.xa).toNat ≤ 126 →
        landed (.lqry o) o.xd (BitVec.ofNat 64 (s.lease (c.xw o.xa).toNat).lst.num)) ∧
      (s.Runs b (.frel p x) → (c.xw x).toNat < 256 → ∃ t, exec (.frel p x) s = .next t ∧
        ∀ k, tfind t.fab.resv k = if k = (c.xw x).toNat ∧ (tfind s.fab.resv k).map (·.held) = some true then none
          else tfind s.fab.resv k)) ∧
    (s.ms.amos = [] → s.fab.agent = [] → (∀ l ∈ c.locks, l.id < s.ids) → LeaseEffects s b p x z o) ∧
    (∀ u, WindowChangeApplies s u) ∧
    (s.Runs b (.radv p q ring n) → ((s.tail q.toNat).targets q.toNat).Nodup → ∃ t, exec (.radv p q ring n) s = .next t ∧
      (∃ r ∈ t.cube.radvs, r.id = s.ids ∧ r.uid = c.uid ∧ r.seq = s.seq ∧ r.ids = (s.tail q.toNat).targets q.toNat ∧
        r.ring = ring.toNat ∧ r.ns = n.toNat ∧ r.claimed = true) ∧
      (∀ k, k ∉ (s.tail q.toNat).targets q.toNat → t.part k = s.part k) ∧
      ∀ k ∈ (s.tail q.toNat).targets q.toNat, ∀ r, tfind (s.part k).rings ring.toNat = some r →
        tfind (t.part k).rings ring.toNat = some (if ringIn r.cfg then
          { r with claims := r.claims ++ List.replicate n.toNat ⟨s.ids, false⟩ } else r)) ∧
    (s.Runs b (.rwait p q ring n) → exec (.rwait p q ring n) s = .next (s.after b id)) ∧
    (∀ k j, k = (c.xw o.xa).toNat → j = (c.xw o.xb).toNat → k < 15 → j < 4 → s.hasCtx k = true → (s.ctx k).ended = none →
      (s.ctx k).held = 0 → s.core.ctlOps = [] →
      (∀ m, s.seatOf k = some m → s.seat m = .seated k → (∀ l ∈ c.locks, l.id < s.ids) → landed (.cseat o) o.xd 0) ∧
      (s.seatOf k = none → s.away k = true → s.seat j = .free → s.Runs b (.cseat o) → ∃ t, exec (.cseat o) s = .next t ∧
        t.seat j = .seating k (s.core.beat + 8) ∧ t.ctx k = { s.ctx k with noSeat := false } ∧ locked t o.xd ∧
        ∀ m, m ≠ j → t.seat m = s.seat m) ∧
      (∀ v, s.seatOf k = none → s.seat j = .seated v → s.hasCtx v = true → s.Runs b (.cseat o) → ∃ t, exec (.cseat o) s = .next t ∧
        tfind t.core.want j = some k ∧ (t.ctx v).unseat = true ∧ (t.ctx k).noSeat = false ∧ locked t o.xd)) ∧
    (∀ k, k = (c.xw x).toNat → k < 15 → s.hasCtx k = true → (s.ctx k).ended = none → s.core.ctlOps = [] →
      ((s.ctx k).held = 0 →
        (s.away k = true → (∀ l ∈ c.locks, l.id < s.ids) → landed (.cuns p x z) z 0) ∧
        (s.Runs b (.cuns p x z) → ∃ t, exec (.cuns p x z) s = .next t ∧ (t.ctx k).noSeat = true ∧
          ∀ m, s.seatOf k = some m → (t.ctx k).unseat = true ∧ locked t z)) ∧
      (k ≠ b → s.Runs b (.ckil p x z) → ∃ t, exec (.ckil p x z) s = .next t ∧ locked t z ∧
        (t.ctx k).ended = some (.killed (s.ctx k).held) ∧ (t.ctx k).held = 0 ∧
        (∀ m, s.seatOf k = some m → t.seat m = .unseating k (s.core.beat + 8)) ∧
        (∀ h < 16, (∀ e ∈ (t.part h).queue, e.uid ≠ (s.ctx k).uid) ∧ ((s.part h).uid = (s.ctx k).uid → (t.part h).queue = [])) ∧
        (∀ q ∈ t.copy.queues, ∀ d ∈ q.2, d.uid ≠ (s.ctx k).uid))) ∧
    (∀ k, k = (c.xw o.xa).toNat → k < 15 → k ≠ b → (c.xw o.xb).toNat % 4096 = 0 → inHbm (c.xw o.xb).toNat 69632 = true →
      s.hasCtx k = true → (s.ctx k).ended = none → (s.ctx k).streams = [] → s.core.ctlOps = [] → s.Runs b (.csav o) →
      ∃ t, exec (.csav o) s = .next t ∧ locked t o.xd ∧ (t.ctx k).noSeat = true ∧ (t.ctx k).unseat = (s.seatOf k).isSome ∧
        t.core.ctlOps.map (·.id) = [s.ids]) ∧
    ((c.xw o.xa).toNat % 4096 = 0 → inHbm (c.xw o.xa).toNat 69632 = true → ((c.xw o.xb).toNat < 15 ∨ (c.xw o.xb).toNat = 31) →
      s.core.ctlOps = [] → s.Runs b (.crst o) →
      ∃ t, exec (.crst o) s = .next t ∧ locked t o.xd ∧ t.core.ctlOps.map (·.id) = [s.ids]) ∧
    (∀ (u : CtlOp) (k j due : Nat), s.core.ctlOps = [u] → u.began = true → u.xa.toNat = k →
      (∀ e, u.op = .cseat e → s.arg = .id j → j < 4 → s.seat j = .seating k due → due ≤ s.core.beat →
        ∃ t, exec .seatingComplete s = .next t ∧ t.seat j = .seated k ∧ Answered s t u 0) ∧
      (∀ e, u.op = .cseat e → s.arg = .id j → j < 4 → (∃ v, v ≠ k ∧ s.seat j = .unseating v due) → due ≤ s.core.beat →
        s.core.want = [(j, k)] → s.hasCtx k = true → (s.ctx k).ended = none → (s.ctx k).held = 0 → s.away k = true →
        ∃ t, exec .unseatingComplete s = .next t ∧ t.seat j = .seating k (s.core.beat + 8) ∧ t.core.want = []) ∧
      (∀ p x z, u.op = .cuns p x z → s.arg = .id j → j < 4 → s.seat j = .unseating k due → due ≤ s.core.beat → s.core.want = [] →
        (∀ m, m ≠ j → s.seat m = .free) → ∃ t, exec .unseatingComplete s = .next t ∧ t.seat j = .free ∧ Answered s t u 0) ∧
      (∀ p x z f, u.op = .ckil p x z → s.arg = .id k → k ≠ 15 → s.hasCtx k = true → (s.ctx k).ended = some f → (s.ctx k).locks = [] →
        (s.ctx k).pend = [] → (s.core.banks.map (·.1)).Nodup →
        ∃ t, exec .bankRelease s = .next t ∧ t.hasCtx k = false ∧ Answered s t u 0) ∧
      (∀ e, u.op = .csav e → k < 15 → s.hasCtx k = true → (s.ctx k).uid = u.who → (s.ctx k).ended = none → s.away k = true →
        (s.ctx k).streams = [] → (s.ctx k).pend = [] → (s.ctx k).locks = [] → (∀ e ∈ (s.ctx k).clusters, ∀ d, e.2 ≠ .waking d) →
        (s.ctx k).dly < 4 → (s.ctx k).loops.length < 8 → s.ms.flight = [] → s.allPerformed u.uid u.seq = true →
        let m := 69632 + 1048576 * ((List.range 4).filter fun h => (s.ctx k).clus h == .awake).length
        let a := u.xb.toNat
        inHbm a m = true → s.unitsReady a m = true → s.unitsGone a m = false → (s.core.banks.map (·.1)).Nodup →
        ∃ t, exec .contextSaveComplete s = .next t ∧ t.hasCtx k = false ∧ ImageAt t a (s.ctx k) ∧ Answered s t u (BitVec.ofNat 64 m) ∧
          ∀ y, (y < a ∨ a + m ≤ y) → y < spadBase → t.locByte y = s.locByte y) ∧
      (∀ e j, u.op = .crst e → u.xb.toNat = j → j < 15 → s.bankEmpty j = true →
        let up := (List.range 4).filter fun h => (numAt s (k + 6) 1).testBit h
        let m := 69632 + 1048576 * up.length
        s.allPerformed u.uid u.seq = true → inHbm k m = true → s.unitsReady k m = true → s.unitsGone k m = false → s.imageOk k = true →
        s.bankHas j (numAt s (k + 6) 1) = true →
        ∃ t, exec .contextRestoreComplete s = .next t ∧ t.hasCtx j = true ∧ Answered s t u (BitVec.ofNat 64 j) ∧ t.ms.mem = s.ms.mem ∧
          let v := t.ctx j
          (∀ h < 4, v.clus h = if (numAt s (k + 6) 1).testBit h then .awake else .gated) ∧
          v.pc.toNat = numAt s (k + 16) 8 / 2 ^ 48 ∧ v.held = numAt s (k + 180) 1 ∧ v.streams = [] ∧ v.locks = [] ∧ v.pend = [] ∧
          v.rmask.toNat = numAt s (k + 184) 8 ∧ v.asid.toNat = numAt s (k + 8) 8 % 2 ^ 13 ∧
          (∀ r < 64, r ≠ 0 → (v.xv r).val.toNat = numAt s (k + 592 + 8 * r) 8) ∧
          (∀ r < 32, (v.hv r).hst = if bitsOf (numAt s (k + 1104 + 16 * r) 8) 12 2 = 0 then .empty else .lazy) ∧
          (∀ r < 16, r ≠ 0 → ∀ l < 32768, (v.mv r).bits.getLsbD l = (s.locByte (k + 4096 + 4096 * r + l / 8)).getLsbD (l % 8)) ∧
          ∀ i h, up[i]? = some h → ∀ d < 8, ∀ l < 32768,
            ((v.vv (8 * h + d)).lane l).toNat = numAt s (k + 69632 + 1048576 * i + 131072 * d + 4 * l) 4))

/-! ## Exceptions -/

/-- 16_system R364, R366, R368, R369, R377: a fault or trap of a job's context leaves it held at its resume bundle with its
delay state, away from its seat, and its record of 32 bytes waiting for the vent; a fault of the steward pushes its record
and continues at bundle 0 with no loops, no delay state and x1 naming the record; CRSM makes a held context ready at its
position, and CRSM.at at the entry, with no loops, no delay state and x1 from xb. -/
def Obligations.ExceptionEntryAndReturn : Prop :=
  (∀ (s : State) (b : Nat) (e : Ev) (slot : Nat) (epc eres : BundleNo), s.hasCtx b = true → b ≠ 15 →
    let t := s.takeException b e slot epc eres
    (t.ctx b).held = e.code ∧ (t.ctx b).pc = eres ∧ (t.ctx b).dly = (s.ctx b).dly ∧ (t.ctx b).dtgt = (s.ctx b).dtgt ∧
    (s.ctx b).SameRegs { t.ctx b with held := (s.ctx b).held } ∧ (∀ k, k ≠ b → t.ctx k = s.ctx k) ∧
    (∀ k, s.seatOf b = some k → t.seat k = .unseating b (s.core.beat + 8)) ∧ t.ms = s.ms ∧
    t.sched = { s.sched with ventQ := s.sched.ventQ ++
      [{ at_ := s.core.beat, code := e.code, slot := slot, half := e.half, held := true, bank := some b, epc := epc, eres := eres,
         info1 := BitVec.ofNat 64 e.info1, info2 := BitVec.ofNat 64 e.info2, card := (s.ctx b).card.setWidth 32, stew := false }] }) ∧
  (∀ (s : State) (e : Ev) (slot : Nat) (epc eres : BundleNo), s.hasCtx 15 = true → s.sched.ventQ = [] → s.ventCount < 1008 →
    let t := s.takeException 15 e slot epc eres
    let a := 0x0FFF8000 + 32 * (s.sched.vhead.toNat % 1024)
    (t.ctx 15).pc = 0 ∧ (t.ctx 15).loops = [] ∧ (t.ctx 15).dly = 0 ∧ (t.ctx 15).held = (s.ctx 15).held ∧
    (t.ctx 15).xv 1 = ⟨BitVec.ofNat 64 a, false⟩ ∧ (∀ n, n ≠ 1 → (t.ctx 15).xv n = (s.ctx 15).xv n) ∧
    t.core.seats = s.core.seats ∧ t.sched.vhead = s.sched.vhead + 1 ∧ t.flag 0 = ⟨s.sched.vhead + 1 - s.sched.vtail, false⟩ ∧
    ∃ r : VentE, t.locRead (spadBase + a) 32 = r.bytes s.sched.vhead ∧ r.code = e.code ∧ r.slot = slot ∧ r.half = e.half ∧
      r.held = false ∧ r.bank = some 15 ∧ r.epc = epc ∧ r.eres = eres ∧ r.info1 = BitVec.ofNat 64 e.info1 ∧
      r.info2 = BitVec.ofNat 64 e.info2) ∧
  (∀ (r : VentE) (seq : BitVec 32),
    let f (ofs n : Nat) : Nat := leNat (((r.bytes seq).drop ofs).take n)
    (r.bytes seq).length = 32 ∧ f 0 1 = r.code % 256 ∧ f 1 1 = (r.slot + 16 * r.half.toNat + 32 * r.held.toNat) % 256 ∧
    (∀ k, r.bank = some k → f 2 1 = (k + 128) % 256) ∧ (r.bank = none → f 2 1 = 0) ∧ f 3 1 = 0 ∧ f 4 2 = r.epc.toNat ∧
    f 6 2 = r.eres.toNat ∧ f 8 8 = r.info1.toNat ∧ f 16 8 = r.info2.toNat ∧ f 24 4 = r.card.toNat ∧ f 28 4 = seq.toNat) ∧
  (∀ (s : State) (b k : Nat) (p : Path) (x z : XReg) (o : SyOp), k ≠ b → k < 15 → s.hasCtx k = true → (s.ctx k).held ≠ 0 →
    (s.ctx k).ended = none → s.core.ctlOps = [] →
    (s.Runs b (.crsm p x z) → (s.ctx b).xw x = BitVec.ofNat 64 k → ∃ t, exec (.crsm p x z) s = .next t ∧
      t.ctx k = { s.ctx k with held := 0, since := 0, noSeat := false, dline := none }) ∧
    (s.Runs b (.crsmAt o) → (s.ctx b).xw o.xa = BitVec.ofNat 64 k → ∃ t, exec (.crsmAt o) s = .next t ∧
      t.ctx k = ({ s.ctx k with held := 0, since := 0, noSeat := false, dline := none, loops := [], dly := 0, dtgt := 0
                                pc := ((s.ctx b).xw o.xb).extractLsb' 0 16 } : Ctx).setX 1
        ⟨(((s.ctx b).xw o.xb).extractLsb' 16 32).setWidth 64, false⟩))

/-! ## The machine as a whole -/

/-- 18_platform R397, 16_system R363, R365, 04_sequencing R74, R77, 12_sync R275, 17_power R386, R391: right after reset the
steward is the one context, in bank 15 and seat 0, privileged, at its entry, with x1 naming the readiness block, every other
scalar 0 and unmarked, every region in its mask, no loops and no delay state; every flag is 0 but f4095; f0, the vent, the
engines' queues and the ports hold nothing; egrant allows all; and the memories are in their canonical form. The values that
the spec does not give are those of log entries 2 to 11. -/
def Obligations.ResetState : Prop :=
  let s := State.reset
  let c := s.ctx 15
  (∀ b, s.hasCtx b = true ↔ b = 15) ∧ s.seat 0 = .seated 15 ∧ (∀ k, k ≠ 0 → s.seat k = .free) ∧ c.priv = true ∧ c.pc = 0 ∧
  c.xv 1 = ⟨0x0FFF7E80, false⟩ ∧ (∀ n, n ≠ 1 → c.xv n = ⟨0, false⟩) ∧ c.rmask = BitVec.allOnes 64 ∧ c.asid = 0 ∧
  c.loops = [] ∧ c.dly = 0 ∧ c.fpx = 0 ∧ c.fpm = 0 ∧ c.srs = 0 ∧ c.src = 0 ∧ c.vrb = 0 ∧ c.mrb = 0 ∧ c.bcnt = 0 ∧
  (∀ k, c.stall k = 0) ∧ c.held = 0 ∧ (∀ n, n ≠ 4095 → (s.flag n).val = 0) ∧ (s.flag 4095).val = 1 ∧ s.core.bsel = 15 ∧
  s.sched.vhead = 0 ∧ s.sched.vtail = 0 ∧ s.sched.vdrop = 0 ∧ s.pow.grant = 1023 ∧ s.pow.ccap = 0xFFF ∧
  (∀ p, (s.part p).kind = .none ∧ (s.part p).queue = []) ∧ s.copy.queues = [] ∧
  s.sched.ventQ = [] ∧ s.fab.txq = [] ∧ s.fab.inbox = [] ∧ s.fab.reqs = [] ∧
  (∀ k, (s.port k).up = false ∧ (s.port k).unack = [] ∧ (s.port k).again = [] ∧ (s.port k).wire = none) ∧ s.MemOk

/-- 10_memory R225, R232, 08_cube R184, 04_sequencing R72 (the memories of the machine; log 3 and log 4 give what an unlisted
byte reads as): every step, whatever happens in it, keeps local memory, the instruction store and the weight banks in their
canonical form: addresses strictly rising, no entry equal to what an unlisted address reads as. -/
def Obligations.EveryStepKeepsMemoryCanonical : Prop :=
  ∀ s t : State, s.MemOk → step s = .next t → t.MemOk

/-! ## What the engines leave -/

/-- The products that a cell adds in one step: those of its elements from `k0` on that lie below K (08_cube R196). -/
def cellProducts (c : CmmOp) (k0 : Nat) (a b : List (Nat × Nat)) : List XR :=
  let el (f : BitVec 4 → Fmt) (l : List (Nat × Nat)) (t : Nat) : XR := mxVal (f c.fmt) (fmtMx c.fmt) (l.getD t (0, 0))
  (List.range (fmtP c.fmt)).map fun t => if k0 + t < cmmK c then (XR.mul (el fmtA a t) (el fmtB b t)).1 else .zero false

/-- The same of an op on integers. -/
def cellIntegers (c : CmmOp) (k0 : Nat) (a b : List (Nat × Nat)) : List Int :=
  let el (sg : Bool) (l : List (Nat × Nat)) (t : Nat) : Int := intVal sg 8 (l.getD t (0, 0)).1
  (List.range (fmtP c.fmt)).map fun t => if k0 + t < cmmK c then el true a t * el (c.fmt == 8) b t else 0

/-- RNE32 of an exact sum (05_numbers R119). -/
def sum32 (l : List XR) : Nat := (fF32.round (XR.sum .rne (l.map fun x => (x, false))).1 .rne false 0).1

/-- A value passed into a cell and its products, rounded once; integers wrap (08_cube R196, 05_numbers R119, R120). -/
def cellOut (c : CmmOp) (z : Option Nat) (k0 : Nat) (a b : List (Nat × Nat)) : Nat :=
  if 8 ≤ c.fmt.toNat then wrapInt ((z.getD 0 : Nat) + (cellIntegers c k0 a b).foldl (· + ·) 0) 32
  else match z with
    | none => sum32 (cellProducts c k0 a b)
    | some y => (fF32.round (XR.add .rne (fF32.val y)
        (XR.sum .rne ((cellProducts c k0 a b).map fun x => (x, false))).1).1 .rne false 0).1

/-- What comes down a chain of layers, whose cells past K pass on what they take (08_cube R196). -/
def chainOut (c : CmmOp) : Option Nat → List (Nat × List (Nat × Nat) × List (Nat × Nat)) → Option Nat
  | z, [] => z
  | z, o :: l => chainOut c (if cmmK c ≤ o.1 then z else some (cellOut c z o.1 o.2.1 o.2.2)) l

/-- 05_numbers R119, R120, 08_cube R196, R197, R199, R205: a step of a CMM or CMMP enters. Of the operands that it reads at
each position of its lines, each cell of the op region adds the products: in a plane op, in the accumulator of each layer,
rounded once; else down the chain of layers and into that of the last one, rounded at each layer and at the accumulator; an
op with `INIT` begins at 0. Every other cell is as it was, and the step and its cycle are counted. That a mark of a west line
reaches its own rows alone, and one of a north line every row of the region, is the model's choice (log 45). -/
def StepEnters (s : State) (n : Nat) (e : QEntry) (es : List QEntry) (c : CmmOp) (plane : Bool) : Prop :=
  let v := s.part n
  let q := v.quads
  let a := c.acc.toNat
  let ls := layersOf c.lmask
  let rows := partOf (cmmRows c) e.org.1 (quadRows q)
  let cols := partOf (cmmCols c) e.org.2 (quadCols q)
  let first := c.init = true ∧ e.steps = 0
  let pos (face l j w : Nat) := s.readPos v e c plane (s.lineSrc n e c face) face l j e.steps w
  let k0 (j : Nat) : Nat := (if plane then e.steps else e.steps * ls.length + j) * fmtP c.fmt
  let key (l y x : Nat) : Nat := 65536 * (2 * (4 * l + quadAt q y x) + a) + 256 * (y % 256) + x % 256
  let old (l y x : Nat) : Nat := if first then 0 else (tget s.cube.acc (key l y x) 0).toNat
  let cell (y x : Nat) (o : Nat × Nat) : Nat × List (Nat × Nat) × List (Nat × Nat) :=
    let w := (pos 0 o.1 o.2 y).1
    let m := (pos 1 o.1 o.2 x).1
    (k0 o.2, if c.t then (m, w) else (w, m))
  let layers : List Nat := if plane then ls else [v.last]
  let dirty (y j l : Nat) : Prop := k0 j < cmmK c ∧ ((pos 0 l j y).2 = true ∨ ∃ x < quadCols q, (pos 1 l j x).2 = true)
  let markOf (l y x : Nat) : Nat := 256 * (2 * (4 * l + quadAt q y x) + a) + y % 256
  let was (l y : Nat) : Prop := ¬first ∧ ∃ x < quadCols q, markOf l y x ∈ s.cube.accMark
  ∃ t, exec .computeStepEntry s = .next t ∧ t.ms.mem = s.ms.mem ∧ t.core = s.core ∧
    t.part n = { v with queue := { e with steps := e.steps + 1, lastAt := v.cyc } :: es, cyc := v.cyc + 1, budget := v.budget - 1 } ∧
    (plane = false → ∀ y < rows, ∀ x < cols, tget t.cube.acc (key v.last y x) 0 =
      BitVec.ofNat 32 (match chainOut c none (ls.zipIdx.map (cell y x)) with
        | none => old v.last y x
        | some z => if 8 ≤ c.fmt.toNat then (old v.last y x + z) % 2 ^ 32
          else (fF32.round (XR.add .rne (fF32.val (old v.last y x)) (fF32.val z)).1 .rne false 0).1)) ∧
    (plane = true → ∀ o ∈ ls.zipIdx, ∀ y < rows, ∀ x < cols, tget t.cube.acc (key o.1 y x) 0 =
      BitVec.ofNat 32 ((chainOut c (some (old o.1 y x)) [cell y x o]).getD 0)) ∧
    (∀ k, (∀ l ∈ layers, ∀ y < rows, ∀ x < cols, k ≠ key l y x) → tget t.cube.acc k 0 = tget s.cube.acc k 0) ∧
    (plane = false → ∀ y < rows, ∀ x < quadCols q,
      (markOf v.last y x ∈ t.cube.accMark ↔ was v.last y ∨ ∃ o ∈ ls.zipIdx, dirty y o.2 o.1)) ∧
    (plane = true → ∀ o ∈ ls.zipIdx, ∀ y < rows, ∀ x < quadCols q,
      (markOf o.1 y x ∈ t.cube.accMark ↔ was o.1 y ∨ dirty y o.2 o.1)) ∧
    ∀ k, (∀ l ∈ layers, ∀ y < rows, ∀ x < quadCols q, k ≠ markOf l y x) → (k ∈ t.cube.accMark ↔ k ∈ s.cube.accMark)

/-- An accumulator as a drain writes it (08_cube R201, 05_numbers R105, R106, R123): a float rounded to `DFMT`; an integer
rounded half up at its shift and narrowed. -/
def drainedBits (c : CdrnOp) (srs src : BitVec 32) (x : Lane) (a b : Nat) : Nat :=
  let fl (f : Fmt) : Nat :=
    (f.round (fF32.val x.toNat) ((Rnd.ofCode c.rnd).getD .rne) c.sat (srBits srs src (4096 * a + b) 0)).1
  let z : Int := if c.shift = 0 then x.toInt else (x.toInt + 2 ^ (c.shift.toNat - 1)) / 2 ^ c.shift.toNat
  match c.dfmt.toNat with
  | 0 => fl fF32
  | 1 => fl fBF16
  | 2 => fl fF16
  | 3 => fl fE4M3
  | 4 => fl fE5M2
  | 5 => narrow z true 32 c.sat
  | 6 => narrow z true 16 c.sat
  | 7 => narrow z true 8 c.sat
  | _ => narrow z false 8 c.sat

/-- 08_cube R189, R191, R199 to R202, R205, 12_sync R280, 09_partitions R208: a drain that is due completes. Its matrix stands
in row-major order, transposed towards the east, in the tail slot of its ring, whose fill and tail go on; a line that holds an
element of a marked row is poisoned; its accumulator is drained, and its flag is 1. No other byte changes but its flag's and
those of the power status block. That it reads its accumulator as it completes is the model's choice (log 46). -/
def DrainWrites (s : State) (n : Nat) (e : QEntry) (c : CdrnOp) (r : Ring) : Prop :=
  let v := s.part n
  let q := v.quads
  let rows := drainRows c q e.org
  let cols := drainCols c q e.org
  let nb := drainBytes c.dfmt
  let cell (i : Nat) : Nat × Nat := if c.east then (i % rows, i / rows) else (i / cols, i % cols)
  let lane (y x : Nat) : Lane :=
    tget s.cube.acc (65536 * (2 * (4 * c.dlay.toNat + quadAt q y x) + c.acc.toNat) + 256 * (y % 256) + x % 256) 0
  let bits (i : Nat) : Nat :=
    let (y, x) := cell i
    if c.east then drainedBits c e.srs e.src (lane y x) x y else drainedBits c e.srs e.src (lane y x) y x
  let at_ (i j : Nat) : Nat := spadBase + faceAddr q c.dlay.toNat r.cfg.face.toNat (slotOfs q r.cfg r.tail + nb * i + j)
  ∃ t, exec .cdrnComplete s = .next t ∧
    (∀ i < rows * cols, ∀ j < nb, t.locByte (at_ i j) = BitVec.ofNat 8 (bits i >>> (8 * j)) ∧
      (s.rowMark q c.dlay.toNat c.acc.toNat (cell i).1 = true → t.locPoi (at_ i j) 1 = true)) ∧
    (∀ a, (∀ i < rows * cols, ∀ j < nb, a ≠ at_ i j) → ¬ofFlag (some c.cflag.toNat) a → ¬ofPower a → t.locByte a = s.locByte a) ∧
    (t.part n).queue = [] ∧
    tfind (t.part n).rings c.ring.toNat =
      some { r with fill := r.fill + 1, counted := r.counted + 1, tail := (r.tail + 1) % r.cfg.slots.toNat } ∧
    (∀ k ∈ quadList q, 2 * (4 * c.dlay.toNat + k) + c.acc.toNat ∉ t.cube.undr) ∧
    (c.cflag ≠ 0 → c.cflag.toNat < 4094 → t.flag c.cflag.toNat = ⟨1, false⟩)

/-- 11_copy R255, R256, R260, R264, R273, 05_numbers R106, 10_memory R251: a copy from hearth memory to hearth memory that one
beat can move, at the head of its channel, moves and completes. The destination bytes are the source's, or the elements
converted, in pattern order; bytes that come of a marked one are marked; its flag is set or counts; the channel's next
descriptor is at the head, and its reports count the copy. No other byte changes but its flag's. -/
def CopyLands (s : State) (ch : Nat) (d : Desc) (l : List Desc) (sa da : Nat → Nat) : Prop :=
  let r := d.rec_
  let bytes (m : Nat) : List Byte := (List.range r.ssz).map fun i => s.locByte (spadBase + sa m + i)
  let out (m : Nat) : List Byte :=
    if r.conv = 0 then bytes m
    else
      let f := if r.conv = 1 then fBF16 else if r.conv = 2 then fE4M3 else fE5M2
      leBytes r.dsz (f.round (fF32.val (leNat (bytes m))) ((Rnd.ofCode (BitVec.ofNat 3 r.rnd)).getD .rne) r.sat
        (srBits d.srs d.srcC (m % 2 ^ 32) 0)).1
  ∃ t, exec .copyComplete s = .next t ∧
    (∀ m < r.elems, ∀ j < r.dsz, (out m)[j]? = some (t.locByte (spadBase + da m + j)) ∧
      ((∃ i < r.ssz, s.locPoi (spadBase + sa m + i) 1 = true) → t.locPoi (spadBase + da m + j) 1 = true)) ∧
    (∀ a, (∀ m < r.elems, ∀ j < r.dsz, a ≠ spadBase + da m + j) → ¬ofFlag (some d.cflag) a → t.locByte a = s.locByte a) ∧
    tget t.copy.queues ch [] = l ∧
    (0 < d.cflag → d.cflag < 4094 → t.flag d.cflag = ⟨if d.cadd then (s.flagNow d.cflag).val + 1 else 1, false⟩) ∧
    ∀ b, s.bankOf d.uid d.bank = some b → s.hasCtx b = true →
      (t.ctx b).chst ch = { (s.ctx b).chst ch with
        done := ((s.ctx b).chst ch).done + 1, bytes := ((s.ctx b).chst ch).bytes + BitVec.ofNat 64 r.total }

/-! ## Happenings -/

/-- 02_bundle R22, 08_cube R196, R199, R201, 11_copy R260, R261 and the rule of each event row: a happening that is enabled
takes place, whole, in one step, and one that is not leaves the machine as it was; that a row happens whole, and that the
head of the agenda goes first, is the model's choice (logs 1 and 66). And what the engines' happenings leave: an accumulator
after a step (`StepEnters`), a slot of a ring after a drain (`DrainWrites`), and a copy's destination (`CopyLands`). -/
def Obligations.EnabledEventsTakePlace : Prop :=
  (∀ (s : State) (n : Nat) (e : QEntry) (es : List QEntry) (c : CmmOp) (plane : Bool), s.arg = .step n ⟨[], [], []⟩ →
    (s.part n).queue = e :: es → (∀ x ∈ es, x.gid ≠ e.gid) → e.op = (if plane then .cmmp c else .cmm c) → e.started = true →
    e.steps < cmmSteps plane c → 0 < (s.part n).budget → (s.part n).hop = none → s.linesReady n e = true →
    StepEnters s n e es c plane) ∧
  (∀ (s : State) (n : Nat) (e : QEntry) (c : CdrnOp) (r : Ring), s.arg = .id n →
    let v := s.part n
    v.queue = [e] → e.op = .cdrn c → e.started = true → tfind v.rings c.ring.toNat = some r →
    v.reach (e.begun + (if c.east then drainCols c v.quads e.org else drainRows c v.quads e.org) + 32) = true →
    (∀ b ∈ v.blocks, s.droops b = false) → c.dlay.toNat < 12 → 64 ∣ slotOfs v.quads r.cfg r.tail →
    slotOfs v.quads r.cfg r.tail + drainBytes c.dfmt * (drainRows c v.quads e.org * drainCols c v.quads e.org) ≤ nQuads v.quads * 2 ^ 20 →
    (∀ k < 16, (s.part k).sflags = [] ∧ (k ≠ n → ∀ x ∈ (s.part k).queue, x.gid ≠ e.gid)) → DrainWrites s n e c r) ∧
  (∀ (s : State) (ch : Nat) (d : Desc) (l : List Desc) (a b : Nat) (sa da : Nat → Nat), s.arg = .id ch →
    tget s.copy.queues ch [] = d :: l → (∀ x ∈ l, x.id ≠ d.id) → d.kind = .copy → d.started = true → d.sent = false →
    d.ended = false → d.err = none → d.moved = 0 → d.old = [] → d.hostWr = [] → d.swaps = [] → d.gens = [] → d.rflag = false →
    d.bflag = 0 → d.begun + 16 ≤ s.core.beat → s.room ch = 256 → s.fab.reqs = [] →
    let r := d.rec_
    0 < r.elems → 0 < r.dsz → r.elems * r.dsz ≤ 256 → (r.conv = 0 → r.ssz = r.dsz) → d.src = .spad a → d.dst = .spad b →
    (∀ m < r.elems, (sa m : Int) = a + r.srcOf m ∧ (da m : Int) = b + r.dstOf m ∧
      (∀ i < r.ssz, sa m + i < 0x10000000 ∧ s.regionsOk d.rmask (sa m + i) 1 = true ∧ s.touchedNow (regionOf (sa m + i)) = false) ∧
      (∀ j < r.dsz, da m + j < 0x0FFF7C00 ∧ s.regionsOk d.rmask (da m + j) 1 = true ∧ s.touchedNow (regionOf (da m + j)) = false) ∧
      ∀ k < r.elems, ∀ j < r.dsz, (∀ i < r.ssz, sa k + i ≠ da m + j) ∧ ∀ i < r.dsz, da k + i = da m + j → k = m ∧ i = j) →
    CopyLands s ch d l sa da) ∧
  (∀ s : State, ∀ e ∈ eventRows s s.arg, exec e.1 s = .next (e.2.getD s)) ∧
  (∀ (s : State) (e : VentE) (l : List VentE), s.sched.ventQ = e :: l →
    exec .eventRecordPush s = .next (({ s with sched := { s.sched with ventQ := l } } : State).pushRecord e).1) ∧
  (∀ (s : State) (i : Instr) (a : Arg) (l : List (Instr × Arg)), s.agenda = (i, a) :: l → i.slot = none → i ≠ .bundleIssue →
    step s = exec i { s with agenda := l, arg := a })

/-- 04_sequencing R71, R78, R93 to R98, 12_sync R280, 13_jobs R307, R309, 16_system R366, 17_power R382, R383, 18_platform
R398, R403, R405, R407, 08_cube R203: what happenings do. A scalar, a sheet, a mask, a handle and a compare's flag land in
their registers with their marks and flags, and nowhere else; a release sets its flag; a RADV that may act fills its slots of
an input ring or frees those of a drain ring; seats fill and empty; a cluster wakes with its sheets 0; a deadline holds its
context with code 0x06; a record enters the vent; droops, holds and hops begin and end, a hop of CRAIL among them, which sets
the request alone where the blocks are on that rail or held low; a unit becomes ready; attestation counts its leaf; an
instruction-store load places its next bundle; a warm reset is counted. That a release which could not land in its first beat
lands during a later one is the model's reading (log 16), that a cold and a warm start keep the leaf counter its choice and
reading (logs 10 and 32), and so are the package's number, which both keep (log 6), and the cycles that a droop's beginning
and end find begun (log 99). -/
def Obligations.EventEffects : Prop :=
  ∀ (s : State) (n k : Nat),
    let took (i : Instr) (P : State → Prop) : Prop := ∃ t, exec i s = .next t ∧ P t
    (∀ (c : Ctx) (p : Pending), s.core.banks = [(k, c)] → s.core.evpops = [] → c.pend = [p] → p.blks = [] → p.due ≤ s.core.beat →
      took .resultLands fun t => (t.ctx k).fpx = (c.fpx ||| p.fpx) ∧ (t.ctx k).pend = [] ∧
        (∀ m, (t.ctx k).xv m = match p.dst, p.val with
          | .x r, .x v => if m = r ∧ r ≠ 0 then v else c.xv m
          | _, _ => c.xv m) ∧
        (∀ m, m / 8 ∉ c.bad → (t.ctx k).vv m = match p.dst, p.val with
          | .v r, .v w => if m = r ∧ c.clus (r / 8) ≠ .gated then w else c.vv m
          | _, _ => c.vv m) ∧
        (∀ m, (t.ctx k).mv m = match p.dst, p.val with
          | .m r, .m w => if m = r ∧ r ≠ 0 then w else c.mv m
          | _, _ => c.mv m) ∧
        (∀ m, (t.ctx k).hv m = match p.dst, p.val with
          | .h r, .h w => if m = r then w else c.hv m
          | _, _ => c.hv m) ∧
        (∀ m, t.flag m = match p.dst, p.val with
          | .flag r, .flag w => if m = r ∧ r < 4094 ∧ tget s.ms.flagSeq r 0 ≤ p.seq then w else s.flag m
          | _, _ => s.flag m)) ∧
    (∀ (r : Release) (l : List Release) (v : FlagW), s.ms.rels = r :: l → s.relReady r = true → r.due = s.core.beat →
      r.upd = .set v → r.ix < 4094 →
      took .releaseLands fun t => t.flag r.ix = v ∧ (∀ m, m ≠ r.ix → t.flag m = s.flag m) ∧ t.ms.mem = s.ms.mem) ∧
    (∀ r : Release, s.ms.rels = [r] → s.relReady r = true → r.due < s.core.beat →
      took .releaseLands fun t => t = { s with ms := { s.ms with rels := [{ r with due := s.core.beat + 1, late := true }] } }) ∧
    (∀ r : RadvE, s.ms.rels = [] → s.cube.radvs = [r] → r.claimed = true → s.allPerformed r.uid r.seq = true → r.ids.Nodup →
      took .releaseLands fun t => t.cube.radvs = [] ∧ (∀ p, p ∉ r.ids → t.part p = s.part p) ∧
        ∀ p ∈ r.ids, ∀ x, tfind (s.part p).rings r.ring = some x →
          (ringIn x.cfg = false → tfind (t.part p).rings r.ring =
            some { x with fill := x.fill - r.ns, head := (x.head + r.ns) % x.cfg.slots.toNat }) ∧
          (ringIn x.cfg = true → x.claims = List.replicate r.ns ⟨r.id, false⟩ → tfind (t.part p).rings r.ring =
            some { x with claims := [], fill := x.fill + r.ns, counted := x.counted + r.ns
                          tail := (x.tail + r.ns) % x.cfg.slots.toNat })) ∧
    (s.arg = .id k → s.core.ctlOps = [] →
      (∀ b due, s.seat k = .seating b due → due ≤ s.core.beat → took .seatingComplete fun t => t = s.setSeat k (.seated b)) ∧
      (∀ b due, s.seat k = .unseating b due → due ≤ s.core.beat → s.core.want = [] →
        took .unseatingComplete fun t => t = s.setSeat k .free)) ∧
    (s.arg = .id n → s.core.ctlOps = [] → s.seatOf n = some k → s.seat k = .seated n → k < 4 →
      ((s.ctx n).atPoint = true → (s.ctx n).unseat = true →
        took .unseatAtPreEmptionPoint fun t => t.seat k = .unseating n (s.core.beat + 8) ∧ (t.ctx n).unseat = false) ∧
      (1024 ≤ (s.ctx n).waitBts → (∃ b < 16, s.readyAway b = true) →
        took .park fun t => t.seat k = .unseating n (s.core.beat + 8))) ∧
    (∀ m, s.arg = .id n → (s.ctx n).dline = some m → (s.ctx n).ended = none → (s.ctx n).held = 0 →
      took .preEmptionDeadline fun t =>
        t = (s.modCtx n fun c => { c with dline := none }).takeException n { code := 0x06, info1 := 65536 } 15 m (s.ctx n).pc) ∧
    (∀ due, s.arg = .two n k → s.hasCtx n = true → k ∉ (s.ctx n).bad → (s.ctx n).clus k = .waking due → due ≤ s.core.beat →
      took .clusterWakeComplete fun t => (t.ctx n).clus k = .awake ∧ (∀ j < 8, (t.ctx n).vv (8 * k + j) = Sheet.zero) ∧
        ∀ r, r / 8 ≠ k → (t.ctx n).vv r = (s.ctx n).vv r) ∧
    (∀ due, s.ms.amosEnd = some due → due ≤ s.core.beat → took .amosEnd fun t => t.ms.amosEnd = none) ∧
    (∀ (e : VentE) (l : List VentE), s.sched.ventQ = e :: l → s.ventCount < 1008 →
      took .eventRecordPush fun t => t.sched.ventQ = l ∧ t.sched.vhead = s.sched.vhead + 1 ∧
        t.locRead (spadBase + recordAddr s.sched.vhead) 32 = e.bytes s.sched.vhead ∧
        t.flag 0 = ⟨s.sched.vhead + 1 - s.sched.vtail, false⟩) ∧
    (s.nextToSeat = some n → ((List.range 4).find? fun k => s.openSeat k && s.seat k == .free) = some k →
      took .schedulerSeat fun t => t.seat k = .seating n (s.core.beat + 8)) ∧
    (s.arg = .id n → n < 48 → s.droops n = false → took .droopBegin fun t => t.droops n = true ∧
      ∀ p due, s.partOfBlock n = some p → (s.part p).hop = some due →
        (t.part p).hopHi = false ∧ (t.part p).heldLow = some (due + 4096)) ∧
    (∀ beat, s.arg = .id n → s.pow.droop = [(n, beat)] → took .droopClear fun t => t.pow.droop = []) ∧
    (∀ due, s.arg = .id n → (s.part n).heldLow = some due → due ≤ s.core.beat →
      took .holdLowEnd fun t => t.part n = { s.part n with heldLow := none }) ∧
    (∀ (e : QEntry) (pt : Path) (q : PartId) (hi : Bool), s.arg = .id n → (s.part n).queue = [e] → e.op = .crail pt q hi →
      e.started = false → (s.part n).kind = .part → (s.part n).err = false → (s.part n).susp = false →
      s.allPerformed e.uid e.seq = true → (s.part n).hop = none →
      ((s.part n).heldLow = none → (∃ blk ∈ (s.part n).blocks, (blk ∈ s.pow.lowBlk ↔ hi = true)) →
        took .crailStart fun t => (t.part n).railHi = hi ∧ (t.part n).hop = some (s.core.beat + 26) ∧ (t.part n).hopHi = hi ∧
          (t.part n).queue = [{ e with started := true }] ∧ t.pow.lowBlk = s.pow.lowBlk ∧ ∀ m, m ≠ n → t.part m = s.part m) ∧
      (((s.part n).heldLow ≠ none ∨ ∀ blk ∈ (s.part n).blocks, (blk ∈ s.pow.lowBlk ↔ hi = false)) →
        took .crailStart fun t => (t.part n).railHi = hi ∧ (t.part n).hop = none ∧ (t.part n).queue = [] ∧
          (t.part n).heldLow = (s.part n).heldLow ∧ t.pow = s.pow)) ∧
    (∀ due, s.arg = .id n → (s.part n).hop = some due → due ≤ s.core.beat → (s.part n).hopWho = none → (s.part n).queue = [] →
      took .hopComplete fun t => (t.part n).hop = none ∧
        ∀ blk ∈ (s.part n).blocks, (blk ∈ t.pow.lowBlk ↔ (s.part n).hopHi = false)) ∧
    (s.arg = .unit (.hbm n) → n < 8 → n ∉ s.plat.xhbm → took .unitReady fun t => n ∈ t.plat.rhbm) ∧
    (∀ bs, s.arg = .nonce bs →
      (s.plat.leaf < 2 ^ 25 → took .attestationRequest fun t => t.plat.leaf = s.plat.leaf + 1 ∧ ∃ r sig, r.length = 96 ∧
        t.plat.hostOut = s.plat.hostOut ++ [.report (r ++ sig)] ∧ (r.drop 8).take 32 = (bs ++ leBytes 32 0).take 32) ∧
      (2 ^ 25 ≤ s.plat.leaf → took .attestationRequest fun t => t.plat.leaf = s.plat.leaf ∧
        t.plat.hostOut = s.plat.hostOut ++ [.error])) ∧
    (∀ l, s.plat.load = some l → s.allPerformed l.uid l.seq = true → l.first + l.count ≤ 65536 →
      inHbm l.src (128 * l.count) = true → l.began < s.core.beat → s.plat.isDone.toNat < l.count →
      let n := s.plat.isDone.toNat
      let at_ := l.src + 128 * n
      s.unitsReady at_ 128 = true → s.readPoi at_ 128 = false →
      took .instructionStoreLoadComplete fun t => t.plat.isDone = s.plat.isDone + 1 ∧ t.ms.mem = s.ms.mem ∧
        (∀ a, memByte t.ms.istore a = if 128 * (l.first + n) ≤ a ∧ a < 128 * (l.first + n) + 128 then
          s.locByte (at_ + (a - 128 * (l.first + n))) else memByte s.ms.istore a) ∧
        (n + 1 < l.count → t.plat.load = some { l with began := s.core.beat } ∧ t.plat.isBusy = s.plat.isBusy) ∧
        (n + 1 = l.count → t.plat.load = none ∧ t.plat.isBusy = false ∧ t.plat.isErr = false ∧
          (0 < l.lflag → l.lflag < 4094 → t.flag l.lflag = ⟨1, false⟩))) ∧
    (∀ i failed bad, s.arg = .image i failed bad →
      (∃ t, exec .coldStart s = .next t ∧ t.plat.leaf = s.plat.leaf ∧ t.plat.pkg = s.plat.pkg ∧ t.plat.rwrm = 0) ∧
      took .warmReset fun t => t.plat.rwrm = s.plat.rwrm + 1 ∧ t.plat.leaf = s.plat.leaf ∧ t.plat.pkg = s.plat.pkg)
end

