-- ==== Sys2Proof/Laws/Encoding.lean ====
section
/-! SUPPORT. The fields of an encoded word: extraction from a concatenation, and the fields of each slot layout. -/

namespace Sys2Proof.Laws

/-! ## Extraction from a concatenation -/

theorem ext_hi {n m : Nat} {x : BitVec n} {y : BitVec m} {lo len : Nat} {v : BitVec len}
    (k : x.extractLsb' (lo - m) len = v) (h : m ≤ lo := by decide) : (x ++ y).extractLsb' lo len = v := by
  rw [← k]
  apply BitVec.eq_of_getLsbD_eq
  intro i hi
  have hm : ¬ lo + i < m := by omega
  have e : lo - m + i = lo + i - m := by omega
  simp [BitVec.getLsbD_append, hi, hm, e]

theorem ext_lo {n m : Nat} {x : BitVec n} {y : BitVec m} {lo len : Nat} {v : BitVec len}
    (k : y.extractLsb' lo len = v) (h : lo + len ≤ m := by decide) : (x ++ y).extractLsb' lo len = v := by
  rw [← k]
  apply BitVec.eq_of_getLsbD_eq
  intro i hi
  have hm : lo + i < m := by omega
  simp [BitVec.getLsbD_append, hi, hm]

theorem ext_all {n : Nat} (x : BitVec n) : x.extractLsb' 0 n = x := by simp

theorem get_hi {n m : Nat} {x : BitVec n} {y : BitVec m} {k : Nat} {v : Bool} (e : x.getLsbD (k - m) = v)
    (h : m ≤ k := by decide) : (x ++ y).getLsbD k = v := by
  have hm : ¬ k < m := by omega
  simp [BitVec.getLsbD_append, hm, e]

theorem get_lo {n m : Nat} {x : BitVec n} {y : BitVec m} {k : Nat} {v : Bool} (e : y.getLsbD k = v)
    (h : k < m := by decide) : (x ++ y).getLsbD k = v := by
  rw [BitVec.getLsbD_append, if_pos h, e]

theorem bit_get (b : Bool) : (bit b).getLsbD 0 = b := by cases b <;> rfl

/-! ## Codes -/

theorem rnd_code (r : Rnd) : Rnd.ofCode r.code = some r := by cases r <;> rfl

theorem ety_code (t : ETy) : ETy.ofCode t.code = some t := by cases t <;> rfl

theorem mode_code (m : Mode) : Mode.ofCode m.code = some m := by cases m <;> rfl

theorem scope_code (s : Scope) : Scope.ofCode s.code = s := by cases s <;> rfl

theorem hreg_code (h : HReg) : (0#1 ++ h).setWidth 5 = h := by revert h; decide

/-! ## Control-register writes -/

theorem imm_creg (i : BitVec 12) : (0#21 ++ i : BitVec 33).extractLsb' 0 12 = i := ext_lo (ext_all _)

theorem imm_qmap (n : BitVec 6) :
    (0x120 + (0#27 ++ n) : BitVec 33).extractLsb' 0 12 = BitVec.ofNat 12 (0x120 + n.toNat) := by revert n; decide

theorem cwrOf_qmap (p : Path) (n : BitVec 6) (a : XReg) :
    cwrOf p (BitVec.ofNat 12 (0x120 + n.toNat)) a = .qmapWrite p n a := by
  have hk : n.toNat < 64 := n.isLt
  have ht : (BitVec.ofNat 12 (0x120 + n.toNat)).toNat = 0x120 + n.toNat := by
    rw [BitVec.toNat_ofNat]; omega
  have hn : BitVec.ofNat 6 (0x120 + n.toNat - 0x120) = n := by
    rw [Nat.add_sub_cancel_left]; exact BitVec.ofNat_toNat 6 n ▸ by simp
  unfold cwrOf
  rw [ht]
  split <;> first | omega | skip
  rw [if_pos (by omega), hn]

theorem cwrOf_other (p : Path) (i : BitVec 12) (a : XReg) (h : cregOwnWrite i = false) : cwrOf p i a = .cwr p i a := by
  simp only [cregOwnWrite, Bool.or_eq_false_iff, beq_eq_false_iff_ne, Bool.and_eq_false_iff, decide_eq_false_iff_not] at h
  unfold cwrOf
  split <;> first | omega | skip
  rw [if_neg (by omega)]

theorem fieldsS_cwr (p : Path) (a : XReg) (imm : BitVec 33) (i : BitVec 12) (h : imm.extractLsb' 0 12 = i) :
    fieldsS (encS 0x59 p 0 a 0 imm) = some (cwrOf p i a) := by
  have hop : (encS 0x59 p 0 a 0 imm).extractLsb' 56 8 = 0x59 := ext_hi (ext_hi (ext_hi (ext_hi (ext_hi (ext_all _)))))
  have hp : (encS 0x59 p 0 a 0 imm).extractLsb' 51 5 = p := ext_hi (ext_hi (ext_hi (ext_hi (ext_lo (ext_all _)))))
  have ha : (encS 0x59 p 0 a 0 imm).extractLsb' 39 6 = a := ext_hi (ext_hi (ext_lo (ext_all _)))
  have hi : (encS 0x59 p 0 a 0 imm).extractLsb' 0 12 = i := ext_lo h
  unfold fieldsS
  rw [hop]
  show some (cwrOf ((encS 0x59 p 0 a 0 imm).extractLsb' 51 5) ((encS 0x59 p 0 a 0 imm).extractLsb' 0 12)
    ((encS 0x59 p 0 a 0 imm).extractLsb' 39 6)) = _
  rw [hp, ha, hi]

/-! ## Sheet operands -/

theorem fieldsV_enc (op : BitVec 8) (o : VOp) : fieldsV (encV op o) = vOpcode op.toNat o := by
  have h0 : (encV op o).extractLsb' 78 5 = o.ty.code := ext_hi (ext_hi (ext_hi (ext_hi (ext_hi (ext_hi (ext_hi (ext_hi (ext_hi (ext_hi (ext_lo (ext_all _)))))))))))
  have h1 : (encV op o).extractLsb' 37 3 = o.rnd.code := ext_hi (ext_hi (ext_hi (ext_lo (ext_all _))))
  have h2 : (encV op o).extractLsb' 83 5 = o.path := ext_hi (ext_hi (ext_hi (ext_hi (ext_hi (ext_hi (ext_hi (ext_hi (ext_hi (ext_hi (ext_hi (ext_lo (ext_all _))))))))))))
  have h3 : (encV op o).extractLsb' 72 6 = o.vd := ext_hi (ext_hi (ext_hi (ext_hi (ext_hi (ext_hi (ext_hi (ext_hi (ext_hi (ext_lo (ext_all _))))))))))
  have h4 : (encV op o).extractLsb' 63 9 = o.a := ext_hi (ext_hi (ext_hi (ext_hi (ext_hi (ext_hi (ext_hi (ext_hi (ext_lo (ext_all _)))))))))
  have h5 : (encV op o).extractLsb' 54 9 = o.b := ext_hi (ext_hi (ext_hi (ext_hi (ext_hi (ext_hi (ext_hi (ext_lo (ext_all _))))))))
  have h6 : (encV op o).extractLsb' 45 9 = o.c := ext_hi (ext_hi (ext_hi (ext_hi (ext_hi (ext_hi (ext_lo (ext_all _)))))))
  have h7 : (encV op o).extractLsb' 41 4 = o.mask := ext_hi (ext_hi (ext_hi (ext_hi (ext_hi (ext_lo (ext_all _))))))
  have h8 : (encV op o).getLsbD 40 = o.mz := get_hi (get_hi (get_hi (get_hi (get_lo (bit_get _)))))
  have h9 : (encV op o).getLsbD 36 = o.sat := get_hi (get_hi (get_lo (bit_get _)))
  have h10 : (encV op o).extractLsb' 30 6 = o.xb := ext_hi (ext_lo (ext_all _))
  have h11 : (encV op o).extractLsb' 0 30 = o.imm := ext_lo (ext_all _)
  have hop : (encV op o).extractLsb' 88 8 = op := ext_hi (ext_hi (ext_hi (ext_hi (ext_hi (ext_hi (ext_hi (ext_hi (ext_hi (ext_hi (ext_hi (ext_hi (ext_all _))))))))))))
  have k : vFields (encV op o) = some o := by
    unfold vFields
    rw [h0, h1, h2, h3, h4, h5, h6, h7, h8, h9, h10, h11, ety_code, rnd_code]
  unfold fieldsV
  rw [k, hop]
  rfl
/-! ## Records of operands -/

theorem cmmFields_enc (op : BitVec 8) (c : CmmOp) : cmmFields (encB op c.path c.part c.rest) = c := by
  have h0 : (encB op c.path c.part c.rest).extractLsb' 83 5 = c.path := ext_hi (ext_hi (ext_lo (ext_all _)))
  have h1 : (encB op c.path c.part c.rest).extractLsb' 79 4 = c.part := ext_hi (ext_lo (ext_all _))
  have h2 : (encB op c.path c.part c.rest).extractLsb' 68 11 = c.mm1 := ext_lo (ext_hi (ext_hi (ext_hi (ext_hi (ext_hi (ext_hi (ext_hi (ext_hi (ext_hi (ext_hi (ext_hi (ext_hi (ext_all _)))))))))))))
  have h3 : (encB op c.path c.part c.rest).extractLsb' 57 11 = c.nm1 := ext_lo (ext_hi (ext_hi (ext_hi (ext_hi (ext_hi (ext_hi (ext_hi (ext_hi (ext_hi (ext_hi (ext_hi (ext_lo (ext_all _)))))))))))))
  have h4 : (encB op c.path c.part c.rest).extractLsb' 41 16 = c.k := ext_lo (ext_hi (ext_hi (ext_hi (ext_hi (ext_hi (ext_hi (ext_hi (ext_hi (ext_hi (ext_hi (ext_lo (ext_all _))))))))))))
  have h5 : (encB op c.path c.part c.rest).extractLsb' 29 12 = c.lmask := ext_lo (ext_hi (ext_hi (ext_hi (ext_hi (ext_hi (ext_hi (ext_hi (ext_hi (ext_hi (ext_lo (ext_all _)))))))))))
  have h6 : (encB op c.path c.part c.rest).extractLsb' 25 4 = c.ain := ext_lo (ext_hi (ext_hi (ext_hi (ext_hi (ext_hi (ext_hi (ext_hi (ext_hi (ext_lo (ext_all _))))))))))
  have h7 : (encB op c.path c.part c.rest).extractLsb' 21 4 = c.bin := ext_lo (ext_hi (ext_hi (ext_hi (ext_hi (ext_hi (ext_hi (ext_hi (ext_lo (ext_all _)))))))))
  have h8 : (encB op c.path c.part c.rest).extractLsb' 17 4 = c.fmt := ext_lo (ext_hi (ext_hi (ext_hi (ext_hi (ext_hi (ext_hi (ext_lo (ext_all _))))))))
  have h9 : (encB op c.path c.part c.rest).getLsbD 16 = c.init := get_lo (get_hi (get_hi (get_hi (get_hi (get_hi (get_lo (bit_get _)))))))
  have h10 : (encB op c.path c.part c.rest).getLsbD 15 = c.acc := get_lo (get_hi (get_hi (get_hi (get_hi (get_lo (bit_get _))))))
  have h11 : (encB op c.path c.part c.rest).getLsbD 14 = c.t := get_lo (get_hi (get_hi (get_hi (get_lo (bit_get _)))))
  have h12 : (encB op c.path c.part c.rest).getLsbD 13 = c.keepa := get_lo (get_hi (get_hi (get_lo (bit_get _))))
  have h13 : (encB op c.path c.part c.rest).getLsbD 12 = c.keepb := get_lo (get_hi (get_lo (bit_get _)))
  have h14 : (encB op c.path c.part c.rest).extractLsb' 0 12 = c.cflag := ext_lo (ext_lo (ext_all _))
  unfold cmmFields
  rw [h0, h1, h2, h3, h4, h5, h6, h7, h8, h9, h10, h11, h12, h13, h14]

theorem cdrnFields_enc (op : BitVec 8) (c : CdrnOp) : cdrnFields (encB op c.path c.part c.rest) = c := by
  have h0 : (encB op c.path c.part c.rest).extractLsb' 83 5 = c.path := ext_hi (ext_hi (ext_lo (ext_all _)))
  have h1 : (encB op c.path c.part c.rest).extractLsb' 79 4 = c.part := ext_hi (ext_lo (ext_all _))
  have h2 : (encB op c.path c.part c.rest).extractLsb' 68 11 = c.mm1 := ext_lo (ext_hi (ext_hi (ext_hi (ext_hi (ext_hi (ext_hi (ext_hi (ext_hi (ext_hi (ext_hi (ext_hi (ext_hi (ext_all _)))))))))))))
  have h3 : (encB op c.path c.part c.rest).extractLsb' 57 11 = c.nm1 := ext_lo (ext_hi (ext_hi (ext_hi (ext_hi (ext_hi (ext_hi (ext_hi (ext_hi (ext_hi (ext_hi (ext_hi (ext_lo (ext_all _)))))))))))))
  have h4 : (encB op c.path c.part c.rest).extractLsb' 53 4 = c.dlay := ext_lo (ext_hi (ext_hi (ext_hi (ext_hi (ext_hi (ext_hi (ext_hi (ext_hi (ext_hi (ext_hi (ext_lo (ext_all _))))))))))))
  have h5 : (encB op c.path c.part c.rest).getLsbD 52 = c.east := get_lo (get_hi (get_hi (get_hi (get_hi (get_hi (get_hi (get_hi (get_hi (get_hi (get_lo (bit_get _)))))))))))
  have h6 : (encB op c.path c.part c.rest).extractLsb' 48 4 = c.dfmt := ext_lo (ext_hi (ext_hi (ext_hi (ext_hi (ext_hi (ext_hi (ext_hi (ext_hi (ext_lo (ext_all _))))))))))
  have h7 : (encB op c.path c.part c.rest).extractLsb' 45 3 = c.rnd := ext_lo (ext_hi (ext_hi (ext_hi (ext_hi (ext_hi (ext_hi (ext_hi (ext_lo (ext_all _)))))))))
  have h8 : (encB op c.path c.part c.rest).getLsbD 44 = c.sat := get_lo (get_hi (get_hi (get_hi (get_hi (get_hi (get_hi (get_lo (bit_get _))))))))
  have h9 : (encB op c.path c.part c.rest).extractLsb' 39 5 = c.shift := ext_lo (ext_hi (ext_hi (ext_hi (ext_hi (ext_hi (ext_lo (ext_all _)))))))
  have h10 : (encB op c.path c.part c.rest).extractLsb' 36 3 = c.ring := ext_lo (ext_hi (ext_hi (ext_hi (ext_hi (ext_lo (ext_all _))))))
  have h11 : (encB op c.path c.part c.rest).getLsbD 15 = c.acc := get_lo (get_hi (get_hi (get_lo (bit_get _))))
  have h12 : (encB op c.path c.part c.rest).extractLsb' 0 12 = c.cflag := ext_lo (ext_lo (ext_all _))
  unfold cdrnFields
  rw [h0, h1, h2, h3, h4, h5, h6, h7, h8, h9, h10, h11, h12]

theorem ringFields_enc (op : BitVec 8) (p : Path) (q : PartId) (r : RingCfg) : ringFields (encB op p q (r.bits ++ 0#27)) = r := by
  have h0 : (encB op p q (r.bits ++ 0#27)).extractLsb' 76 3 = r.ring := ext_lo (ext_hi (ext_hi (ext_hi (ext_hi (ext_hi (ext_hi (ext_hi (ext_hi (ext_hi (ext_all _))))))))))
  have h1 : (encB op p q (r.bits ++ 0#27)).extractLsb' 74 2 = r.face := ext_lo (ext_hi (ext_hi (ext_hi (ext_hi (ext_hi (ext_hi (ext_hi (ext_hi (ext_lo (ext_all _))))))))))
  have h2 : (encB op p q (r.bits ++ 0#27)).getLsbD 73 = r.plane := get_lo (get_hi (get_hi (get_hi (get_hi (get_hi (get_hi (get_hi (get_lo (bit_get _)))))))))
  have h3 : (encB op p q (r.bits ++ 0#27)).extractLsb' 71 2 = r.gp := ext_lo (ext_hi (ext_hi (ext_hi (ext_hi (ext_hi (ext_hi (ext_lo (ext_all _))))))))
  have h4 : (encB op p q (r.bits ++ 0#27)).getLsbD 70 = r.mx := get_lo (get_hi (get_hi (get_hi (get_hi (get_hi (get_lo (bit_get _)))))))
  have h5 : (encB op p q (r.bits ++ 0#27)).extractLsb' 62 8 = r.slots := ext_lo (ext_hi (ext_hi (ext_hi (ext_hi (ext_lo (ext_all _))))))
  have h6 : (encB op p q (r.bits ++ 0#27)).extractLsb' 50 12 = r.sk := ext_lo (ext_hi (ext_hi (ext_hi (ext_lo (ext_all _)))))
  have h7 : (encB op p q (r.bits ++ 0#27)).extractLsb' 39 11 = r.base := ext_lo (ext_hi (ext_hi (ext_lo (ext_all _))))
  have h8 : (encB op p q (r.bits ++ 0#27)).extractLsb' 27 12 = r.lmask := ext_lo (ext_hi (ext_lo (ext_all _)))
  unfold ringFields
  rw [h0, h1, h2, h3, h4, h5, h6, h7, h8]

theorem cpartFields_enc (op : BitVec 8) (c : CpartOp) : cpartFields (encB op c.path c.part c.rest) = c := by
  have h0 : (encB op c.path c.part c.rest).extractLsb' 83 5 = c.path := ext_hi (ext_hi (ext_lo (ext_all _)))
  have h1 : (encB op c.path c.part c.rest).extractLsb' 79 4 = c.part := ext_hi (ext_lo (ext_all _))
  have h2 : (encB op c.path c.part c.rest).extractLsb' 63 16 = c.srcm := ext_lo (ext_hi (ext_hi (ext_hi (ext_hi (ext_hi (ext_hi (ext_hi (ext_hi (ext_hi (ext_hi (ext_hi (ext_hi (ext_all _)))))))))))))
  have h3 : (encB op c.path c.part c.rest).extractLsb' 59 4 = c.na := ext_lo (ext_hi (ext_hi (ext_hi (ext_hi (ext_hi (ext_hi (ext_hi (ext_hi (ext_hi (ext_hi (ext_hi (ext_lo (ext_all _)))))))))))))
  have h4 : (encB op c.path c.part c.rest).extractLsb' 55 4 = c.af := ext_lo (ext_hi (ext_hi (ext_hi (ext_hi (ext_hi (ext_hi (ext_hi (ext_hi (ext_hi (ext_hi (ext_lo (ext_all _))))))))))))
  have h5 : (encB op c.path c.part c.rest).extractLsb' 51 4 = c.al := ext_lo (ext_hi (ext_hi (ext_hi (ext_hi (ext_hi (ext_hi (ext_hi (ext_hi (ext_hi (ext_lo (ext_all _)))))))))))
  have h6 : (encB op c.path c.part c.rest).extractLsb' 47 4 = c.aq := ext_lo (ext_hi (ext_hi (ext_hi (ext_hi (ext_hi (ext_hi (ext_hi (ext_hi (ext_lo (ext_all _))))))))))
  have h7 : (encB op c.path c.part c.rest).getLsbD 46 = c.bv := get_lo (get_hi (get_hi (get_hi (get_hi (get_hi (get_hi (get_hi (get_lo (bit_get _)))))))))
  have h8 : (encB op c.path c.part c.rest).extractLsb' 42 4 = c.nb := ext_lo (ext_hi (ext_hi (ext_hi (ext_hi (ext_hi (ext_hi (ext_lo (ext_all _))))))))
  have h9 : (encB op c.path c.part c.rest).extractLsb' 38 4 = c.bf := ext_lo (ext_hi (ext_hi (ext_hi (ext_hi (ext_hi (ext_lo (ext_all _)))))))
  have h10 : (encB op c.path c.part c.rest).extractLsb' 34 4 = c.bl := ext_lo (ext_hi (ext_hi (ext_hi (ext_hi (ext_lo (ext_all _))))))
  have h11 : (encB op c.path c.part c.rest).extractLsb' 30 4 = c.bq := ext_lo (ext_hi (ext_hi (ext_hi (ext_lo (ext_all _)))))
  have h12 : (encB op c.path c.part c.rest).getLsbD 12 = c.dsc := get_lo (get_hi (get_lo (bit_get _)))
  have h13 : (encB op c.path c.part c.rest).extractLsb' 0 12 = c.cflag := ext_lo (ext_lo (ext_all _))
  unfold cpartFields
  rw [h0, h1, h2, h3, h4, h5, h6, h7, h8, h9, h10, h11, h12, h13]

theorem amoFields_enc (op : BitVec 8) (m : MemOp) (a : AmoOp) : amoFields (encM op m a.spec) = a := by
  have h0 : (encM op m a.spec).extractLsb' 27 5 = a.aop := ext_lo (ext_hi (ext_hi (ext_hi (ext_hi (ext_hi (ext_hi (ext_all _)))))))
  have h1 : (encM op m a.spec).extractLsb' 24 3 = a.aw := ext_lo (ext_hi (ext_hi (ext_hi (ext_hi (ext_hi (ext_lo (ext_all _)))))))
  have h2 : (encM op m a.spec).extractLsb' 22 2 = a.ord := ext_lo (ext_hi (ext_hi (ext_hi (ext_hi (ext_lo (ext_all _))))))
  have h3 : (encM op m a.spec).extractLsb' 20 2 = a.scp.code := ext_lo (ext_hi (ext_hi (ext_hi (ext_lo (ext_all _)))))
  have h4 : (encM op m a.spec).extractLsb' 14 6 = a.xr := ext_lo (ext_hi (ext_hi (ext_lo (ext_all _))))
  have h5 : (encM op m a.spec).extractLsb' 8 6 = a.xc := ext_lo (ext_hi (ext_lo (ext_all _)))
  unfold amoFields
  rw [h0, h1, h2, h3, h4, h5, scope_code]

theorem memFields_enc (op : BitVec 8) (m : MemOp) (spec : BitVec 32) : memFields (encM op m spec) = some m := by
  have h0 : (encM op m spec).extractLsb' 81 2 = m.mode.code := ext_hi (ext_hi (ext_hi (ext_hi (ext_hi (ext_hi (ext_hi (ext_lo (ext_all _))))))))
  have h1 : (encM op m spec).extractLsb' 83 5 = m.path := ext_hi (ext_hi (ext_hi (ext_hi (ext_hi (ext_hi (ext_hi (ext_hi (ext_lo (ext_all _)))))))))
  have h2 : (encM op m spec).extractLsb' 75 6 = m.reg := ext_hi (ext_hi (ext_hi (ext_hi (ext_hi (ext_hi (ext_lo (ext_all _)))))))
  have h3 : (encM op m spec).extractLsb' 69 6 = m.base := ext_hi (ext_hi (ext_hi (ext_hi (ext_hi (ext_lo (ext_all _))))))
  have h4 : (encM op m spec).extractLsb' 64 5 = m.hnd := ext_hi (ext_hi (ext_hi (ext_hi (ext_lo (ext_all _)))))
  have h5 : (encM op m spec).extractLsb' 58 6 = m.pitch := ext_hi (ext_hi (ext_hi (ext_lo (ext_all _))))
  have h6 : (encM op m spec).extractLsb' 54 4 = m.mask := ext_hi (ext_hi (ext_lo (ext_all _)))
  have h7 : (encM op m spec).extractLsb' 32 22 = m.ofs := ext_hi (ext_lo (ext_all _))
  unfold memFields
  rw [h0, h1, h2, h3, h4, h5, h6, h7, mode_code]
  rfl

theorem cpFields_enc (op : BitVec 8) (c : CpOp) (spec : BitVec 12) : cpFields (encP op c spec) = some c := by
  have h0 : (encP op c spec).extractLsb' 61 2 = c.smode.code := ext_hi (ext_hi (ext_hi (ext_hi (ext_hi (ext_hi (ext_hi (ext_hi (ext_hi (ext_lo (ext_all _))))))))))
  have h1 : (encP op c spec).extractLsb' 48 2 = c.dmode.code := ext_hi (ext_hi (ext_hi (ext_hi (ext_hi (ext_hi (ext_lo (ext_all _)))))))
  have h2 : (encP op c spec).extractLsb' 83 5 = c.path := ext_hi (ext_hi (ext_hi (ext_hi (ext_hi (ext_hi (ext_hi (ext_hi (ext_hi (ext_hi (ext_hi (ext_hi (ext_lo (ext_all _)))))))))))))
  have h3 : (encP op c spec).extractLsb' 79 4 = c.ch := ext_hi (ext_hi (ext_hi (ext_hi (ext_hi (ext_hi (ext_hi (ext_hi (ext_hi (ext_hi (ext_hi (ext_lo (ext_all _))))))))))))
  have h4 : (encP op c spec).extractLsb' 63 16 = c.layout := ext_hi (ext_hi (ext_hi (ext_hi (ext_hi (ext_hi (ext_hi (ext_hi (ext_hi (ext_hi (ext_lo (ext_all _)))))))))))
  have h5 : (encP op c spec).extractLsb' 56 5 = c.shnd := ext_hi (ext_hi (ext_hi (ext_hi (ext_hi (ext_hi (ext_hi (ext_hi (ext_lo (ext_all _)))))))))
  have h6 : (encP op c spec).extractLsb' 50 6 = c.sx := ext_hi (ext_hi (ext_hi (ext_hi (ext_hi (ext_hi (ext_hi (ext_lo (ext_all _))))))))
  have h7 : (encP op c spec).extractLsb' 43 5 = c.dhnd := ext_hi (ext_hi (ext_hi (ext_hi (ext_hi (ext_lo (ext_all _))))))
  have h8 : (encP op c spec).extractLsb' 37 6 = c.dx := ext_hi (ext_hi (ext_hi (ext_hi (ext_lo (ext_all _)))))
  have h9 : (encP op c spec).extractLsb' 25 12 = c.cflag := ext_hi (ext_hi (ext_hi (ext_lo (ext_all _))))
  have h10 : (encP op c spec).getLsbD 24 = c.rflag := get_hi (get_hi (get_lo (bit_get _)))
  have h11 : (encP op c spec).extractLsb' 12 12 = c.bflag := ext_hi (ext_lo (ext_all _))
  unfold cpFields
  rw [h0, h1, h2, h3, h4, h5, h6, h7, h8, h9, h10, h11, mode_code, mode_code]

end Sys2Proof.Laws
end

