-- ==== Sys2Proof/Laws/State.lean ====
section
/-! SUPPORT. One lemma per field per update of the state: what an update writes, and what it leaves. -/

namespace Sys2Proof.Machine

/-! ## The context of a bank, and seats -/

@[simp] theorem State.setCtx_ms (s : State) (b : Nat) (c : Ctx) : (s.setCtx b c).ms = s.ms := rfl
@[simp] theorem State.setCtx_cube (s : State) (b : Nat) (c : Ctx) : (s.setCtx b c).cube = s.cube := rfl
@[simp] theorem State.setCtx_copy (s : State) (b : Nat) (c : Ctx) : (s.setCtx b c).copy = s.copy := rfl
@[simp] theorem State.setCtx_sched (s : State) (b : Nat) (c : Ctx) : (s.setCtx b c).sched = s.sched := rfl
@[simp] theorem State.setCtx_fab (s : State) (b : Nat) (c : Ctx) : (s.setCtx b c).fab = s.fab := rfl
@[simp] theorem State.setCtx_pow (s : State) (b : Nat) (c : Ctx) : (s.setCtx b c).pow = s.pow := rfl
@[simp] theorem State.setCtx_plat (s : State) (b : Nat) (c : Ctx) : (s.setCtx b c).plat = s.plat := rfl
@[simp] theorem State.setCtx_agenda (s : State) (b : Nat) (c : Ctx) : (s.setCtx b c).agenda = s.agenda := rfl
@[simp] theorem State.setCtx_arg (s : State) (b : Nat) (c : Ctx) : (s.setCtx b c).arg = s.arg := rfl
@[simp] theorem State.setCtx_free (s : State) (b : Nat) (c : Ctx) : (s.setCtx b c).free = s.free := rfl
@[simp] theorem State.setCtx_ids (s : State) (b : Nat) (c : Ctx) : (s.setCtx b c).ids = s.ids := rfl
@[simp] theorem State.setCtx_seq (s : State) (b : Nat) (c : Ctx) : (s.setCtx b c).seq = s.seq := rfl
@[simp] theorem State.setCtx_core_beat (s : State) (b : Nat) (c : Ctx) : (s.setCtx b c).core.beat = s.core.beat := rfl
@[simp] theorem State.setCtx_core_seats (s : State) (b : Nat) (c : Ctx) : (s.setCtx b c).core.seats = s.core.seats := rfl
@[simp] theorem State.setCtx_core_want (s : State) (b : Nat) (c : Ctx) : (s.setCtx b c).core.want = s.core.want := rfl
@[simp] theorem State.setCtx_core_running (s : State) (b : Nat) (c : Ctx) : (s.setCtx b c).core.running = s.core.running := rfl
@[simp] theorem State.setCtx_core_runCtr (s : State) (b : Nat) (c : Ctx) : (s.setCtx b c).core.runCtr = s.core.runCtr := rfl
@[simp] theorem State.setCtx_core_yielded (s : State) (b : Nat) (c : Ctx) : (s.setCtx b c).core.yielded = s.core.yielded := rfl
@[simp] theorem State.setCtx_core_adrift (s : State) (b : Nat) (c : Ctx) : (s.setCtx b c).core.adrift = s.core.adrift := rfl
@[simp] theorem State.setCtx_core_window (s : State) (b : Nat) (c : Ctx) : (s.setCtx b c).core.window = s.core.window := rfl
@[simp] theorem State.setCtx_core_ins (s : State) (b : Nat) (c : Ctx) : (s.setCtx b c).core.ins = s.core.ins := rfl
@[simp] theorem State.setCtx_core_banks (s : State) (b : Nat) (c : Ctx) : (s.setCtx b c).core.banks = tins s.core.banks b c := rfl
@[simp] theorem State.setCtx_core_ctlOps (s : State) (b : Nat) (c : Ctx) : (s.setCtx b c).core.ctlOps = s.core.ctlOps := rfl
@[simp] theorem State.setCtx_core_evpops (s : State) (b : Nat) (c : Ctx) : (s.setCtx b c).core.evpops = s.core.evpops := rfl
@[simp] theorem State.setCtx_core_bsel (s : State) (b : Nat) (c : Ctx) : (s.setCtx b c).core.bsel = s.core.bsel := rfl
@[simp] theorem State.setCtx_core_asel (s : State) (b : Nat) (c : Ctx) : (s.setCtx b c).core.asel = s.core.asel := rfl
@[simp] theorem State.setCtx_core_lsel (s : State) (b : Nat) (c : Ctx) : (s.setCtx b c).core.lsel = s.core.lsel := rfl

@[simp] theorem State.setSeat_ms (s : State) (k : Nat) (v : Seat) : (s.setSeat k v).ms = s.ms := rfl
@[simp] theorem State.setSeat_cube (s : State) (k : Nat) (v : Seat) : (s.setSeat k v).cube = s.cube := rfl
@[simp] theorem State.setSeat_copy (s : State) (k : Nat) (v : Seat) : (s.setSeat k v).copy = s.copy := rfl
@[simp] theorem State.setSeat_sched (s : State) (k : Nat) (v : Seat) : (s.setSeat k v).sched = s.sched := rfl
@[simp] theorem State.setSeat_fab (s : State) (k : Nat) (v : Seat) : (s.setSeat k v).fab = s.fab := rfl
@[simp] theorem State.setSeat_pow (s : State) (k : Nat) (v : Seat) : (s.setSeat k v).pow = s.pow := rfl
@[simp] theorem State.setSeat_plat (s : State) (k : Nat) (v : Seat) : (s.setSeat k v).plat = s.plat := rfl
@[simp] theorem State.setSeat_agenda (s : State) (k : Nat) (v : Seat) : (s.setSeat k v).agenda = s.agenda := rfl
@[simp] theorem State.setSeat_arg (s : State) (k : Nat) (v : Seat) : (s.setSeat k v).arg = s.arg := rfl
@[simp] theorem State.setSeat_free (s : State) (k : Nat) (v : Seat) : (s.setSeat k v).free = s.free := rfl
@[simp] theorem State.setSeat_ids (s : State) (k : Nat) (v : Seat) : (s.setSeat k v).ids = s.ids := rfl
@[simp] theorem State.setSeat_seq (s : State) (k : Nat) (v : Seat) : (s.setSeat k v).seq = s.seq := rfl
@[simp] theorem State.setSeat_core_beat (s : State) (k : Nat) (v : Seat) : (s.setSeat k v).core.beat = s.core.beat := rfl
@[simp] theorem State.setSeat_core_seats (s : State) (k : Nat) (v : Seat) : (s.setSeat k v).core.seats = tput s.core.seats k v .free := rfl
@[simp] theorem State.setSeat_core_want (s : State) (k : Nat) (v : Seat) : (s.setSeat k v).core.want = s.core.want := rfl
@[simp] theorem State.setSeat_core_running (s : State) (k : Nat) (v : Seat) : (s.setSeat k v).core.running = s.core.running := rfl
@[simp] theorem State.setSeat_core_runCtr (s : State) (k : Nat) (v : Seat) : (s.setSeat k v).core.runCtr = s.core.runCtr := rfl
@[simp] theorem State.setSeat_core_yielded (s : State) (k : Nat) (v : Seat) : (s.setSeat k v).core.yielded = s.core.yielded := rfl
@[simp] theorem State.setSeat_core_adrift (s : State) (k : Nat) (v : Seat) : (s.setSeat k v).core.adrift = s.core.adrift := rfl
@[simp] theorem State.setSeat_core_window (s : State) (k : Nat) (v : Seat) : (s.setSeat k v).core.window = s.core.window := rfl
@[simp] theorem State.setSeat_core_ins (s : State) (k : Nat) (v : Seat) : (s.setSeat k v).core.ins = s.core.ins := rfl
@[simp] theorem State.setSeat_core_banks (s : State) (k : Nat) (v : Seat) : (s.setSeat k v).core.banks = s.core.banks := rfl
@[simp] theorem State.setSeat_core_ctlOps (s : State) (k : Nat) (v : Seat) : (s.setSeat k v).core.ctlOps = s.core.ctlOps := rfl
@[simp] theorem State.setSeat_core_evpops (s : State) (k : Nat) (v : Seat) : (s.setSeat k v).core.evpops = s.core.evpops := rfl
@[simp] theorem State.setSeat_core_bsel (s : State) (k : Nat) (v : Seat) : (s.setSeat k v).core.bsel = s.core.bsel := rfl
@[simp] theorem State.setSeat_core_asel (s : State) (k : Nat) (v : Seat) : (s.setSeat k v).core.asel = s.core.asel := rfl
@[simp] theorem State.setSeat_core_lsel (s : State) (k : Nat) (v : Seat) : (s.setSeat k v).core.lsel = s.core.lsel := rfl

@[simp] theorem State.noteIssue_ms (s : State) (ew : Nat) : (s.noteIssue ew).ms = s.ms := rfl
@[simp] theorem State.noteIssue_cube (s : State) (ew : Nat) : (s.noteIssue ew).cube = s.cube := rfl
@[simp] theorem State.noteIssue_copy (s : State) (ew : Nat) : (s.noteIssue ew).copy = s.copy := rfl
@[simp] theorem State.noteIssue_sched (s : State) (ew : Nat) : (s.noteIssue ew).sched = s.sched := rfl
@[simp] theorem State.noteIssue_fab (s : State) (ew : Nat) : (s.noteIssue ew).fab = s.fab := rfl
@[simp] theorem State.noteIssue_pow (s : State) (ew : Nat) : (s.noteIssue ew).pow = s.pow := rfl
@[simp] theorem State.noteIssue_plat (s : State) (ew : Nat) : (s.noteIssue ew).plat = s.plat := rfl
@[simp] theorem State.noteIssue_agenda (s : State) (ew : Nat) : (s.noteIssue ew).agenda = s.agenda := rfl
@[simp] theorem State.noteIssue_arg (s : State) (ew : Nat) : (s.noteIssue ew).arg = s.arg := rfl
@[simp] theorem State.noteIssue_free (s : State) (ew : Nat) : (s.noteIssue ew).free = s.free := rfl
@[simp] theorem State.noteIssue_ids (s : State) (ew : Nat) : (s.noteIssue ew).ids = s.ids := rfl
@[simp] theorem State.noteIssue_seq (s : State) (ew : Nat) : (s.noteIssue ew).seq = s.seq := rfl
@[simp] theorem State.noteIssue_core_beat (s : State) (ew : Nat) : (s.noteIssue ew).core.beat = s.core.beat := rfl
@[simp] theorem State.noteIssue_core_seats (s : State) (ew : Nat) : (s.noteIssue ew).core.seats = s.core.seats := rfl
@[simp] theorem State.noteIssue_core_want (s : State) (ew : Nat) : (s.noteIssue ew).core.want = s.core.want := rfl
@[simp] theorem State.noteIssue_core_running (s : State) (ew : Nat) : (s.noteIssue ew).core.running = s.core.running := rfl
@[simp] theorem State.noteIssue_core_runCtr (s : State) (ew : Nat) : (s.noteIssue ew).core.runCtr = s.core.runCtr + 1 := rfl
@[simp] theorem State.noteIssue_core_yielded (s : State) (ew : Nat) : (s.noteIssue ew).core.yielded = false := rfl
@[simp] theorem State.noteIssue_core_adrift (s : State) (ew : Nat) : (s.noteIssue ew).core.adrift = false := rfl
@[simp] theorem State.noteIssue_core_window (s : State) (ew : Nat) : (s.noteIssue ew).core.window = (s.core.beat, ew) :: s.core.window := rfl
@[simp] theorem State.noteIssue_core_ins (s : State) (ew : Nat) : (s.noteIssue ew).core.ins = s.core.ins := rfl
@[simp] theorem State.noteIssue_core_banks (s : State) (ew : Nat) : (s.noteIssue ew).core.banks = s.core.banks := rfl
@[simp] theorem State.noteIssue_core_ctlOps (s : State) (ew : Nat) : (s.noteIssue ew).core.ctlOps = s.core.ctlOps := rfl
@[simp] theorem State.noteIssue_core_evpops (s : State) (ew : Nat) : (s.noteIssue ew).core.evpops = s.core.evpops := rfl
@[simp] theorem State.noteIssue_core_bsel (s : State) (ew : Nat) : (s.noteIssue ew).core.bsel = s.core.bsel := rfl
@[simp] theorem State.noteIssue_core_asel (s : State) (ew : Nat) : (s.noteIssue ew).core.asel = s.core.asel := rfl
@[simp] theorem State.noteIssue_core_lsel (s : State) (ew : Nat) : (s.noteIssue ew).core.lsel = s.core.lsel := rfl

@[simp] theorem State.fresh_core (s : State) : (s.fresh).core = s.core := rfl
@[simp] theorem State.fresh_ms (s : State) : (s.fresh).ms = s.ms := rfl
@[simp] theorem State.fresh_cube (s : State) : (s.fresh).cube = s.cube := rfl
@[simp] theorem State.fresh_copy (s : State) : (s.fresh).copy = s.copy := rfl
@[simp] theorem State.fresh_sched (s : State) : (s.fresh).sched = s.sched := rfl
@[simp] theorem State.fresh_fab (s : State) : (s.fresh).fab = s.fab := rfl
@[simp] theorem State.fresh_pow (s : State) : (s.fresh).pow = s.pow := rfl
@[simp] theorem State.fresh_plat (s : State) : (s.fresh).plat = s.plat := rfl
@[simp] theorem State.fresh_agenda (s : State) : (s.fresh).agenda = s.agenda := rfl
@[simp] theorem State.fresh_arg (s : State) : (s.fresh).arg = s.arg := rfl
@[simp] theorem State.fresh_free (s : State) : (s.fresh).free = s.free := rfl
@[simp] theorem State.fresh_ids (s : State) : (s.fresh).ids = s.ids + 1 := rfl
@[simp] theorem State.fresh_seq (s : State) : (s.fresh).seq = s.seq := rfl

@[simp] theorem State.ventAdd_core (s : State) (e : VentE) : (s.ventAdd e).core = s.core := rfl
@[simp] theorem State.ventAdd_ms (s : State) (e : VentE) : (s.ventAdd e).ms = s.ms := rfl
@[simp] theorem State.ventAdd_cube (s : State) (e : VentE) : (s.ventAdd e).cube = s.cube := rfl
@[simp] theorem State.ventAdd_copy (s : State) (e : VentE) : (s.ventAdd e).copy = s.copy := rfl
@[simp] theorem State.ventAdd_fab (s : State) (e : VentE) : (s.ventAdd e).fab = s.fab := rfl
@[simp] theorem State.ventAdd_pow (s : State) (e : VentE) : (s.ventAdd e).pow = s.pow := rfl
@[simp] theorem State.ventAdd_plat (s : State) (e : VentE) : (s.ventAdd e).plat = s.plat := rfl
@[simp] theorem State.ventAdd_agenda (s : State) (e : VentE) : (s.ventAdd e).agenda = s.agenda := rfl
@[simp] theorem State.ventAdd_arg (s : State) (e : VentE) : (s.ventAdd e).arg = s.arg := rfl
@[simp] theorem State.ventAdd_free (s : State) (e : VentE) : (s.ventAdd e).free = s.free := rfl
@[simp] theorem State.ventAdd_ids (s : State) (e : VentE) : (s.ventAdd e).ids = s.ids := rfl
@[simp] theorem State.ventAdd_seq (s : State) (e : VentE) : (s.ventAdd e).seq = s.seq := rfl

@[simp] theorem State.setPart_core (s : State) (p : Nat) (v : Part) : (s.setPart p v).core = s.core := rfl
@[simp] theorem State.setPart_ms (s : State) (p : Nat) (v : Part) : (s.setPart p v).ms = s.ms := rfl
@[simp] theorem State.setPart_copy (s : State) (p : Nat) (v : Part) : (s.setPart p v).copy = s.copy := rfl
@[simp] theorem State.setPart_sched (s : State) (p : Nat) (v : Part) : (s.setPart p v).sched = s.sched := rfl
@[simp] theorem State.setPart_fab (s : State) (p : Nat) (v : Part) : (s.setPart p v).fab = s.fab := rfl
@[simp] theorem State.setPart_pow (s : State) (p : Nat) (v : Part) : (s.setPart p v).pow = s.pow := rfl
@[simp] theorem State.setPart_plat (s : State) (p : Nat) (v : Part) : (s.setPart p v).plat = s.plat := rfl
@[simp] theorem State.setPart_agenda (s : State) (p : Nat) (v : Part) : (s.setPart p v).agenda = s.agenda := rfl
@[simp] theorem State.setPart_arg (s : State) (p : Nat) (v : Part) : (s.setPart p v).arg = s.arg := rfl
@[simp] theorem State.setPart_free (s : State) (p : Nat) (v : Part) : (s.setPart p v).free = s.free := rfl
@[simp] theorem State.setPart_ids (s : State) (p : Nat) (v : Part) : (s.setPart p v).ids = s.ids := rfl
@[simp] theorem State.setPart_seq (s : State) (p : Nat) (v : Part) : (s.setPart p v).seq = s.seq := rfl

@[simp] theorem State.setPort_core (s : State) (k : Nat) (p : Port) : (s.setPort k p).core = s.core := rfl
@[simp] theorem State.setPort_ms (s : State) (k : Nat) (p : Port) : (s.setPort k p).ms = s.ms := rfl
@[simp] theorem State.setPort_cube (s : State) (k : Nat) (p : Port) : (s.setPort k p).cube = s.cube := rfl
@[simp] theorem State.setPort_copy (s : State) (k : Nat) (p : Port) : (s.setPort k p).copy = s.copy := rfl
@[simp] theorem State.setPort_sched (s : State) (k : Nat) (p : Port) : (s.setPort k p).sched = s.sched := rfl
@[simp] theorem State.setPort_pow (s : State) (k : Nat) (p : Port) : (s.setPort k p).pow = s.pow := rfl
@[simp] theorem State.setPort_plat (s : State) (k : Nat) (p : Port) : (s.setPort k p).plat = s.plat := rfl
@[simp] theorem State.setPort_agenda (s : State) (k : Nat) (p : Port) : (s.setPort k p).agenda = s.agenda := rfl
@[simp] theorem State.setPort_arg (s : State) (k : Nat) (p : Port) : (s.setPort k p).arg = s.arg := rfl
@[simp] theorem State.setPort_free (s : State) (k : Nat) (p : Port) : (s.setPort k p).free = s.free := rfl
@[simp] theorem State.setPort_ids (s : State) (k : Nat) (p : Port) : (s.setPort k p).ids = s.ids := rfl
@[simp] theorem State.setPort_seq (s : State) (k : Nat) (p : Port) : (s.setPort k p).seq = s.seq := rfl

@[simp] theorem State.setWindow_core (s : State) (w : Nat) (v : Window) : (s.setWindow w v).core = s.core := rfl
@[simp] theorem State.setWindow_ms (s : State) (w : Nat) (v : Window) : (s.setWindow w v).ms = s.ms := rfl
@[simp] theorem State.setWindow_cube (s : State) (w : Nat) (v : Window) : (s.setWindow w v).cube = s.cube := rfl
@[simp] theorem State.setWindow_copy (s : State) (w : Nat) (v : Window) : (s.setWindow w v).copy = s.copy := rfl
@[simp] theorem State.setWindow_sched (s : State) (w : Nat) (v : Window) : (s.setWindow w v).sched = s.sched := rfl
@[simp] theorem State.setWindow_pow (s : State) (w : Nat) (v : Window) : (s.setWindow w v).pow = s.pow := rfl
@[simp] theorem State.setWindow_plat (s : State) (w : Nat) (v : Window) : (s.setWindow w v).plat = s.plat := rfl
@[simp] theorem State.setWindow_agenda (s : State) (w : Nat) (v : Window) : (s.setWindow w v).agenda = s.agenda := rfl
@[simp] theorem State.setWindow_arg (s : State) (w : Nat) (v : Window) : (s.setWindow w v).arg = s.arg := rfl
@[simp] theorem State.setWindow_free (s : State) (w : Nat) (v : Window) : (s.setWindow w v).free = s.free := rfl
@[simp] theorem State.setWindow_ids (s : State) (w : Nat) (v : Window) : (s.setWindow w v).ids = s.ids := rfl
@[simp] theorem State.setWindow_seq (s : State) (w : Nat) (v : Window) : (s.setWindow w v).seq = s.seq := rfl

@[simp] theorem State.setLease_core (s : State) (n : Nat) (v : Lease) : (s.setLease n v).core = s.core := rfl
@[simp] theorem State.setLease_ms (s : State) (n : Nat) (v : Lease) : (s.setLease n v).ms = s.ms := rfl
@[simp] theorem State.setLease_cube (s : State) (n : Nat) (v : Lease) : (s.setLease n v).cube = s.cube := rfl
@[simp] theorem State.setLease_copy (s : State) (n : Nat) (v : Lease) : (s.setLease n v).copy = s.copy := rfl
@[simp] theorem State.setLease_sched (s : State) (n : Nat) (v : Lease) : (s.setLease n v).sched = s.sched := rfl
@[simp] theorem State.setLease_pow (s : State) (n : Nat) (v : Lease) : (s.setLease n v).pow = s.pow := rfl
@[simp] theorem State.setLease_plat (s : State) (n : Nat) (v : Lease) : (s.setLease n v).plat = s.plat := rfl
@[simp] theorem State.setLease_agenda (s : State) (n : Nat) (v : Lease) : (s.setLease n v).agenda = s.agenda := rfl
@[simp] theorem State.setLease_arg (s : State) (n : Nat) (v : Lease) : (s.setLease n v).arg = s.arg := rfl
@[simp] theorem State.setLease_free (s : State) (n : Nat) (v : Lease) : (s.setLease n v).free = s.free := rfl
@[simp] theorem State.setLease_ids (s : State) (n : Nat) (v : Lease) : (s.setLease n v).ids = s.ids := rfl
@[simp] theorem State.setLease_seq (s : State) (n : Nat) (v : Lease) : (s.setLease n v).seq = s.seq := rfl

@[simp] theorem State.modAccess_core (s : State) (id : Nat) (f : Access → Access) : (s.modAccess id f).core = s.core := rfl
@[simp] theorem State.modAccess_cube (s : State) (id : Nat) (f : Access → Access) : (s.modAccess id f).cube = s.cube := rfl
@[simp] theorem State.modAccess_copy (s : State) (id : Nat) (f : Access → Access) : (s.modAccess id f).copy = s.copy := rfl
@[simp] theorem State.modAccess_sched (s : State) (id : Nat) (f : Access → Access) : (s.modAccess id f).sched = s.sched := rfl
@[simp] theorem State.modAccess_fab (s : State) (id : Nat) (f : Access → Access) : (s.modAccess id f).fab = s.fab := rfl
@[simp] theorem State.modAccess_pow (s : State) (id : Nat) (f : Access → Access) : (s.modAccess id f).pow = s.pow := rfl
@[simp] theorem State.modAccess_plat (s : State) (id : Nat) (f : Access → Access) : (s.modAccess id f).plat = s.plat := rfl
@[simp] theorem State.modAccess_agenda (s : State) (id : Nat) (f : Access → Access) : (s.modAccess id f).agenda = s.agenda := rfl
@[simp] theorem State.modAccess_arg (s : State) (id : Nat) (f : Access → Access) : (s.modAccess id f).arg = s.arg := rfl
@[simp] theorem State.modAccess_free (s : State) (id : Nat) (f : Access → Access) : (s.modAccess id f).free = s.free := rfl
@[simp] theorem State.modAccess_ids (s : State) (id : Nat) (f : Access → Access) : (s.modAccess id f).ids = s.ids := rfl
@[simp] theorem State.modAccess_seq (s : State) (id : Nat) (f : Access → Access) : (s.modAccess id f).seq = s.seq := rfl
@[simp] theorem State.modAccess_ms_mem (s : State) (id : Nat) (f : Access → Access) : (s.modAccess id f).ms.mem = s.ms.mem := rfl
@[simp] theorem State.modAccess_ms_poison (s : State) (id : Nat) (f : Access → Access) : (s.modAccess id f).ms.poison = s.ms.poison := rfl
@[simp] theorem State.modAccess_ms_istore (s : State) (id : Nat) (f : Access → Access) : (s.modAccess id f).ms.istore = s.ms.istore := rfl
@[simp] theorem State.modAccess_ms_flags (s : State) (id : Nat) (f : Access → Access) : (s.modAccess id f).ms.flags = s.ms.flags := rfl
@[simp] theorem State.modAccess_ms_flagSeq (s : State) (id : Nat) (f : Access → Access) : (s.modAccess id f).ms.flagSeq = s.ms.flagSeq := rfl
@[simp] theorem State.modAccess_ms_touched (s : State) (id : Nat) (f : Access → Access) : (s.modAccess id f).ms.touched = s.ms.touched := rfl
@[simp] theorem State.modAccess_ms_flagsWas (s : State) (id : Nat) (f : Access → Access) : (s.modAccess id f).ms.flagsWas = s.ms.flagsWas := rfl
@[simp] theorem State.modAccess_ms_ptb (s : State) (id : Nat) (f : Access → Access) : (s.modAccess id f).ms.ptb = s.ms.ptb := rfl
@[simp] theorem State.modAccess_ms_ltb (s : State) (id : Nat) (f : Access → Access) : (s.modAccess id f).ms.ltb = s.ms.ltb := rfl
@[simp] theorem State.modAccess_ms_tlb (s : State) (id : Nat) (f : Access → Access) : (s.modAccess id f).ms.tlb = s.ms.tlb := rfl
@[simp] theorem State.modAccess_ms_walks (s : State) (id : Nat) (f : Access → Access) : (s.modAccess id f).ms.walks = s.ms.walks := rfl
@[simp] theorem State.modAccess_ms_flips (s : State) (id : Nat) (f : Access → Access) : (s.modAccess id f).ms.flips = s.ms.flips := rfl
@[simp] theorem State.modAccess_ms_amos (s : State) (id : Nat) (f : Access → Access) : (s.modAccess id f).ms.amos = s.ms.amos := rfl
@[simp] theorem State.modAccess_ms_amosEnd (s : State) (id : Nat) (f : Access → Access) : (s.modAccess id f).ms.amosEnd = s.ms.amosEnd := rfl
@[simp] theorem State.modAccess_ms_rels (s : State) (id : Nat) (f : Access → Access) : (s.modAccess id f).ms.rels = s.ms.rels := rfl
@[simp] theorem State.modAccess_ms_pmiss (s : State) (id : Nat) (f : Access → Access) : (s.modAccess id f).ms.pmiss = s.ms.pmiss := rfl
@[simp] theorem State.modAccess_ms_laycache (s : State) (id : Nat) (f : Access → Access) : (s.modAccess id f).ms.laycache = s.ms.laycache := rfl
@[simp] theorem State.modAccess_ms_laymiss (s : State) (id : Nat) (f : Access → Access) : (s.modAccess id f).ms.laymiss = s.ms.laymiss := rfl
@[simp] theorem State.modAccess_ms_hostLost (s : State) (id : Nat) (f : Access → Access) : (s.modAccess id f).ms.hostLost = s.ms.hostLost := rfl

@[simp] theorem State.modDesc_core (s : State) (id : Nat) (f : Desc → Desc) : (s.modDesc id f).core = s.core := rfl
@[simp] theorem State.modDesc_ms (s : State) (id : Nat) (f : Desc → Desc) : (s.modDesc id f).ms = s.ms := rfl
@[simp] theorem State.modDesc_cube (s : State) (id : Nat) (f : Desc → Desc) : (s.modDesc id f).cube = s.cube := rfl
@[simp] theorem State.modDesc_sched (s : State) (id : Nat) (f : Desc → Desc) : (s.modDesc id f).sched = s.sched := rfl
@[simp] theorem State.modDesc_fab (s : State) (id : Nat) (f : Desc → Desc) : (s.modDesc id f).fab = s.fab := rfl
@[simp] theorem State.modDesc_pow (s : State) (id : Nat) (f : Desc → Desc) : (s.modDesc id f).pow = s.pow := rfl
@[simp] theorem State.modDesc_plat (s : State) (id : Nat) (f : Desc → Desc) : (s.modDesc id f).plat = s.plat := rfl
@[simp] theorem State.modDesc_agenda (s : State) (id : Nat) (f : Desc → Desc) : (s.modDesc id f).agenda = s.agenda := rfl
@[simp] theorem State.modDesc_arg (s : State) (id : Nat) (f : Desc → Desc) : (s.modDesc id f).arg = s.arg := rfl
@[simp] theorem State.modDesc_free (s : State) (id : Nat) (f : Desc → Desc) : (s.modDesc id f).free = s.free := rfl
@[simp] theorem State.modDesc_ids (s : State) (id : Nat) (f : Desc → Desc) : (s.modDesc id f).ids = s.ids := rfl
@[simp] theorem State.modDesc_seq (s : State) (id : Nat) (f : Desc → Desc) : (s.modDesc id f).seq = s.seq := rfl

@[simp] theorem State.setCone_core (s : State) (l g : Nat) (c : Cone) : (s.setCone l g c).core = s.core := rfl
@[simp] theorem State.setCone_ms (s : State) (l g : Nat) (c : Cone) : (s.setCone l g c).ms = s.ms := rfl
@[simp] theorem State.setCone_cube (s : State) (l g : Nat) (c : Cone) : (s.setCone l g c).cube = s.cube := rfl
@[simp] theorem State.setCone_copy (s : State) (l g : Nat) (c : Cone) : (s.setCone l g c).copy = s.copy := rfl
@[simp] theorem State.setCone_sched (s : State) (l g : Nat) (c : Cone) : (s.setCone l g c).sched = s.sched := rfl
@[simp] theorem State.setCone_fab (s : State) (l g : Nat) (c : Cone) : (s.setCone l g c).fab = s.fab := rfl
@[simp] theorem State.setCone_plat (s : State) (l g : Nat) (c : Cone) : (s.setCone l g c).plat = s.plat := rfl
@[simp] theorem State.setCone_agenda (s : State) (l g : Nat) (c : Cone) : (s.setCone l g c).agenda = s.agenda := rfl
@[simp] theorem State.setCone_arg (s : State) (l g : Nat) (c : Cone) : (s.setCone l g c).arg = s.arg := rfl
@[simp] theorem State.setCone_free (s : State) (l g : Nat) (c : Cone) : (s.setCone l g c).free = s.free := rfl
@[simp] theorem State.setCone_ids (s : State) (l g : Nat) (c : Cone) : (s.setCone l g c).ids = s.ids := rfl
@[simp] theorem State.setCone_seq (s : State) (l g : Nat) (c : Cone) : (s.setCone l g c).seq = s.seq := rfl

@[simp] theorem State.send_core (s : State) (c : Cell) : (s.send c).core = s.core := rfl
@[simp] theorem State.send_ms (s : State) (c : Cell) : (s.send c).ms = s.ms := rfl
@[simp] theorem State.send_cube (s : State) (c : Cell) : (s.send c).cube = s.cube := rfl
@[simp] theorem State.send_copy (s : State) (c : Cell) : (s.send c).copy = s.copy := rfl
@[simp] theorem State.send_sched (s : State) (c : Cell) : (s.send c).sched = s.sched := rfl
@[simp] theorem State.send_pow (s : State) (c : Cell) : (s.send c).pow = s.pow := rfl
@[simp] theorem State.send_plat (s : State) (c : Cell) : (s.send c).plat = s.plat := rfl
@[simp] theorem State.send_agenda (s : State) (c : Cell) : (s.send c).agenda = s.agenda := rfl
@[simp] theorem State.send_arg (s : State) (c : Cell) : (s.send c).arg = s.arg := rfl
@[simp] theorem State.send_free (s : State) (c : Cell) : (s.send c).free = s.free := rfl
@[simp] theorem State.send_ids (s : State) (c : Cell) : (s.send c).ids = s.ids := rfl
@[simp] theorem State.send_seq (s : State) (c : Cell) : (s.send c).seq = s.seq := rfl

/-! ## Parts of a context -/

@[simp] theorem Ctx.setStall_uid (c : Ctx) (k : Nat) (v : Word) : (c.setStall k v).uid = c.uid := rfl
@[simp] theorem Ctx.setStall_pc (c : Ctx) (k : Nat) (v : Word) : (c.setStall k v).pc = c.pc := rfl
@[simp] theorem Ctx.setStall_loops (c : Ctx) (k : Nat) (v : Word) : (c.setStall k v).loops = c.loops := rfl
@[simp] theorem Ctx.setStall_dly (c : Ctx) (k : Nat) (v : Word) : (c.setStall k v).dly = c.dly := rfl
@[simp] theorem Ctx.setStall_dtgt (c : Ctx) (k : Nat) (v : Word) : (c.setStall k v).dtgt = c.dtgt := rfl
@[simp] theorem Ctx.setStall_x (c : Ctx) (k : Nat) (v : Word) : (c.setStall k v).x = c.x := rfl
@[simp] theorem Ctx.setStall_h (c : Ctx) (k : Nat) (v : Word) : (c.setStall k v).h = c.h := rfl
@[simp] theorem Ctx.setStall_v (c : Ctx) (k : Nat) (v : Word) : (c.setStall k v).v = c.v := rfl
@[simp] theorem Ctx.setStall_m (c : Ctx) (k : Nat) (v : Word) : (c.setStall k v).m = c.m := rfl
@[simp] theorem Ctx.setStall_streams (c : Ctx) (k : Nat) (v : Word) : (c.setStall k v).streams = c.streams := rfl
@[simp] theorem Ctx.setStall_clusters (c : Ctx) (k : Nat) (v : Word) : (c.setStall k v).clusters = c.clusters := rfl
@[simp] theorem Ctx.setStall_fpx (c : Ctx) (k : Nat) (v : Word) : (c.setStall k v).fpx = c.fpx := rfl
@[simp] theorem Ctx.setStall_fpm (c : Ctx) (k : Nat) (v : Word) : (c.setStall k v).fpm = c.fpm := rfl
@[simp] theorem Ctx.setStall_src (c : Ctx) (k : Nat) (v : Word) : (c.setStall k v).src = c.src := rfl
@[simp] theorem Ctx.setStall_srs (c : Ctx) (k : Nat) (v : Word) : (c.setStall k v).srs = c.srs := rfl
@[simp] theorem Ctx.setStall_vrb (c : Ctx) (k : Nat) (v : Word) : (c.setStall k v).vrb = c.vrb := rfl
@[simp] theorem Ctx.setStall_mrb (c : Ctx) (k : Nat) (v : Word) : (c.setStall k v).mrb = c.mrb := rfl
@[simp] theorem Ctx.setStall_stb (c : Ctx) (k : Nat) (v : Word) : (c.setStall k v).stb = tput c.stb k v 0 := rfl
@[simp] theorem Ctx.setStall_bcnt (c : Ctx) (k : Nat) (v : Word) : (c.setStall k v).bcnt = c.bcnt := rfl
@[simp] theorem Ctx.setStall_card (c : Ctx) (k : Nat) (v : Word) : (c.setStall k v).card = c.card := rfl
@[simp] theorem Ctx.setStall_prio (c : Ctx) (k : Nat) (v : Word) : (c.setStall k v).prio = c.prio := rfl
@[simp] theorem Ctx.setStall_queue (c : Ctx) (k : Nat) (v : Word) : (c.setStall k v).queue = c.queue := rfl
@[simp] theorem Ctx.setStall_priv (c : Ctx) (k : Nat) (v : Word) : (c.setStall k v).priv = c.priv := rfl
@[simp] theorem Ctx.setStall_rmask (c : Ctx) (k : Nat) (v : Word) : (c.setStall k v).rmask = c.rmask := rfl
@[simp] theorem Ctx.setStall_asid (c : Ctx) (k : Nat) (v : Word) : (c.setStall k v).asid = c.asid := rfl
@[simp] theorem Ctx.setStall_ncnt (c : Ctx) (k : Nat) (v : Word) : (c.setStall k v).ncnt = c.ncnt := rfl
@[simp] theorem Ctx.setStall_last (c : Ctx) (k : Nat) (v : Word) : (c.setStall k v).last = c.last := rfl
@[simp] theorem Ctx.setStall_held (c : Ctx) (k : Nat) (v : Word) : (c.setStall k v).held = c.held := rfl
@[simp] theorem Ctx.setStall_ended (c : Ctx) (k : Nat) (v : Word) : (c.setStall k v).ended = c.ended := rfl
@[simp] theorem Ctx.setStall_since (c : Ctx) (k : Nat) (v : Word) : (c.setStall k v).since = c.since := rfl
@[simp] theorem Ctx.setStall_atPoint (c : Ctx) (k : Nat) (v : Word) : (c.setStall k v).atPoint = c.atPoint := rfl
@[simp] theorem Ctx.setStall_dline (c : Ctx) (k : Nat) (v : Word) : (c.setStall k v).dline = c.dline := rfl
@[simp] theorem Ctx.setStall_waitBts (c : Ctx) (k : Nat) (v : Word) : (c.setStall k v).waitBts = c.waitBts := rfl
@[simp] theorem Ctx.setStall_unseat (c : Ctx) (k : Nat) (v : Word) : (c.setStall k v).unseat = c.unseat := rfl
@[simp] theorem Ctx.setStall_noSeat (c : Ctx) (k : Nat) (v : Word) : (c.setStall k v).noSeat = c.noSeat := rfl
@[simp] theorem Ctx.setStall_pend (c : Ctx) (k : Nat) (v : Word) : (c.setStall k v).pend = c.pend := rfl
@[simp] theorem Ctx.setStall_locks (c : Ctx) (k : Nat) (v : Word) : (c.setStall k v).locks = c.locks := rfl
@[simp] theorem Ctx.setStall_chans (c : Ctx) (k : Nat) (v : Word) : (c.setStall k v).chans = c.chans := rfl
@[simp] theorem Ctx.setStall_bad (c : Ctx) (k : Nat) (v : Word) : (c.setStall k v).bad = c.bad := rfl
@[simp] theorem Ctx.setStall_fences (c : Ctx) (k : Nat) (v : Word) : (c.setStall k v).fences = c.fences := rfl
@[simp] theorem Ctx.setStall_ilockEnd (c : Ctx) (k : Nat) (v : Word) : (c.setStall k v).ilockEnd = c.ilockEnd := rfl
@[simp] theorem Ctx.setStall_begun (c : Ctx) (k : Nat) (v : Word) : (c.setStall k v).begun = c.begun := rfl

@[simp] theorem Ctx.setStrm_uid (c : Ctx) (k : Nat) (v : Stream) : (c.setStrm k v).uid = c.uid := rfl
@[simp] theorem Ctx.setStrm_pc (c : Ctx) (k : Nat) (v : Stream) : (c.setStrm k v).pc = c.pc := rfl
@[simp] theorem Ctx.setStrm_loops (c : Ctx) (k : Nat) (v : Stream) : (c.setStrm k v).loops = c.loops := rfl
@[simp] theorem Ctx.setStrm_dly (c : Ctx) (k : Nat) (v : Stream) : (c.setStrm k v).dly = c.dly := rfl
@[simp] theorem Ctx.setStrm_dtgt (c : Ctx) (k : Nat) (v : Stream) : (c.setStrm k v).dtgt = c.dtgt := rfl
@[simp] theorem Ctx.setStrm_x (c : Ctx) (k : Nat) (v : Stream) : (c.setStrm k v).x = c.x := rfl
@[simp] theorem Ctx.setStrm_h (c : Ctx) (k : Nat) (v : Stream) : (c.setStrm k v).h = c.h := rfl
@[simp] theorem Ctx.setStrm_v (c : Ctx) (k : Nat) (v : Stream) : (c.setStrm k v).v = c.v := rfl
@[simp] theorem Ctx.setStrm_m (c : Ctx) (k : Nat) (v : Stream) : (c.setStrm k v).m = c.m := rfl
@[simp] theorem Ctx.setStrm_streams (c : Ctx) (k : Nat) (v : Stream) : (c.setStrm k v).streams = tput c.streams k v Stream.none := rfl
@[simp] theorem Ctx.setStrm_clusters (c : Ctx) (k : Nat) (v : Stream) : (c.setStrm k v).clusters = c.clusters := rfl
@[simp] theorem Ctx.setStrm_fpx (c : Ctx) (k : Nat) (v : Stream) : (c.setStrm k v).fpx = c.fpx := rfl
@[simp] theorem Ctx.setStrm_fpm (c : Ctx) (k : Nat) (v : Stream) : (c.setStrm k v).fpm = c.fpm := rfl
@[simp] theorem Ctx.setStrm_src (c : Ctx) (k : Nat) (v : Stream) : (c.setStrm k v).src = c.src := rfl
@[simp] theorem Ctx.setStrm_srs (c : Ctx) (k : Nat) (v : Stream) : (c.setStrm k v).srs = c.srs := rfl
@[simp] theorem Ctx.setStrm_vrb (c : Ctx) (k : Nat) (v : Stream) : (c.setStrm k v).vrb = c.vrb := rfl
@[simp] theorem Ctx.setStrm_mrb (c : Ctx) (k : Nat) (v : Stream) : (c.setStrm k v).mrb = c.mrb := rfl
@[simp] theorem Ctx.setStrm_stb (c : Ctx) (k : Nat) (v : Stream) : (c.setStrm k v).stb = c.stb := rfl
@[simp] theorem Ctx.setStrm_bcnt (c : Ctx) (k : Nat) (v : Stream) : (c.setStrm k v).bcnt = c.bcnt := rfl
@[simp] theorem Ctx.setStrm_card (c : Ctx) (k : Nat) (v : Stream) : (c.setStrm k v).card = c.card := rfl
@[simp] theorem Ctx.setStrm_prio (c : Ctx) (k : Nat) (v : Stream) : (c.setStrm k v).prio = c.prio := rfl
@[simp] theorem Ctx.setStrm_queue (c : Ctx) (k : Nat) (v : Stream) : (c.setStrm k v).queue = c.queue := rfl
@[simp] theorem Ctx.setStrm_priv (c : Ctx) (k : Nat) (v : Stream) : (c.setStrm k v).priv = c.priv := rfl
@[simp] theorem Ctx.setStrm_rmask (c : Ctx) (k : Nat) (v : Stream) : (c.setStrm k v).rmask = c.rmask := rfl
@[simp] theorem Ctx.setStrm_asid (c : Ctx) (k : Nat) (v : Stream) : (c.setStrm k v).asid = c.asid := rfl
@[simp] theorem Ctx.setStrm_ncnt (c : Ctx) (k : Nat) (v : Stream) : (c.setStrm k v).ncnt = c.ncnt := rfl
@[simp] theorem Ctx.setStrm_last (c : Ctx) (k : Nat) (v : Stream) : (c.setStrm k v).last = c.last := rfl
@[simp] theorem Ctx.setStrm_held (c : Ctx) (k : Nat) (v : Stream) : (c.setStrm k v).held = c.held := rfl
@[simp] theorem Ctx.setStrm_ended (c : Ctx) (k : Nat) (v : Stream) : (c.setStrm k v).ended = c.ended := rfl
@[simp] theorem Ctx.setStrm_since (c : Ctx) (k : Nat) (v : Stream) : (c.setStrm k v).since = c.since := rfl
@[simp] theorem Ctx.setStrm_atPoint (c : Ctx) (k : Nat) (v : Stream) : (c.setStrm k v).atPoint = c.atPoint := rfl
@[simp] theorem Ctx.setStrm_dline (c : Ctx) (k : Nat) (v : Stream) : (c.setStrm k v).dline = c.dline := rfl
@[simp] theorem Ctx.setStrm_waitBts (c : Ctx) (k : Nat) (v : Stream) : (c.setStrm k v).waitBts = c.waitBts := rfl
@[simp] theorem Ctx.setStrm_unseat (c : Ctx) (k : Nat) (v : Stream) : (c.setStrm k v).unseat = c.unseat := rfl
@[simp] theorem Ctx.setStrm_noSeat (c : Ctx) (k : Nat) (v : Stream) : (c.setStrm k v).noSeat = c.noSeat := rfl
@[simp] theorem Ctx.setStrm_pend (c : Ctx) (k : Nat) (v : Stream) : (c.setStrm k v).pend = c.pend := rfl
@[simp] theorem Ctx.setStrm_locks (c : Ctx) (k : Nat) (v : Stream) : (c.setStrm k v).locks = c.locks := rfl
@[simp] theorem Ctx.setStrm_chans (c : Ctx) (k : Nat) (v : Stream) : (c.setStrm k v).chans = c.chans := rfl
@[simp] theorem Ctx.setStrm_bad (c : Ctx) (k : Nat) (v : Stream) : (c.setStrm k v).bad = c.bad := rfl
@[simp] theorem Ctx.setStrm_fences (c : Ctx) (k : Nat) (v : Stream) : (c.setStrm k v).fences = c.fences := rfl
@[simp] theorem Ctx.setStrm_ilockEnd (c : Ctx) (k : Nat) (v : Stream) : (c.setStrm k v).ilockEnd = c.ilockEnd := rfl
@[simp] theorem Ctx.setStrm_begun (c : Ctx) (k : Nat) (v : Stream) : (c.setStrm k v).begun = c.begun := rfl

@[simp] theorem Ctx.setH_uid (c : Ctx) (n : Nat) (v : Handle) : (c.setH n v).uid = c.uid := rfl
@[simp] theorem Ctx.setH_pc (c : Ctx) (n : Nat) (v : Handle) : (c.setH n v).pc = c.pc := rfl
@[simp] theorem Ctx.setH_loops (c : Ctx) (n : Nat) (v : Handle) : (c.setH n v).loops = c.loops := rfl
@[simp] theorem Ctx.setH_dly (c : Ctx) (n : Nat) (v : Handle) : (c.setH n v).dly = c.dly := rfl
@[simp] theorem Ctx.setH_dtgt (c : Ctx) (n : Nat) (v : Handle) : (c.setH n v).dtgt = c.dtgt := rfl
@[simp] theorem Ctx.setH_x (c : Ctx) (n : Nat) (v : Handle) : (c.setH n v).x = c.x := rfl
@[simp] theorem Ctx.setH_h (c : Ctx) (n : Nat) (v : Handle) : (c.setH n v).h = tput c.h n v Handle.zero := rfl
@[simp] theorem Ctx.setH_v (c : Ctx) (n : Nat) (v : Handle) : (c.setH n v).v = c.v := rfl
@[simp] theorem Ctx.setH_m (c : Ctx) (n : Nat) (v : Handle) : (c.setH n v).m = c.m := rfl
@[simp] theorem Ctx.setH_streams (c : Ctx) (n : Nat) (v : Handle) : (c.setH n v).streams = c.streams := rfl
@[simp] theorem Ctx.setH_clusters (c : Ctx) (n : Nat) (v : Handle) : (c.setH n v).clusters = c.clusters := rfl
@[simp] theorem Ctx.setH_fpx (c : Ctx) (n : Nat) (v : Handle) : (c.setH n v).fpx = c.fpx := rfl
@[simp] theorem Ctx.setH_fpm (c : Ctx) (n : Nat) (v : Handle) : (c.setH n v).fpm = c.fpm := rfl
@[simp] theorem Ctx.setH_src (c : Ctx) (n : Nat) (v : Handle) : (c.setH n v).src = c.src := rfl
@[simp] theorem Ctx.setH_srs (c : Ctx) (n : Nat) (v : Handle) : (c.setH n v).srs = c.srs := rfl
@[simp] theorem Ctx.setH_vrb (c : Ctx) (n : Nat) (v : Handle) : (c.setH n v).vrb = c.vrb := rfl
@[simp] theorem Ctx.setH_mrb (c : Ctx) (n : Nat) (v : Handle) : (c.setH n v).mrb = c.mrb := rfl
@[simp] theorem Ctx.setH_stb (c : Ctx) (n : Nat) (v : Handle) : (c.setH n v).stb = c.stb := rfl
@[simp] theorem Ctx.setH_bcnt (c : Ctx) (n : Nat) (v : Handle) : (c.setH n v).bcnt = c.bcnt := rfl
@[simp] theorem Ctx.setH_card (c : Ctx) (n : Nat) (v : Handle) : (c.setH n v).card = c.card := rfl
@[simp] theorem Ctx.setH_prio (c : Ctx) (n : Nat) (v : Handle) : (c.setH n v).prio = c.prio := rfl
@[simp] theorem Ctx.setH_queue (c : Ctx) (n : Nat) (v : Handle) : (c.setH n v).queue = c.queue := rfl
@[simp] theorem Ctx.setH_priv (c : Ctx) (n : Nat) (v : Handle) : (c.setH n v).priv = c.priv := rfl
@[simp] theorem Ctx.setH_rmask (c : Ctx) (n : Nat) (v : Handle) : (c.setH n v).rmask = c.rmask := rfl
@[simp] theorem Ctx.setH_asid (c : Ctx) (n : Nat) (v : Handle) : (c.setH n v).asid = c.asid := rfl
@[simp] theorem Ctx.setH_ncnt (c : Ctx) (n : Nat) (v : Handle) : (c.setH n v).ncnt = c.ncnt := rfl
@[simp] theorem Ctx.setH_last (c : Ctx) (n : Nat) (v : Handle) : (c.setH n v).last = c.last := rfl
@[simp] theorem Ctx.setH_held (c : Ctx) (n : Nat) (v : Handle) : (c.setH n v).held = c.held := rfl
@[simp] theorem Ctx.setH_ended (c : Ctx) (n : Nat) (v : Handle) : (c.setH n v).ended = c.ended := rfl
@[simp] theorem Ctx.setH_since (c : Ctx) (n : Nat) (v : Handle) : (c.setH n v).since = c.since := rfl
@[simp] theorem Ctx.setH_atPoint (c : Ctx) (n : Nat) (v : Handle) : (c.setH n v).atPoint = c.atPoint := rfl
@[simp] theorem Ctx.setH_dline (c : Ctx) (n : Nat) (v : Handle) : (c.setH n v).dline = c.dline := rfl
@[simp] theorem Ctx.setH_waitBts (c : Ctx) (n : Nat) (v : Handle) : (c.setH n v).waitBts = c.waitBts := rfl
@[simp] theorem Ctx.setH_unseat (c : Ctx) (n : Nat) (v : Handle) : (c.setH n v).unseat = c.unseat := rfl
@[simp] theorem Ctx.setH_noSeat (c : Ctx) (n : Nat) (v : Handle) : (c.setH n v).noSeat = c.noSeat := rfl
@[simp] theorem Ctx.setH_pend (c : Ctx) (n : Nat) (v : Handle) : (c.setH n v).pend = c.pend := rfl
@[simp] theorem Ctx.setH_locks (c : Ctx) (n : Nat) (v : Handle) : (c.setH n v).locks = c.locks := rfl
@[simp] theorem Ctx.setH_chans (c : Ctx) (n : Nat) (v : Handle) : (c.setH n v).chans = c.chans := rfl
@[simp] theorem Ctx.setH_bad (c : Ctx) (n : Nat) (v : Handle) : (c.setH n v).bad = c.bad := rfl
@[simp] theorem Ctx.setH_fences (c : Ctx) (n : Nat) (v : Handle) : (c.setH n v).fences = c.fences := rfl
@[simp] theorem Ctx.setH_ilockEnd (c : Ctx) (n : Nat) (v : Handle) : (c.setH n v).ilockEnd = c.ilockEnd := rfl
@[simp] theorem Ctx.setH_begun (c : Ctx) (n : Nat) (v : Handle) : (c.setH n v).begun = c.begun := rfl

@[simp] theorem Ctx.count_uid (c : Ctx) (b : Nat) : (c.count b).uid = c.uid := rfl
@[simp] theorem Ctx.count_pc (c : Ctx) (b : Nat) : (c.count b).pc = c.pc := rfl
@[simp] theorem Ctx.count_loops (c : Ctx) (b : Nat) : (c.count b).loops = c.loops := rfl
@[simp] theorem Ctx.count_dly (c : Ctx) (b : Nat) : (c.count b).dly = c.dly := rfl
@[simp] theorem Ctx.count_dtgt (c : Ctx) (b : Nat) : (c.count b).dtgt = c.dtgt := rfl
@[simp] theorem Ctx.count_x (c : Ctx) (b : Nat) : (c.count b).x = c.x := rfl
@[simp] theorem Ctx.count_h (c : Ctx) (b : Nat) : (c.count b).h = c.h := rfl
@[simp] theorem Ctx.count_v (c : Ctx) (b : Nat) : (c.count b).v = c.v := rfl
@[simp] theorem Ctx.count_m (c : Ctx) (b : Nat) : (c.count b).m = c.m := rfl
@[simp] theorem Ctx.count_streams (c : Ctx) (b : Nat) : (c.count b).streams = c.streams := rfl
@[simp] theorem Ctx.count_clusters (c : Ctx) (b : Nat) : (c.count b).clusters = c.clusters := rfl
@[simp] theorem Ctx.count_fpx (c : Ctx) (b : Nat) : (c.count b).fpx = c.fpx := rfl
@[simp] theorem Ctx.count_fpm (c : Ctx) (b : Nat) : (c.count b).fpm = c.fpm := rfl
@[simp] theorem Ctx.count_src (c : Ctx) (b : Nat) : (c.count b).src = c.src := rfl
@[simp] theorem Ctx.count_srs (c : Ctx) (b : Nat) : (c.count b).srs = c.srs := rfl
@[simp] theorem Ctx.count_vrb (c : Ctx) (b : Nat) : (c.count b).vrb = c.vrb := rfl
@[simp] theorem Ctx.count_mrb (c : Ctx) (b : Nat) : (c.count b).mrb = c.mrb := rfl
@[simp] theorem Ctx.count_stb (c : Ctx) (b : Nat) : (c.count b).stb = c.stb := rfl
@[simp] theorem Ctx.count_bcnt (c : Ctx) (b : Nat) : (c.count b).bcnt = c.bcnt + 1 := rfl
@[simp] theorem Ctx.count_card (c : Ctx) (b : Nat) : (c.count b).card = c.card := rfl
@[simp] theorem Ctx.count_prio (c : Ctx) (b : Nat) : (c.count b).prio = c.prio := rfl
@[simp] theorem Ctx.count_queue (c : Ctx) (b : Nat) : (c.count b).queue = c.queue := rfl
@[simp] theorem Ctx.count_priv (c : Ctx) (b : Nat) : (c.count b).priv = c.priv := rfl
@[simp] theorem Ctx.count_rmask (c : Ctx) (b : Nat) : (c.count b).rmask = c.rmask := rfl
@[simp] theorem Ctx.count_asid (c : Ctx) (b : Nat) : (c.count b).asid = c.asid := rfl
@[simp] theorem Ctx.count_ncnt (c : Ctx) (b : Nat) : (c.count b).ncnt = c.ncnt := rfl
@[simp] theorem Ctx.count_last (c : Ctx) (b : Nat) : (c.count b).last = c.last := rfl
@[simp] theorem Ctx.count_held (c : Ctx) (b : Nat) : (c.count b).held = c.held := rfl
@[simp] theorem Ctx.count_ended (c : Ctx) (b : Nat) : (c.count b).ended = c.ended := rfl
@[simp] theorem Ctx.count_since (c : Ctx) (b : Nat) : (c.count b).since = if b = 15 then 0 else c.since + 1 := rfl
@[simp] theorem Ctx.count_atPoint (c : Ctx) (b : Nat) : (c.count b).atPoint = false := rfl
@[simp] theorem Ctx.count_dline (c : Ctx) (b : Nat) : (c.count b).dline = c.dline := rfl
@[simp] theorem Ctx.count_waitBts (c : Ctx) (b : Nat) : (c.count b).waitBts = 0 := rfl
@[simp] theorem Ctx.count_unseat (c : Ctx) (b : Nat) : (c.count b).unseat = c.unseat := rfl
@[simp] theorem Ctx.count_noSeat (c : Ctx) (b : Nat) : (c.count b).noSeat = c.noSeat := rfl
@[simp] theorem Ctx.count_pend (c : Ctx) (b : Nat) : (c.count b).pend = c.pend := rfl
@[simp] theorem Ctx.count_locks (c : Ctx) (b : Nat) : (c.count b).locks = c.locks := rfl
@[simp] theorem Ctx.count_chans (c : Ctx) (b : Nat) : (c.count b).chans = c.chans := rfl
@[simp] theorem Ctx.count_bad (c : Ctx) (b : Nat) : (c.count b).bad = c.bad := rfl
@[simp] theorem Ctx.count_fences (c : Ctx) (b : Nat) : (c.count b).fences = c.fences := rfl
@[simp] theorem Ctx.count_ilockEnd (c : Ctx) (b : Nat) : (c.count b).ilockEnd = c.ilockEnd := rfl
@[simp] theorem Ctx.count_begun (c : Ctx) (b : Nat) : (c.count b).begun = c.begun := rfl

end Sys2Proof.Machine
end

