-- ==== Sys2Proof/Laws/Ops.lean ====
section
/-! SUPPORT. What each named operation of Machine/Ops.lean does: tables, memory, flags, contexts. -/

namespace Sys2Proof.Machine

/-! ## Tables -/

theorem find_filter {α : Type} (t : Tbl α) (j : Nat) (p : Nat × α → Bool) (h : ∀ e, e.1 = j → p e = true) :
    (t.filter p).find? (fun e => e.1 == j) = t.find? (fun e => e.1 == j) := by
  induction t with
  | nil => rfl
  | cons e t ih =>
    by_cases hj : e.1 = j
    · simp [h e hj, hj]
    · by_cases hp : p e = true <;> simp [hp, hj, ih]

theorem find_filter_none {α : Type} (t : Tbl α) (j : Nat) (p : Nat × α → Bool) (h : ∀ e, e.1 = j → p e = false) :
    (t.filter p).find? (fun e => e.1 == j) = none := by
  simp only [List.find?_eq_none, List.mem_filter, beq_iff_eq]
  intro e he hj
  simp [h e hj] at he

@[simp] theorem tfind_nil {α : Type} (k : Nat) : tfind ([] : Tbl α) k = none := rfl

@[simp] theorem tfind_tins_same {α : Type} (t : Tbl α) (k : Nat) (v : α) : tfind (tins t k v) k = some v := by
  unfold tfind tins
  rw [List.find?_append, find_filter_none t k _ (by intro e he; simp [he])]
  simp

theorem tfind_tins_ne {α : Type} (t : Tbl α) {j k : Nat} (v : α) (h : j ≠ k) : tfind (tins t k v) j = tfind t j := by
  unfold tfind tins
  have hk : (k == j) = false := by simpa using Ne.symm h
  rw [List.find?_append, List.find?_cons, hk]
  rcases Nat.lt_or_gt_of_ne h with hl | hg
  · rw [find_filter t j _ (by intro e he; simp [he, hl]), find_filter_none t j _ (by intro e he; simp [he]; omega)]
    cases t.find? (fun e => e.1 == j) <;> rfl
  · rw [find_filter_none t j _ (by intro e he; simp [he]; omega), find_filter t j _ (by intro e he; simp [he, hg])]
    rfl

@[simp] theorem tfind_tdel_same {α : Type} (t : Tbl α) (k : Nat) : tfind (tdel t k) k = none := by
  unfold tfind tdel
  rw [find_filter_none t k _ (by intro e he; simp [he])]
  rfl

theorem tfind_tdel_ne {α : Type} (t : Tbl α) {j k : Nat} (h : j ≠ k) : tfind (tdel t k) j = tfind t j := by
  unfold tfind tdel
  rw [find_filter t j _ (by intro e he; simpa [he] using h)]

@[simp] theorem tget_tput_same {α : Type} [DecidableEq α] (t : Tbl α) (k : Nat) (v d : α) : tget (tput t k v d) k d = v := by
  unfold tget tput
  split
  · rename_i h; simp [h]
  · simp

theorem tget_tput_ne {α : Type} [DecidableEq α] (t : Tbl α) {j k : Nat} (v d : α) (h : j ≠ k) :
    tget (tput t k v d) j d = tget t j d := by
  unfold tget tput
  split
  · rw [tfind_tdel_ne t h]
  · rw [tfind_tins_ne t v h]

/-! ## Bytes -/

@[simp] theorem leBytes_length (n v : Nat) : (leBytes n v).length = n := by simp [leBytes]

theorem leNat_cons (b : Byte) (bs : List Byte) : leNat (b :: bs) = b.toNat + 256 * leNat bs := rfl

theorem leBytes_succ (n v : Nat) : leBytes (n + 1) v = BitVec.ofNat 8 v :: leBytes n (v / 256) := by
  unfold leBytes
  rw [List.range_succ_eq_map]
  simp only [List.map_cons, List.map_map, Nat.mul_zero, Nat.shiftRight_zero]
  congr 1
  apply List.map_congr_left
  intro i _
  simp only [Function.comp]
  rw [Nat.shiftRight_eq_div_pow, Nat.shiftRight_eq_div_pow, Nat.div_div_eq_div_mul]
  congr 2
  rw [show 8 * Nat.succ i = 8 + 8 * i by omega, Nat.pow_add]

/-- Little-endian bytes read back as the number they were made of. -/
theorem leNat_leBytes (n v : Nat) : leNat (leBytes n v) = v % 2 ^ (8 * n) := by
  induction n generalizing v with
  | zero => simp [leBytes, leNat, Nat.mod_one]
  | succ n ih =>
    rw [leBytes_succ, leNat_cons, ih, BitVec.toNat_ofNat, show 8 * (n + 1) = 8 + 8 * n by omega, Nat.pow_add]
    exact (Nat.mod_mul (x := v) (a := 2 ^ 8) (b := 2 ^ (8 * n))).symm

/-! ## Plain memories -/

theorem memCells_mem {a : Nat} {bs : List Byte} {e : Nat × Byte} (h : e ∈ memCells a bs) :
    a ≤ e.1 ∧ e.1 < a + bs.length ∧ e.2 ≠ Config.memDefault := by
  induction bs generalizing a with
  | nil => simp [memCells] at h
  | cons b bs ih =>
    unfold memCells at h
    split at h
    · have := ih h
      simp only [List.length_cons]
      exact ⟨by omega, by omega, this.2.2⟩
    · rename_i hb
      rcases List.mem_cons.mp h with rfl | h
      · exact ⟨Nat.le_refl _, by simp, hb⟩
      · have := ih h
        simp only [List.length_cons]
        exact ⟨by omega, by omega, this.2.2⟩

theorem memCells_sorted (a : Nat) (bs : List Byte) : ((memCells a bs).map (·.1)).Pairwise (· < ·) := by
  induction bs generalizing a with
  | nil => simp [memCells]
  | cons b bs ih =>
    unfold memCells
    split
    · exact ih (a + 1)
    · simp only [List.map_cons, List.pairwise_cons]
      refine ⟨?_, ih (a + 1)⟩
      intro k hk
      obtain ⟨e, he, rfl⟩ := List.mem_map.mp hk
      have := (memCells_mem he).1
      omega

theorem tfind_memCells (a : Nat) (bs : List Byte) (x : Nat) (hx : a ≤ x) (hl : x < a + bs.length) :
    tget (memCells a bs) x Config.memDefault = bs.getD (x - a) Config.memDefault := by
  induction bs generalizing a with
  | nil => simp at hl; omega
  | cons b bs ih =>
    simp only [List.length_cons] at hl
    unfold memCells
    by_cases hxa : x = a
    · subst hxa
      simp only [Nat.sub_self, List.getD_cons_zero]
      split
      · rename_i hb
        rw [hb]
        have : tfind (memCells (x + 1) bs) x = none := by
          unfold tfind
          rw [List.find?_eq_none.mpr]
          · rfl
          · intro e he hk
            have := (memCells_mem he).1
            simp at hk; omega
        simp [tget, this]
      · simp [tget, tfind]
    · have h1 : x - a = (x - (a + 1)) + 1 := by omega
      rw [h1, List.getD_cons_succ]
      split
      · exact ih (a + 1) (by omega) (by omega)
      · have hk : (a == x) = false := by simpa using fun h => hxa h.symm
        rw [← ih (a + 1) (by omega) (by omega)]
        simp [tget, tfind, hk]

/-- The writing of a memory keeps its canonical form. -/
theorem memWrite_wf {m : Mem} (h : Memory.wf m) (a : Nat) (bs : List Byte) : Memory.wf (memWrite m a bs) := by
  obtain ⟨hs, hd⟩ := h
  have hs' : m.Pairwise (fun e f => e.1 < f.1) := List.pairwise_map.mp hs
  constructor
  · rw [List.pairwise_map]
    unfold memWrite
    rw [List.append_assoc, List.pairwise_append]
    refine ⟨hs'.filter _, ?_, ?_⟩
    · rw [List.pairwise_append]
      refine ⟨List.pairwise_map.mp (memCells_sorted a bs), hs'.filter _, ?_⟩
      intro e he f hf
      have h1 := memCells_mem he
      have h2 := (List.mem_filter.mp hf).2
      simp at h2; omega
    · intro e he f hf
      have h1 := (List.mem_filter.mp he).2
      simp at h1
      rcases List.mem_append.mp hf with hf | hf
      · have := (memCells_mem hf).1; omega
      · have h2 := (List.mem_filter.mp hf).2
        simp at h2; omega
  · intro e he
    unfold memWrite at he
    rcases List.mem_append.mp he with he | he
    · rcases List.mem_append.mp he with he | he
      · exact hd e (List.mem_filter.mp he).1
      · exact (memCells_mem he).2.2
    · exact hd e (List.mem_filter.mp he).1

theorem filter_wf {m : Mem} (h : Memory.wf m) (p : Nat × Byte → Bool) : Memory.wf (m.filter p) :=
  ⟨List.pairwise_map.mpr ((List.pairwise_map.mp h.1).filter p), fun e he => h.2 e (List.mem_filter.mp he).1⟩

theorem nil_wf : Memory.wf [] := ⟨List.Pairwise.nil, by simp⟩

/-- A byte outside the bytes written is left alone. -/
theorem memByte_memWrite_out (m : Mem) (a : Nat) (bs : List Byte) (x : Nat) (h : x < a ∨ a + bs.length ≤ x) :
    memByte (memWrite m a bs) x = memByte m x := by
  unfold memByte tget tfind memWrite
  rw [List.append_assoc, List.find?_append, List.find?_append]
  have hc : (memCells a bs).find? (fun e => e.1 == x) = none := by
    rw [List.find?_eq_none]
    intro e he hk
    have := memCells_mem he
    simp at hk; omega
  rw [hc, Option.none_or]
  rcases h with hl | hr
  · rw [find_filter m x _ (by intro e he; simp [he, hl]), find_filter_none m x _ (by intro e he; simp [he]; omega)]
    simp
  · rw [find_filter_none m x _ (by intro e he; simp [he]; omega), find_filter m x _ (by intro e he; simp [he, hr])]
    simp

/-- A byte among those written reads as written. -/
theorem memByte_memWrite_in (m : Mem) (a : Nat) (bs : List Byte) (x : Nat) (h : a ≤ x) (hl : x < a + bs.length) :
    memByte (memWrite m a bs) x = bs.getD (x - a) Config.memDefault := by
  rw [← tfind_memCells a bs x h hl]
  unfold memByte tget tfind memWrite
  rw [List.append_assoc, List.find?_append, List.find?_append, find_filter_none m x _ (by intro e he; simp [he]; omega),
    find_filter_none m x (fun e => decide (a + bs.length ≤ e.1)) (by intro e he; simp [he]; omega)]
  simp

/-- What was written reads back. -/
theorem memRead_memWrite (m : Mem) (a : Nat) (bs : List Byte) : memRead (memWrite m a bs) a bs.length = bs := by
  unfold memRead
  apply List.ext_getElem
  · simp
  · intro i h1 h2
    simp only [List.getElem_map, List.getElem_range]
    rw [memByte_memWrite_in m a bs (a + i) (by omega) (by simp at h1; omega)]
    simp [List.getD_eq_getElem?_getD, h2]

/-! ## Contexts and seats -/

@[simp] theorem State.ctx_setCtx_same (s : State) (b : Nat) (c : Ctx) : (s.setCtx b c).ctx b = c := by
  simp [State.ctx, tget]

theorem State.ctx_setCtx_ne (s : State) {a b : Nat} (c : Ctx) (h : a ≠ b) : (s.setCtx b c).ctx a = s.ctx a := by
  simp [State.ctx, tget, tfind_tins_ne _ _ h]

theorem State.ctx_modCtx_same (s : State) (b : Nat) (f : Ctx → Ctx) (h : s.hasCtx b = true) :
    (s.modCtx b f).ctx b = f (s.ctx b) := by
  unfold State.modCtx State.ctx tget
  unfold State.hasCtx at h
  obtain ⟨c, hc⟩ := Option.isSome_iff_exists.mp h
  simp [hc]

theorem State.ctx_modCtx_ne (s : State) {a b : Nat} (f : Ctx → Ctx) (h : a ≠ b) : (s.modCtx b f).ctx a = s.ctx a := by
  unfold State.modCtx
  split
  · exact State.ctx_setCtx_ne s _ h
  · rfl

/-- Changing a context changes the banks alone. -/
theorem State.modCtx_spec (s : State) (b : Nat) (f : Ctx → Ctx) :
    s.modCtx b f = { s with core := { s.core with banks := (s.modCtx b f).core.banks } } := by
  unfold State.modCtx
  split <;> rfl

@[simp] theorem State.hasCtx_modCtx (s : State) (a b : Nat) (f : Ctx → Ctx) : (s.modCtx b f).hasCtx a = s.hasCtx a := by
  unfold State.modCtx
  split
  · rename_i c hc
    unfold State.hasCtx
    by_cases h : a = b
    · subst h; simp [hc]
    · simp [tfind_tins_ne _ _ h]
  · rfl

@[simp] theorem State.seat_setSeat_same (s : State) (k : Nat) (v : Seat) : (s.setSeat k v).seat k = v := by
  simp [State.seat]

theorem State.seat_setSeat_ne (s : State) {j k : Nat} (v : Seat) (h : j ≠ k) : (s.setSeat k v).seat j = s.seat j := by
  simp [State.seat, tget_tput_ne _ _ _ h]

@[simp] theorem State.modCtx_ms (s : State) (b : Nat) (f : Ctx → Ctx) : (s.modCtx b f).ms = s.ms := by rw [State.modCtx_spec]
@[simp] theorem State.modCtx_cube (s : State) (b : Nat) (f : Ctx → Ctx) : (s.modCtx b f).cube = s.cube := by rw [State.modCtx_spec]
@[simp] theorem State.modCtx_copy (s : State) (b : Nat) (f : Ctx → Ctx) : (s.modCtx b f).copy = s.copy := by rw [State.modCtx_spec]
@[simp] theorem State.modCtx_sched (s : State) (b : Nat) (f : Ctx → Ctx) : (s.modCtx b f).sched = s.sched := by rw [State.modCtx_spec]
@[simp] theorem State.modCtx_fab (s : State) (b : Nat) (f : Ctx → Ctx) : (s.modCtx b f).fab = s.fab := by rw [State.modCtx_spec]
@[simp] theorem State.modCtx_pow (s : State) (b : Nat) (f : Ctx → Ctx) : (s.modCtx b f).pow = s.pow := by rw [State.modCtx_spec]
@[simp] theorem State.modCtx_plat (s : State) (b : Nat) (f : Ctx → Ctx) : (s.modCtx b f).plat = s.plat := by rw [State.modCtx_spec]
@[simp] theorem State.modCtx_seq (s : State) (b : Nat) (f : Ctx → Ctx) : (s.modCtx b f).seq = s.seq := by rw [State.modCtx_spec]
@[simp] theorem State.modCtx_beat (s : State) (b : Nat) (f : Ctx → Ctx) : (s.modCtx b f).core.beat = s.core.beat := by
  rw [State.modCtx_spec]
@[simp] theorem State.modCtx_seats (s : State) (b : Nat) (f : Ctx → Ctx) : (s.modCtx b f).core.seats = s.core.seats := by
  rw [State.modCtx_spec]

/-! ## Flags -/

theorem State.flag_setFlag_same (s : State) (n : Nat) (v : FlagW) (h : n < 4094) : (s.setFlag n v).flag n = v := by
  unfold State.flag State.setFlag State.putFlag
  rw [if_neg (by omega), if_neg (by omega), if_neg (by omega)]
  simp

theorem State.flag_setFlag_ne (s : State) {m n : Nat} (v : FlagW) (h : m ≠ n) : (s.setFlag n v).flag m = s.flag m := by
  unfold State.flag State.setFlag State.putFlag
  split
  · rfl
  · split
    · rfl
    · split
      · rfl
      · simp [tget_tput_ne _ _ _ h]

/-- A write of f4094 or f4095 is discarded. -/
theorem State.setFlag_fixed (s : State) (n : Nat) (v : FlagW) (h : 4094 ≤ n) : s.setFlag n v = s := by
  unfold State.setFlag State.putFlag
  rw [if_pos h]

/-- A flag write changes the flag words and their order alone. -/
theorem State.setFlag_spec (s : State) (n : Nat) (v : FlagW) :
    s.setFlag n v = { s with ms := { s.ms with
      flags := (s.setFlag n v).ms.flags, flagSeq := (s.setFlag n v).ms.flagSeq } } := by
  unfold State.setFlag State.putFlag
  split <;> rfl

/-- No compare is on its way to a word: every read gives the word as it stands. -/
theorem State.flagNow_idle (s : State) (n : Nat) (h : ∀ b < 16, (s.ctx b).comparing n = []) : s.flagNow n = s.flag n := by
  unfold State.flagNow
  split
  · rfl
  · have : ((List.range 16).flatMap fun b => (s.ctx b).comparing n) = [] := by simpa using h
    rw [this]
    rfl

/-! ## Registers -/

@[simp] theorem Ctx.xv_zero (c : Ctx) : c.xv 0 = ⟨0, false⟩ := rfl

@[simp] theorem Ctx.setX_zero (c : Ctx) (v : XVal) : c.setX 0 v = c := rfl

theorem Ctx.xv_setX_same (c : Ctx) (n : Nat) (v : XVal) (h : n ≠ 0) : (c.setX n v).xv n = v := by
  simp [Ctx.xv, Ctx.setX, h]

theorem Ctx.xv_setX_ne (c : Ctx) {m n : Nat} (v : XVal) (h : m ≠ n) : (c.setX n v).xv m = c.xv m := by
  unfold Ctx.xv Ctx.setX
  split
  · rfl
  · split
    · rfl
    · simp [tget_tput_ne _ _ _ h]

/-! ## The canonical form of memories -/

theorem MemOk.of_eq {s t : State} (h : s.MemOk) (h1 : t.ms.mem = s.ms.mem) (h2 : t.ms.istore = s.ms.istore)
    (h3 : t.cube.wbank = s.cube.wbank) : t.MemOk := by
  unfold State.MemOk
  rw [h1, h2, h3]
  exact h

theorem foldl_keeps {α β : Type} {P : β → Prop} {g : β → α → β} (hg : ∀ u i, P u → P (g u i)) (l : List α) {t : β}
    (ht : P t) : P (l.foldl g t) := by
  induction l generalizing t with
  | nil => exact ht
  | cons i l ih => exact ih (hg _ _ ht)

theorem setFlag_memOk {s : State} (h : s.MemOk) (n : Nat) (v : FlagW) : (s.setFlag n v).MemOk := by
  rw [State.setFlag_spec]
  generalize (s.setFlag n v).ms.flags = f, (s.setFlag n v).ms.flagSeq = g
  exact h

theorem locWrite_memOk {s : State} (h : s.MemOk) (a : Nat) (bs : List Byte) (poi : Bool) : (s.locWrite a bs poi).MemOk := by
  unfold State.locWrite
  generalize (decide (spadBase ≤ a) && area (a - spadBase) = .flags) = q
  cases q
  · simp only [Bool.false_eq_true, if_false]
    exact ⟨memWrite_wf h.1 _ _, h.2.1, h.2.2⟩
  · simp only [if_true]
    unfold State.writeFlagBytes
    exact foldl_keeps (P := State.MemOk) (fun u i hu => setFlag_memOk hu _ _) _ h

end Sys2Proof.Machine
end

