-- ==== Sys2Proof/Laws/Engines.lean ====
section
/-! SUPPORT. What the operations shared by the engines and the memory accesses can do: the rows of an AMOS, the regions a bundle
touches, lines found uncorrectable, cube cycles, and the rails. -/

namespace Sys2Proof.Machine

/-! ## Accesses of the scratchpads -/

@[simp] theorem State.touch_nil (s : State) : s.touch [] = s := rfl

/-- Touching regions notes them and nothing else. -/
theorem State.touch_spec (s : State) (rs : List (Nat × Nat)) :
    ∃ l, s.touch rs = { s with ms := { s.ms with touched := l } } := by
  unfold State.touch
  split
  · exact ⟨s.ms.touched, rfl⟩
  · exact ⟨_, rfl⟩

@[simp] theorem State.touch_core (s : State) (rs : List (Nat × Nat)) : (s.touch rs).core = s.core := by
  obtain ⟨l, h⟩ := s.touch_spec rs; rw [h]

@[simp] theorem State.touch_mem (s : State) (rs : List (Nat × Nat)) : (s.touch rs).ms.mem = s.ms.mem := by
  obtain ⟨l, h⟩ := s.touch_spec rs; rw [h]

@[simp] theorem State.touch_poison (s : State) (rs : List (Nat × Nat)) : (s.touch rs).ms.poison = s.ms.poison := by
  obtain ⟨l, h⟩ := s.touch_spec rs; rw [h]

@[simp] theorem State.touch_flight (s : State) (rs : List (Nat × Nat)) : (s.touch rs).ms.flight = s.ms.flight := by
  obtain ⟨l, h⟩ := s.touch_spec rs; rw [h]

@[simp] theorem State.touch_ctx (s : State) (rs : List (Nat × Nat)) (b : Nat) : (s.touch rs).ctx b = s.ctx b := by
  obtain ⟨l, h⟩ := s.touch_spec rs; rw [h]; rfl

@[simp] theorem State.touch_flag (s : State) (rs : List (Nat × Nat)) (n : Nat) : (s.touch rs).flag n = s.flag n := by
  obtain ⟨l, h⟩ := s.touch_spec rs; rw [h]; rfl

/-- Without a row left, an AMOS has nothing to perform. -/
theorem State.amosFlush_idle {s : State} (h : s.ms.amos = []) : s.amosFlush = s := by
  obtain ⟨c, m, _⟩ := s
  obtain ⟨⟩ := m
  simp only at h
  subst h
  rfl

/-- An access meets no uncorrectable line that the agenda has not named for it. -/
theorem State.meetErrors_quiet {s : State} (h : ∀ ls, s.arg ≠ .bad ls) (rs : List (Nat × Nat)) : s.meetErrors rs = s := by
  unfold State.meetErrors
  split
  · exact absurd ‹_› (h _)
  · rfl

/-- A result that crosses from no block lands at its beat. -/
theorem State.landFrom_nil (s : State) (b due : Nat) (d : PDest) (v : PVal) (fx : Fx) (a : Bool) :
    s.landFrom [] b due d v fx a = s.landAt b due d v fx a := rfl

/-! ## Cube cycles and rails -/

@[simp] theorem State.bankReads_nil (s : State) : s.bankReads [] = (s, []) := rfl

@[simp] theorem State.parityErrors_nil (s : State) (v : Part) : s.parityErrors v [] = s := rfl

/-- Settling slump counts writes the supply alone. -/
theorem State.settleSlump_spec (s : State) (bs : List Nat) : ∃ p, s.settleSlump bs = { s with pow := p } := by
  induction bs generalizing s with
  | nil => exact ⟨s.pow, rfl⟩
  | cons b l ih =>
    simp only [State.settleSlump, List.foldl_cons] at ih ⊢
    split
    · obtain ⟨p, h⟩ := ih (({ s with pow := { s.pow with droop := tins s.pow.droop b s.core.beat } } : State).stretch [b] (s.uncounted b))
      exact ⟨p, h.trans rfl⟩
    · exact ih s

/-- Cycles that pass are counted in their partition and in the supply. -/
theorem State.pass_spec (s : State) (p n : Nat) :
    ∃ w, s.pass p n = { s.setPart p { s.part p with cyc := (s.part p).cyc + n, budget := (s.part p).budget - n } with pow := w } :=
  ⟨_, rfl⟩

theorem sset_mem (l : List Nat) (n m : Nat) (b : Bool) : m ∈ sset l n b ↔ if m = n then b = true else m ∈ l := by
  cases b
  · by_cases h : m = n <;> simp [sset, sdel, h]
  · by_cases h : m = n
    · simp [sset, sadd, h]
    · simp only [sset, if_true, sadd, List.mem_append, List.mem_cons, List.mem_filter, decide_eq_true_eq, if_neg h]
      refine ⟨?_, fun k => ?_⟩
      · rintro (⟨a, _⟩ | a | ⟨a, _⟩)
        · exact a
        · exact absurd a h
        · exact a
      · rcases Nat.lt_or_gt_of_ne h with e | e
        · exact .inl ⟨k, e⟩
        · exact .inr (.inr ⟨k, e⟩)

/-- Blocks put on a rail run on it, and no other block changes. -/
theorem State.putRail_low (s : State) (bs : List Nat) (hi : Bool) (b : Nat) :
    b ∈ (s.putRail bs hi).pow.lowBlk ↔ if b ∈ bs then hi = false else b ∈ s.pow.lowBlk := by
  show b ∈ bs.foldl (fun t b => sset t b (!hi)) s.pow.lowBlk ↔ _
  induction bs generalizing s with
  | nil => simp
  | cons a l ih =>
    have := ih { s with pow := { s.pow with lowBlk := sset s.pow.lowBlk a (!hi) } }
    simp only [List.foldl_cons]
    rw [this, sset_mem]
    by_cases h : b ∈ l <;> by_cases k : b = a <;> simp_all

end Sys2Proof.Machine
end

