-- ==== Sys2Proof/Laws/Issue.lean ====
section
/-! SUPPORT. What a beat of one instruction alone does. -/

namespace Sys2Proof.Machine

theorem Ctx.passed_eq (c : Ctx) (b : Nat) (sl : Slot) (i : Instr) :
    (c.count b).advance (Bundle.solo sl i) .e = c.passed b := by
  unfold Ctx.advance Ctx.passed Ctx.count
  rcases h : c.dly with _ | _ | n <;> simp

@[simp] theorem leaf_solo (s : State) (sl : Slot) (i : Instr) : s.leaf (Bundle.solo sl i) = .e := by
  simp [State.leaf, Bundle.solo, State.test, List.replicate]

@[simp] theorem markedTest_solo (s : State) (sl : Slot) (i : Instr) : s.markedTest (Bundle.solo sl i) = none := by
  simp [State.markedTest, Bundle.solo]

/-- The bundle of a legal instruction alone. -/
theorem soloFetched_legal {c : Ctx} {i : Instr} (o : OpSem) (h : c.legal i = true) :
    ∃ sl, i.slot = some sl ∧
      soloFetched c.dly i o = .legal { bundle := Bundle.solo sl i, ops := [(sl, o)] } := by
  unfold Ctx.legal at h
  cases hs : i.slot with
  | none => simp [hs] at h
  | some sl =>
    refine ⟨sl, rfl, ?_⟩
    simp only [hs, Bool.and_eq_true, Bool.or_eq_true, Bool.not_eq_true', beq_iff_eq] at h
    obtain ⟨hw, hc, hd⟩ := h
    unfold soloFetched
    simp only [hs, hw, Bool.not_true, Bool.false_or]
    rw [if_neg]
    simp only [Bool.or_eq_true, Bool.and_eq_true, bne_iff_ne, not_or, not_and]
    refine ⟨by simpa [Option.isNone_iff_eq_none, Option.isSome_iff_ne_none] using hc, ?_⟩
    rcases hd with hd | hd <;> simp [hd]

/-- Nothing is asked for where no bundle is held. -/
theorem asks_idle {s : State} {f : Nat → Fetched} (h : ∀ k ∈ s.awaiting, (f k).held s k = none) : s.asks f = s := by
  unfold State.asks
  generalize s.awaiting = l at h ⊢
  suffices hs : ∀ t, l.foldl (fun t k => if ((f k).held s k).isSome then (f k).ask s k t else t) t = t from hs s
  intro t
  induction l generalizing t with
  | nil => rfl
  | cons k l ih =>
    simp only [List.foldl_cons, h k (by simp), Option.isSome_none, Bool.false_eq_true, if_false]
    exact ih (fun m hm => h m (by simp [hm])) t

theorem otherCauses_alone {s : State} {b : Nat} (h : (List.range 4).filterMap s.seated = [b]) (f : Nat → Fetched) :
    s.otherCauses b f = [] := by
  simp [State.otherCauses, State.causes, h]

/-- A context alone that is not held issues. -/
theorem seatBeat_alone {s : State} {b : Nat} (h : s.Alone b) (f : Nat → Fetched) (hh : (f b).held s b = none)
    (hw : (f b).ew = 0) : s.seatBeat s.core.running f = s.issueNow b (f b) [] := by
  have ht : s.takeWidth s.core.running = s := by simp [State.takeWidth, h.width]
  have ha : (s.asks fun k => if k = b then f b else s.fetched k) = s := asks_idle fun k hk => by
    by_cases hkb : k = b
    · subst hkb; simpa using hh
    · simpa [hkb] using h.others k hk hkb
  unfold State.seatBeat
  rw [h.running]
  simp [State.beatOf, hh, ht, ha, hw, h.energy, otherCauses_alone h.only]

/-- An instruction that executes has its effect, and the beat ends. -/
theorem issueSolo_executes {s : State} {b : Nat} {i : Instr} {o : OpSem} (h : s.Executes b i o)
    (ht : ∀ p tc, i ≠ .trapc p tc) :
    issueSolo i o s = .next (s.after b (o.effect s b)) := by
  obtain ⟨sl, hs, hf⟩ := soloFetched_legal o h.legal
  have hlive : ∀ t : State, Issuing.live { bundle := Bundle.solo sl i, ops := [(sl, o)] } t = [(sl, o)] := by
    intro t; simp [Issuing.live, h.path]
  have hheld : (soloFetched (s.ctx b).dly i o).held s b = none := by
    rw [hf]; simp [Fetched.held, hlive, h.regs, h.ready, h.room, lowest]
  unfold issueSolo
  rw [seatBeat_alone h.alone (fun b => soloFetched (s.ctx b).dly i o) hheld (by rw [hf]; rfl)]
  have hev : (soloFetched (s.ctx b).dly i o).event s b = none := by
    rw [hf]
    simp only [Fetched.event, hlive]
    have hp : (o.priv && !(s.ctx b).priv) = false := by
      cases hq : o.priv
      · rfl
      · simp [h.priv hq]
    simp [hp, firstOp, h.cause, h.check]
  unfold State.issueNow
  simp only [hev]
  simp only [hf]
  have htrap : ((Issuing.live { bundle := Bundle.solo sl i, ops := [(sl, o)] } s).findSome? fun o =>
      State.issueNow.trapCode (Bundle.solo sl i) o.1) = none := by
    rw [hlive]
    simp only [List.findSome?_cons, List.findSome?_nil]
    unfold State.issueNow.trapCode
    by_cases hc : sl = .ctl
    · subst hc
      have : (Bundle.solo .ctl i).ctl = some i := by simp [Bundle.ctl, Bundle.solo]
      rw [if_pos rfl, this]
      cases i <;> first | rfl | exact absurd rfl (ht _ _)
    · rw [if_neg hc]
  simp only [htrap]
  have heff : Issuing.effect { bundle := Bundle.solo sl i, ops := [(sl, o)] } s (s.noteIssue 0) b =
      o.effect s b (s.begun b) := by
    simp only [Issuing.effect, OpSem.effect, hlive, List.foldl_cons, List.foldl_nil, List.flatMap_cons, List.flatMap_nil,
      List.append_nil, leaf_solo, Ctx.passed_eq]
    rfl
  have hew : (Fetched.legal { bundle := Bundle.solo sl i, ops := [(sl, o)] }).ew = 0 := rfl
  simp only [hew, heff]
  rfl

/-- An instruction that meets a cause raises it: none of its effects takes place. -/
theorem issueSolo_raises {s : State} {b : Nat} {i : Instr} {o : OpSem} {e : Ev} (h : s.Ready b i o)
    (hc : ((o.cause s b).orElse fun _ => o.check s b s) = some e) : issueSolo i o s = .next (s.raised b i e) := by
  obtain ⟨sl, hs, hf⟩ := soloFetched_legal o h.legal
  have hlive : ∀ t : State, Issuing.live { bundle := Bundle.solo sl i, ops := [(sl, o)] } t = [(sl, o)] := by
    intro t; simp [Issuing.live, h.path]
  have hheld : (soloFetched (s.ctx b).dly i o).held s b = none := by
    rw [hf]; simp [Fetched.held, hlive, h.regs, h.ready, h.room, lowest]
  unfold issueSolo
  rw [seatBeat_alone h.alone (fun b => soloFetched (s.ctx b).dly i o) hheld (by rw [hf]; rfl)]
  have hev : (soloFetched (s.ctx b).dly i o).event s b = some (e, sl.num) := by
    rw [hf]
    simp only [Fetched.event, hlive]
    have hp : (o.priv && !(s.ctx b).priv) = false := by
      cases hq : o.priv
      · rfl
      · simp [h.priv hq]
    simp only [List.find?_cons, hp, List.find?_nil, markedTest_solo, firstOp, hc]
  unfold State.issueNow
  simp only [hev]
  simp only [hf]
  have hew : (Fetched.legal { bundle := Bundle.solo sl i, ops := [(sl, o)] }).ew = 0 := rfl
  simp only [hew, State.raised, hs, Option.map_some, Option.getD_some]

end Sys2Proof.Machine
end

