-- ==== Sys2Proof/Laws/PerInstr.lean ====
section
/-! SUPPORT. For every instruction, the fields of its word give the instruction back: one lemma per constructor. -/

namespace Sys2Proof.Laws

-- one lemma after the other: two hundred at once would ask for a thread each
set_option Elab.async false

/-- The instruction that the fields of an instruction's word name, in the slot family that encodes it. -/
def fieldsOf (i : Instr) : Option Instr :=
  ((encodeS i).bind fieldsS).or <| ((encodeV i).bind fieldsV).or <| ((encodeLd i).bind fieldsLd).or <|
  ((encodeSt i).bind fieldsSt).or <| ((encodeCb i).bind fieldsCb).or <| ((encodeCp i).bind fieldsCp).or <|
  ((encodeSy i).bind fieldsSy).or ((encodeCtl i).bind fieldsCtl)

/-- The fields of the word of a well-formed instruction give it back; an event has no word. -/
def Encoding.Statement (i : Instr) : Prop := i.wf = true → encode i ≠ none → fieldsOf i = some i

open Encoding (Statement)

theorem ofS {i : Instr} {w : BitVec 64} (h : encodeS i = some w) (k : fieldsS w = some i) :
    fieldsOf i = some i := by simp [fieldsOf, h, k]

theorem ofV {i : Instr} {w : BitVec 96} (hS : encodeS i = none) (h : encodeV i = some w) (k : fieldsV w = some i) :
    fieldsOf i = some i := by simp [fieldsOf, hS, h, k]

theorem ofLd {i : Instr} {w : BitVec 96} (hS : encodeS i = none) (hV : encodeV i = none) (h : encodeLd i = some w) (k : fieldsLd w = some i) :
    fieldsOf i = some i := by simp [fieldsOf, hS, hV, h, k]

theorem ofSt {i : Instr} {w : BitVec 96} (hS : encodeS i = none) (hV : encodeV i = none) (hLd : encodeLd i = none) (h : encodeSt i = some w) (k : fieldsSt w = some i) :
    fieldsOf i = some i := by simp [fieldsOf, hS, hV, hLd, h, k]

theorem ofCb {i : Instr} {w : BitVec 96} (hS : encodeS i = none) (hV : encodeV i = none) (hLd : encodeLd i = none) (hSt : encodeSt i = none) (h : encodeCb i = some w) (k : fieldsCb w = some i) :
    fieldsOf i = some i := by simp [fieldsOf, hS, hV, hLd, hSt, h, k]

theorem ofCp {i : Instr} {w : BitVec 96} (hS : encodeS i = none) (hV : encodeV i = none) (hLd : encodeLd i = none) (hSt : encodeSt i = none) (hCb : encodeCb i = none) (h : encodeCp i = some w) (k : fieldsCp w = some i) :
    fieldsOf i = some i := by simp [fieldsOf, hS, hV, hLd, hSt, hCb, h, k]

theorem ofSy {i : Instr} {w : BitVec 32} (hS : encodeS i = none) (hV : encodeV i = none) (hLd : encodeLd i = none) (hSt : encodeSt i = none) (hCb : encodeCb i = none) (hCp : encodeCp i = none) (h : encodeSy i = some w) (k : fieldsSy w = some i) :
    fieldsOf i = some i := by simp [fieldsOf, hS, hV, hLd, hSt, hCb, hCp, h, k]

theorem ofCtl {i : Instr} {w : BitVec 56} (hS : encodeS i = none) (hV : encodeV i = none) (hLd : encodeLd i = none) (hSt : encodeSt i = none) (hCb : encodeCb i = none) (hCp : encodeCp i = none) (hSy : encodeSy i = none) (h : encodeCtl i = some w) (k : fieldsCtl w = some i) :
    fieldsOf i = some i := by simp [fieldsOf, hS, hV, hLd, hSt, hCb, hCp, hSy, h, k]

theorem Encoding.add (p : Path) (d : XReg) (a : XReg) (b : XReg) : Statement (.add p d a b) := fun _ _ => by
  have h0 : (encS 0x01 p d a b 0).extractLsb' 51 5 = p := ext_hi (ext_hi (ext_hi (ext_hi (ext_lo (ext_all _)))))
  have h1 : (encS 0x01 p d a b 0).extractLsb' 45 6 = d := ext_hi (ext_hi (ext_hi (ext_lo (ext_all _))))
  have h2 : (encS 0x01 p d a b 0).extractLsb' 39 6 = a := ext_hi (ext_hi (ext_lo (ext_all _)))
  have h3 : (encS 0x01 p d a b 0).extractLsb' 33 6 = b := ext_hi (ext_lo (ext_all _))
  have hop : (encS 0x01 p d a b 0).extractLsb' 56 8 = 0x01 := ext_hi (ext_hi (ext_hi (ext_hi (ext_hi (ext_all _)))))
  have k : fieldsS (encS 0x01 p d a b 0) = some (.add p d a b) := by
    delta fieldsS
    rw [hop]
    show some (Instr.add ((encS 0x01 p d a b 0).extractLsb' 51 5) ((encS 0x01 p d a b 0).extractLsb' 45 6) ((encS 0x01 p d a b 0).extractLsb' 39 6) ((encS 0x01 p d a b 0).extractLsb' 33 6)) = _
    rw [h0, h1, h2, h3]
  exact ofS rfl k

theorem Encoding.sub (p : Path) (d : XReg) (a : XReg) (b : XReg) : Statement (.sub p d a b) := fun _ _ => by
  have h0 : (encS 0x02 p d a b 0).extractLsb' 51 5 = p := ext_hi (ext_hi (ext_hi (ext_hi (ext_lo (ext_all _)))))
  have h1 : (encS 0x02 p d a b 0).extractLsb' 45 6 = d := ext_hi (ext_hi (ext_hi (ext_lo (ext_all _))))
  have h2 : (encS 0x02 p d a b 0).extractLsb' 39 6 = a := ext_hi (ext_hi (ext_lo (ext_all _)))
  have h3 : (encS 0x02 p d a b 0).extractLsb' 33 6 = b := ext_hi (ext_lo (ext_all _))
  have hop : (encS 0x02 p d a b 0).extractLsb' 56 8 = 0x02 := ext_hi (ext_hi (ext_hi (ext_hi (ext_hi (ext_all _)))))
  have k : fieldsS (encS 0x02 p d a b 0) = some (.sub p d a b) := by
    delta fieldsS
    rw [hop]
    show some (Instr.sub ((encS 0x02 p d a b 0).extractLsb' 51 5) ((encS 0x02 p d a b 0).extractLsb' 45 6) ((encS 0x02 p d a b 0).extractLsb' 39 6) ((encS 0x02 p d a b 0).extractLsb' 33 6)) = _
    rw [h0, h1, h2, h3]
  exact ofS rfl k

theorem Encoding.addi (p : Path) (d : XReg) (a : XReg) (imm : BitVec 33) : Statement (.addi p d a imm) := fun _ _ => by
  have h0 : (encS 0x03 p d a 0 imm).extractLsb' 51 5 = p := ext_hi (ext_hi (ext_hi (ext_hi (ext_lo (ext_all _)))))
  have h1 : (encS 0x03 p d a 0 imm).extractLsb' 45 6 = d := ext_hi (ext_hi (ext_hi (ext_lo (ext_all _))))
  have h2 : (encS 0x03 p d a 0 imm).extractLsb' 39 6 = a := ext_hi (ext_hi (ext_lo (ext_all _)))
  have h3 : (encS 0x03 p d a 0 imm).extractLsb' 0 33 = imm := ext_lo (ext_all _)
  have hop : (encS 0x03 p d a 0 imm).extractLsb' 56 8 = 0x03 := ext_hi (ext_hi (ext_hi (ext_hi (ext_hi (ext_all _)))))
  have k : fieldsS (encS 0x03 p d a 0 imm) = some (.addi p d a imm) := by
    delta fieldsS
    rw [hop]
    show some (Instr.addi ((encS 0x03 p d a 0 imm).extractLsb' 51 5) ((encS 0x03 p d a 0 imm).extractLsb' 45 6) ((encS 0x03 p d a 0 imm).extractLsb' 39 6) ((encS 0x03 p d a 0 imm).extractLsb' 0 33)) = _
    rw [h0, h1, h2, h3]
  exact ofS rfl k

theorem Encoding.mul (p : Path) (d : XReg) (a : XReg) (b : XReg) : Statement (.mul p d a b) := fun _ _ => by
  have h0 : (encS 0x04 p d a b 0).extractLsb' 51 5 = p := ext_hi (ext_hi (ext_hi (ext_hi (ext_lo (ext_all _)))))
  have h1 : (encS 0x04 p d a b 0).extractLsb' 45 6 = d := ext_hi (ext_hi (ext_hi (ext_lo (ext_all _))))
  have h2 : (encS 0x04 p d a b 0).extractLsb' 39 6 = a := ext_hi (ext_hi (ext_lo (ext_all _)))
  have h3 : (encS 0x04 p d a b 0).extractLsb' 33 6 = b := ext_hi (ext_lo (ext_all _))
  have hop : (encS 0x04 p d a b 0).extractLsb' 56 8 = 0x04 := ext_hi (ext_hi (ext_hi (ext_hi (ext_hi (ext_all _)))))
  have k : fieldsS (encS 0x04 p d a b 0) = some (.mul p d a b) := by
    delta fieldsS
    rw [hop]
    show some (Instr.mul ((encS 0x04 p d a b 0).extractLsb' 51 5) ((encS 0x04 p d a b 0).extractLsb' 45 6) ((encS 0x04 p d a b 0).extractLsb' 39 6) ((encS 0x04 p d a b 0).extractLsb' 33 6)) = _
    rw [h0, h1, h2, h3]
  exact ofS rfl k

theorem Encoding.mulh (p : Path) (d : XReg) (a : XReg) (b : XReg) : Statement (.mulh p d a b) := fun _ _ => by
  have h0 : (encS 0x05 p d a b 0).extractLsb' 51 5 = p := ext_hi (ext_hi (ext_hi (ext_hi (ext_lo (ext_all _)))))
  have h1 : (encS 0x05 p d a b 0).extractLsb' 45 6 = d := ext_hi (ext_hi (ext_hi (ext_lo (ext_all _))))
  have h2 : (encS 0x05 p d a b 0).extractLsb' 39 6 = a := ext_hi (ext_hi (ext_lo (ext_all _)))
  have h3 : (encS 0x05 p d a b 0).extractLsb' 33 6 = b := ext_hi (ext_lo (ext_all _))
  have hop : (encS 0x05 p d a b 0).extractLsb' 56 8 = 0x05 := ext_hi (ext_hi (ext_hi (ext_hi (ext_hi (ext_all _)))))
  have k : fieldsS (encS 0x05 p d a b 0) = some (.mulh p d a b) := by
    delta fieldsS
    rw [hop]
    show some (Instr.mulh ((encS 0x05 p d a b 0).extractLsb' 51 5) ((encS 0x05 p d a b 0).extractLsb' 45 6) ((encS 0x05 p d a b 0).extractLsb' 39 6) ((encS 0x05 p d a b 0).extractLsb' 33 6)) = _
    rw [h0, h1, h2, h3]
  exact ofS rfl k

theorem Encoding.mulhu (p : Path) (d : XReg) (a : XReg) (b : XReg) : Statement (.mulhu p d a b) := fun _ _ => by
  have h0 : (encS 0x06 p d a b 0).extractLsb' 51 5 = p := ext_hi (ext_hi (ext_hi (ext_hi (ext_lo (ext_all _)))))
  have h1 : (encS 0x06 p d a b 0).extractLsb' 45 6 = d := ext_hi (ext_hi (ext_hi (ext_lo (ext_all _))))
  have h2 : (encS 0x06 p d a b 0).extractLsb' 39 6 = a := ext_hi (ext_hi (ext_lo (ext_all _)))
  have h3 : (encS 0x06 p d a b 0).extractLsb' 33 6 = b := ext_hi (ext_lo (ext_all _))
  have hop : (encS 0x06 p d a b 0).extractLsb' 56 8 = 0x06 := ext_hi (ext_hi (ext_hi (ext_hi (ext_hi (ext_all _)))))
  have k : fieldsS (encS 0x06 p d a b 0) = some (.mulhu p d a b) := by
    delta fieldsS
    rw [hop]
    show some (Instr.mulhu ((encS 0x06 p d a b 0).extractLsb' 51 5) ((encS 0x06 p d a b 0).extractLsb' 45 6) ((encS 0x06 p d a b 0).extractLsb' 39 6) ((encS 0x06 p d a b 0).extractLsb' 33 6)) = _
    rw [h0, h1, h2, h3]
  exact ofS rfl k

theorem Encoding.madd (p : Path) (d : XReg) (a : XReg) (b : XReg) (c : XReg) : Statement (.madd p d a b c) := fun _ _ => by
  have h0 : (encS 0x07 p d a b (0#27 ++ c)).extractLsb' 51 5 = p := ext_hi (ext_hi (ext_hi (ext_hi (ext_lo (ext_all _)))))
  have h1 : (encS 0x07 p d a b (0#27 ++ c)).extractLsb' 45 6 = d := ext_hi (ext_hi (ext_hi (ext_lo (ext_all _))))
  have h2 : (encS 0x07 p d a b (0#27 ++ c)).extractLsb' 39 6 = a := ext_hi (ext_hi (ext_lo (ext_all _)))
  have h3 : (encS 0x07 p d a b (0#27 ++ c)).extractLsb' 33 6 = b := ext_hi (ext_lo (ext_all _))
  have h4 : (encS 0x07 p d a b (0#27 ++ c)).extractLsb' 0 6 = c := ext_lo (ext_lo (ext_all _))
  have hop : (encS 0x07 p d a b (0#27 ++ c)).extractLsb' 56 8 = 0x07 := ext_hi (ext_hi (ext_hi (ext_hi (ext_hi (ext_all _)))))
  have k : fieldsS (encS 0x07 p d a b (0#27 ++ c)) = some (.madd p d a b c) := by
    delta fieldsS
    rw [hop]
    show some (Instr.madd ((encS 0x07 p d a b (0#27 ++ c)).extractLsb' 51 5) ((encS 0x07 p d a b (0#27 ++ c)).extractLsb' 45 6) ((encS 0x07 p d a b (0#27 ++ c)).extractLsb' 39 6) ((encS 0x07 p d a b (0#27 ++ c)).extractLsb' 33 6) ((encS 0x07 p d a b (0#27 ++ c)).extractLsb' 0 6)) = _
    rw [h0, h1, h2, h3, h4]
  exact ofS rfl k

theorem Encoding.div (p : Path) (d : XReg) (a : XReg) (b : XReg) : Statement (.div p d a b) := fun _ _ => by
  have h0 : (encS 0x08 p d a b 0).extractLsb' 51 5 = p := ext_hi (ext_hi (ext_hi (ext_hi (ext_lo (ext_all _)))))
  have h1 : (encS 0x08 p d a b 0).extractLsb' 45 6 = d := ext_hi (ext_hi (ext_hi (ext_lo (ext_all _))))
  have h2 : (encS 0x08 p d a b 0).extractLsb' 39 6 = a := ext_hi (ext_hi (ext_lo (ext_all _)))
  have h3 : (encS 0x08 p d a b 0).extractLsb' 33 6 = b := ext_hi (ext_lo (ext_all _))
  have hop : (encS 0x08 p d a b 0).extractLsb' 56 8 = 0x08 := ext_hi (ext_hi (ext_hi (ext_hi (ext_hi (ext_all _)))))
  have k : fieldsS (encS 0x08 p d a b 0) = some (.div p d a b) := by
    delta fieldsS
    rw [hop]
    show some (Instr.div ((encS 0x08 p d a b 0).extractLsb' 51 5) ((encS 0x08 p d a b 0).extractLsb' 45 6) ((encS 0x08 p d a b 0).extractLsb' 39 6) ((encS 0x08 p d a b 0).extractLsb' 33 6)) = _
    rw [h0, h1, h2, h3]
  exact ofS rfl k

theorem Encoding.divu (p : Path) (d : XReg) (a : XReg) (b : XReg) : Statement (.divu p d a b) := fun _ _ => by
  have h0 : (encS 0x09 p d a b 0).extractLsb' 51 5 = p := ext_hi (ext_hi (ext_hi (ext_hi (ext_lo (ext_all _)))))
  have h1 : (encS 0x09 p d a b 0).extractLsb' 45 6 = d := ext_hi (ext_hi (ext_hi (ext_lo (ext_all _))))
  have h2 : (encS 0x09 p d a b 0).extractLsb' 39 6 = a := ext_hi (ext_hi (ext_lo (ext_all _)))
  have h3 : (encS 0x09 p d a b 0).extractLsb' 33 6 = b := ext_hi (ext_lo (ext_all _))
  have hop : (encS 0x09 p d a b 0).extractLsb' 56 8 = 0x09 := ext_hi (ext_hi (ext_hi (ext_hi (ext_hi (ext_all _)))))
  have k : fieldsS (encS 0x09 p d a b 0) = some (.divu p d a b) := by
    delta fieldsS
    rw [hop]
    show some (Instr.divu ((encS 0x09 p d a b 0).extractLsb' 51 5) ((encS 0x09 p d a b 0).extractLsb' 45 6) ((encS 0x09 p d a b 0).extractLsb' 39 6) ((encS 0x09 p d a b 0).extractLsb' 33 6)) = _
    rw [h0, h1, h2, h3]
  exact ofS rfl k

theorem Encoding.rem (p : Path) (d : XReg) (a : XReg) (b : XReg) : Statement (.rem p d a b) := fun _ _ => by
  have h0 : (encS 0x0A p d a b 0).extractLsb' 51 5 = p := ext_hi (ext_hi (ext_hi (ext_hi (ext_lo (ext_all _)))))
  have h1 : (encS 0x0A p d a b 0).extractLsb' 45 6 = d := ext_hi (ext_hi (ext_hi (ext_lo (ext_all _))))
  have h2 : (encS 0x0A p d a b 0).extractLsb' 39 6 = a := ext_hi (ext_hi (ext_lo (ext_all _)))
  have h3 : (encS 0x0A p d a b 0).extractLsb' 33 6 = b := ext_hi (ext_lo (ext_all _))
  have hop : (encS 0x0A p d a b 0).extractLsb' 56 8 = 0x0A := ext_hi (ext_hi (ext_hi (ext_hi (ext_hi (ext_all _)))))
  have k : fieldsS (encS 0x0A p d a b 0) = some (.rem p d a b) := by
    delta fieldsS
    rw [hop]
    show some (Instr.rem ((encS 0x0A p d a b 0).extractLsb' 51 5) ((encS 0x0A p d a b 0).extractLsb' 45 6) ((encS 0x0A p d a b 0).extractLsb' 39 6) ((encS 0x0A p d a b 0).extractLsb' 33 6)) = _
    rw [h0, h1, h2, h3]
  exact ofS rfl k

theorem Encoding.remu (p : Path) (d : XReg) (a : XReg) (b : XReg) : Statement (.remu p d a b) := fun _ _ => by
  have h0 : (encS 0x0B p d a b 0).extractLsb' 51 5 = p := ext_hi (ext_hi (ext_hi (ext_hi (ext_lo (ext_all _)))))
  have h1 : (encS 0x0B p d a b 0).extractLsb' 45 6 = d := ext_hi (ext_hi (ext_hi (ext_lo (ext_all _))))
  have h2 : (encS 0x0B p d a b 0).extractLsb' 39 6 = a := ext_hi (ext_hi (ext_lo (ext_all _)))
  have h3 : (encS 0x0B p d a b 0).extractLsb' 33 6 = b := ext_hi (ext_lo (ext_all _))
  have hop : (encS 0x0B p d a b 0).extractLsb' 56 8 = 0x0B := ext_hi (ext_hi (ext_hi (ext_hi (ext_hi (ext_all _)))))
  have k : fieldsS (encS 0x0B p d a b 0) = some (.remu p d a b) := by
    delta fieldsS
    rw [hop]
    show some (Instr.remu ((encS 0x0B p d a b 0).extractLsb' 51 5) ((encS 0x0B p d a b 0).extractLsb' 45 6) ((encS 0x0B p d a b 0).extractLsb' 39 6) ((encS 0x0B p d a b 0).extractLsb' 33 6)) = _
    rw [h0, h1, h2, h3]
  exact ofS rfl k

theorem Encoding.and (p : Path) (d : XReg) (a : XReg) (b : XReg) : Statement (.and p d a b) := fun _ _ => by
  have h0 : (encS 0x10 p d a b 0).extractLsb' 51 5 = p := ext_hi (ext_hi (ext_hi (ext_hi (ext_lo (ext_all _)))))
  have h1 : (encS 0x10 p d a b 0).extractLsb' 45 6 = d := ext_hi (ext_hi (ext_hi (ext_lo (ext_all _))))
  have h2 : (encS 0x10 p d a b 0).extractLsb' 39 6 = a := ext_hi (ext_hi (ext_lo (ext_all _)))
  have h3 : (encS 0x10 p d a b 0).extractLsb' 33 6 = b := ext_hi (ext_lo (ext_all _))
  have hop : (encS 0x10 p d a b 0).extractLsb' 56 8 = 0x10 := ext_hi (ext_hi (ext_hi (ext_hi (ext_hi (ext_all _)))))
  have k : fieldsS (encS 0x10 p d a b 0) = some (.and p d a b) := by
    delta fieldsS
    rw [hop]
    show some (Instr.and ((encS 0x10 p d a b 0).extractLsb' 51 5) ((encS 0x10 p d a b 0).extractLsb' 45 6) ((encS 0x10 p d a b 0).extractLsb' 39 6) ((encS 0x10 p d a b 0).extractLsb' 33 6)) = _
    rw [h0, h1, h2, h3]
  exact ofS rfl k

theorem Encoding.or (p : Path) (d : XReg) (a : XReg) (b : XReg) : Statement (.or p d a b) := fun _ _ => by
  have h0 : (encS 0x11 p d a b 0).extractLsb' 51 5 = p := ext_hi (ext_hi (ext_hi (ext_hi (ext_lo (ext_all _)))))
  have h1 : (encS 0x11 p d a b 0).extractLsb' 45 6 = d := ext_hi (ext_hi (ext_hi (ext_lo (ext_all _))))
  have h2 : (encS 0x11 p d a b 0).extractLsb' 39 6 = a := ext_hi (ext_hi (ext_lo (ext_all _)))
  have h3 : (encS 0x11 p d a b 0).extractLsb' 33 6 = b := ext_hi (ext_lo (ext_all _))
  have hop : (encS 0x11 p d a b 0).extractLsb' 56 8 = 0x11 := ext_hi (ext_hi (ext_hi (ext_hi (ext_hi (ext_all _)))))
  have k : fieldsS (encS 0x11 p d a b 0) = some (.or p d a b) := by
    delta fieldsS
    rw [hop]
    show some (Instr.or ((encS 0x11 p d a b 0).extractLsb' 51 5) ((encS 0x11 p d a b 0).extractLsb' 45 6) ((encS 0x11 p d a b 0).extractLsb' 39 6) ((encS 0x11 p d a b 0).extractLsb' 33 6)) = _
    rw [h0, h1, h2, h3]
  exact ofS rfl k

theorem Encoding.xor (p : Path) (d : XReg) (a : XReg) (b : XReg) : Statement (.xor p d a b) := fun _ _ => by
  have h0 : (encS 0x12 p d a b 0).extractLsb' 51 5 = p := ext_hi (ext_hi (ext_hi (ext_hi (ext_lo (ext_all _)))))
  have h1 : (encS 0x12 p d a b 0).extractLsb' 45 6 = d := ext_hi (ext_hi (ext_hi (ext_lo (ext_all _))))
  have h2 : (encS 0x12 p d a b 0).extractLsb' 39 6 = a := ext_hi (ext_hi (ext_lo (ext_all _)))
  have h3 : (encS 0x12 p d a b 0).extractLsb' 33 6 = b := ext_hi (ext_lo (ext_all _))
  have hop : (encS 0x12 p d a b 0).extractLsb' 56 8 = 0x12 := ext_hi (ext_hi (ext_hi (ext_hi (ext_hi (ext_all _)))))
  have k : fieldsS (encS 0x12 p d a b 0) = some (.xor p d a b) := by
    delta fieldsS
    rw [hop]
    show some (Instr.xor ((encS 0x12 p d a b 0).extractLsb' 51 5) ((encS 0x12 p d a b 0).extractLsb' 45 6) ((encS 0x12 p d a b 0).extractLsb' 39 6) ((encS 0x12 p d a b 0).extractLsb' 33 6)) = _
    rw [h0, h1, h2, h3]
  exact ofS rfl k

theorem Encoding.andn (p : Path) (d : XReg) (a : XReg) (b : XReg) : Statement (.andn p d a b) := fun _ _ => by
  have h0 : (encS 0x13 p d a b 0).extractLsb' 51 5 = p := ext_hi (ext_hi (ext_hi (ext_hi (ext_lo (ext_all _)))))
  have h1 : (encS 0x13 p d a b 0).extractLsb' 45 6 = d := ext_hi (ext_hi (ext_hi (ext_lo (ext_all _))))
  have h2 : (encS 0x13 p d a b 0).extractLsb' 39 6 = a := ext_hi (ext_hi (ext_lo (ext_all _)))
  have h3 : (encS 0x13 p d a b 0).extractLsb' 33 6 = b := ext_hi (ext_lo (ext_all _))
  have hop : (encS 0x13 p d a b 0).extractLsb' 56 8 = 0x13 := ext_hi (ext_hi (ext_hi (ext_hi (ext_hi (ext_all _)))))
  have k : fieldsS (encS 0x13 p d a b 0) = some (.andn p d a b) := by
    delta fieldsS
    rw [hop]
    show some (Instr.andn ((encS 0x13 p d a b 0).extractLsb' 51 5) ((encS 0x13 p d a b 0).extractLsb' 45 6) ((encS 0x13 p d a b 0).extractLsb' 39 6) ((encS 0x13 p d a b 0).extractLsb' 33 6)) = _
    rw [h0, h1, h2, h3]
  exact ofS rfl k

theorem Encoding.andi (p : Path) (d : XReg) (a : XReg) (imm : BitVec 33) : Statement (.andi p d a imm) := fun _ _ => by
  have h0 : (encS 0x14 p d a 0 imm).extractLsb' 51 5 = p := ext_hi (ext_hi (ext_hi (ext_hi (ext_lo (ext_all _)))))
  have h1 : (encS 0x14 p d a 0 imm).extractLsb' 45 6 = d := ext_hi (ext_hi (ext_hi (ext_lo (ext_all _))))
  have h2 : (encS 0x14 p d a 0 imm).extractLsb' 39 6 = a := ext_hi (ext_hi (ext_lo (ext_all _)))
  have h3 : (encS 0x14 p d a 0 imm).extractLsb' 0 33 = imm := ext_lo (ext_all _)
  have hop : (encS 0x14 p d a 0 imm).extractLsb' 56 8 = 0x14 := ext_hi (ext_hi (ext_hi (ext_hi (ext_hi (ext_all _)))))
  have k : fieldsS (encS 0x14 p d a 0 imm) = some (.andi p d a imm) := by
    delta fieldsS
    rw [hop]
    show some (Instr.andi ((encS 0x14 p d a 0 imm).extractLsb' 51 5) ((encS 0x14 p d a 0 imm).extractLsb' 45 6) ((encS 0x14 p d a 0 imm).extractLsb' 39 6) ((encS 0x14 p d a 0 imm).extractLsb' 0 33)) = _
    rw [h0, h1, h2, h3]
  exact ofS rfl k

theorem Encoding.ori (p : Path) (d : XReg) (a : XReg) (imm : BitVec 33) : Statement (.ori p d a imm) := fun _ _ => by
  have h0 : (encS 0x15 p d a 0 imm).extractLsb' 51 5 = p := ext_hi (ext_hi (ext_hi (ext_hi (ext_lo (ext_all _)))))
  have h1 : (encS 0x15 p d a 0 imm).extractLsb' 45 6 = d := ext_hi (ext_hi (ext_hi (ext_lo (ext_all _))))
  have h2 : (encS 0x15 p d a 0 imm).extractLsb' 39 6 = a := ext_hi (ext_hi (ext_lo (ext_all _)))
  have h3 : (encS 0x15 p d a 0 imm).extractLsb' 0 33 = imm := ext_lo (ext_all _)
  have hop : (encS 0x15 p d a 0 imm).extractLsb' 56 8 = 0x15 := ext_hi (ext_hi (ext_hi (ext_hi (ext_hi (ext_all _)))))
  have k : fieldsS (encS 0x15 p d a 0 imm) = some (.ori p d a imm) := by
    delta fieldsS
    rw [hop]
    show some (Instr.ori ((encS 0x15 p d a 0 imm).extractLsb' 51 5) ((encS 0x15 p d a 0 imm).extractLsb' 45 6) ((encS 0x15 p d a 0 imm).extractLsb' 39 6) ((encS 0x15 p d a 0 imm).extractLsb' 0 33)) = _
    rw [h0, h1, h2, h3]
  exact ofS rfl k

theorem Encoding.xori (p : Path) (d : XReg) (a : XReg) (imm : BitVec 33) : Statement (.xori p d a imm) := fun _ _ => by
  have h0 : (encS 0x16 p d a 0 imm).extractLsb' 51 5 = p := ext_hi (ext_hi (ext_hi (ext_hi (ext_lo (ext_all _)))))
  have h1 : (encS 0x16 p d a 0 imm).extractLsb' 45 6 = d := ext_hi (ext_hi (ext_hi (ext_lo (ext_all _))))
  have h2 : (encS 0x16 p d a 0 imm).extractLsb' 39 6 = a := ext_hi (ext_hi (ext_lo (ext_all _)))
  have h3 : (encS 0x16 p d a 0 imm).extractLsb' 0 33 = imm := ext_lo (ext_all _)
  have hop : (encS 0x16 p d a 0 imm).extractLsb' 56 8 = 0x16 := ext_hi (ext_hi (ext_hi (ext_hi (ext_hi (ext_all _)))))
  have k : fieldsS (encS 0x16 p d a 0 imm) = some (.xori p d a imm) := by
    delta fieldsS
    rw [hop]
    show some (Instr.xori ((encS 0x16 p d a 0 imm).extractLsb' 51 5) ((encS 0x16 p d a 0 imm).extractLsb' 45 6) ((encS 0x16 p d a 0 imm).extractLsb' 39 6) ((encS 0x16 p d a 0 imm).extractLsb' 0 33)) = _
    rw [h0, h1, h2, h3]
  exact ofS rfl k

theorem Encoding.shl (p : Path) (d : XReg) (a : XReg) (b : XReg) : Statement (.shl p d a b) := fun _ _ => by
  have h0 : (encS 0x18 p d a b 0).extractLsb' 51 5 = p := ext_hi (ext_hi (ext_hi (ext_hi (ext_lo (ext_all _)))))
  have h1 : (encS 0x18 p d a b 0).extractLsb' 45 6 = d := ext_hi (ext_hi (ext_hi (ext_lo (ext_all _))))
  have h2 : (encS 0x18 p d a b 0).extractLsb' 39 6 = a := ext_hi (ext_hi (ext_lo (ext_all _)))
  have h3 : (encS 0x18 p d a b 0).extractLsb' 33 6 = b := ext_hi (ext_lo (ext_all _))
  have hop : (encS 0x18 p d a b 0).extractLsb' 56 8 = 0x18 := ext_hi (ext_hi (ext_hi (ext_hi (ext_hi (ext_all _)))))
  have k : fieldsS (encS 0x18 p d a b 0) = some (.shl p d a b) := by
    delta fieldsS
    rw [hop]
    show some (Instr.shl ((encS 0x18 p d a b 0).extractLsb' 51 5) ((encS 0x18 p d a b 0).extractLsb' 45 6) ((encS 0x18 p d a b 0).extractLsb' 39 6) ((encS 0x18 p d a b 0).extractLsb' 33 6)) = _
    rw [h0, h1, h2, h3]
  exact ofS rfl k

theorem Encoding.shr (p : Path) (d : XReg) (a : XReg) (b : XReg) : Statement (.shr p d a b) := fun _ _ => by
  have h0 : (encS 0x19 p d a b 0).extractLsb' 51 5 = p := ext_hi (ext_hi (ext_hi (ext_hi (ext_lo (ext_all _)))))
  have h1 : (encS 0x19 p d a b 0).extractLsb' 45 6 = d := ext_hi (ext_hi (ext_hi (ext_lo (ext_all _))))
  have h2 : (encS 0x19 p d a b 0).extractLsb' 39 6 = a := ext_hi (ext_hi (ext_lo (ext_all _)))
  have h3 : (encS 0x19 p d a b 0).extractLsb' 33 6 = b := ext_hi (ext_lo (ext_all _))
  have hop : (encS 0x19 p d a b 0).extractLsb' 56 8 = 0x19 := ext_hi (ext_hi (ext_hi (ext_hi (ext_hi (ext_all _)))))
  have k : fieldsS (encS 0x19 p d a b 0) = some (.shr p d a b) := by
    delta fieldsS
    rw [hop]
    show some (Instr.shr ((encS 0x19 p d a b 0).extractLsb' 51 5) ((encS 0x19 p d a b 0).extractLsb' 45 6) ((encS 0x19 p d a b 0).extractLsb' 39 6) ((encS 0x19 p d a b 0).extractLsb' 33 6)) = _
    rw [h0, h1, h2, h3]
  exact ofS rfl k

theorem Encoding.sra (p : Path) (d : XReg) (a : XReg) (b : XReg) : Statement (.sra p d a b) := fun _ _ => by
  have h0 : (encS 0x1A p d a b 0).extractLsb' 51 5 = p := ext_hi (ext_hi (ext_hi (ext_hi (ext_lo (ext_all _)))))
  have h1 : (encS 0x1A p d a b 0).extractLsb' 45 6 = d := ext_hi (ext_hi (ext_hi (ext_lo (ext_all _))))
  have h2 : (encS 0x1A p d a b 0).extractLsb' 39 6 = a := ext_hi (ext_hi (ext_lo (ext_all _)))
  have h3 : (encS 0x1A p d a b 0).extractLsb' 33 6 = b := ext_hi (ext_lo (ext_all _))
  have hop : (encS 0x1A p d a b 0).extractLsb' 56 8 = 0x1A := ext_hi (ext_hi (ext_hi (ext_hi (ext_hi (ext_all _)))))
  have k : fieldsS (encS 0x1A p d a b 0) = some (.sra p d a b) := by
    delta fieldsS
    rw [hop]
    show some (Instr.sra ((encS 0x1A p d a b 0).extractLsb' 51 5) ((encS 0x1A p d a b 0).extractLsb' 45 6) ((encS 0x1A p d a b 0).extractLsb' 39 6) ((encS 0x1A p d a b 0).extractLsb' 33 6)) = _
    rw [h0, h1, h2, h3]
  exact ofS rfl k

theorem Encoding.shli (p : Path) (d : XReg) (a : XReg) (n : BitVec 6) : Statement (.shli p d a n) := fun _ _ => by
  have h0 : (encS 0x1B p d a 0 (0#27 ++ n)).extractLsb' 51 5 = p := ext_hi (ext_hi (ext_hi (ext_hi (ext_lo (ext_all _)))))
  have h1 : (encS 0x1B p d a 0 (0#27 ++ n)).extractLsb' 45 6 = d := ext_hi (ext_hi (ext_hi (ext_lo (ext_all _))))
  have h2 : (encS 0x1B p d a 0 (0#27 ++ n)).extractLsb' 39 6 = a := ext_hi (ext_hi (ext_lo (ext_all _)))
  have h3 : (encS 0x1B p d a 0 (0#27 ++ n)).extractLsb' 0 6 = n := ext_lo (ext_lo (ext_all _))
  have hop : (encS 0x1B p d a 0 (0#27 ++ n)).extractLsb' 56 8 = 0x1B := ext_hi (ext_hi (ext_hi (ext_hi (ext_hi (ext_all _)))))
  have k : fieldsS (encS 0x1B p d a 0 (0#27 ++ n)) = some (.shli p d a n) := by
    delta fieldsS
    rw [hop]
    show some (Instr.shli ((encS 0x1B p d a 0 (0#27 ++ n)).extractLsb' 51 5) ((encS 0x1B p d a 0 (0#27 ++ n)).extractLsb' 45 6) ((encS 0x1B p d a 0 (0#27 ++ n)).extractLsb' 39 6) ((encS 0x1B p d a 0 (0#27 ++ n)).extractLsb' 0 6)) = _
    rw [h0, h1, h2, h3]
  exact ofS rfl k

theorem Encoding.shri (p : Path) (d : XReg) (a : XReg) (n : BitVec 6) : Statement (.shri p d a n) := fun _ _ => by
  have h0 : (encS 0x1C p d a 0 (0#27 ++ n)).extractLsb' 51 5 = p := ext_hi (ext_hi (ext_hi (ext_hi (ext_lo (ext_all _)))))
  have h1 : (encS 0x1C p d a 0 (0#27 ++ n)).extractLsb' 45 6 = d := ext_hi (ext_hi (ext_hi (ext_lo (ext_all _))))
  have h2 : (encS 0x1C p d a 0 (0#27 ++ n)).extractLsb' 39 6 = a := ext_hi (ext_hi (ext_lo (ext_all _)))
  have h3 : (encS 0x1C p d a 0 (0#27 ++ n)).extractLsb' 0 6 = n := ext_lo (ext_lo (ext_all _))
  have hop : (encS 0x1C p d a 0 (0#27 ++ n)).extractLsb' 56 8 = 0x1C := ext_hi (ext_hi (ext_hi (ext_hi (ext_hi (ext_all _)))))
  have k : fieldsS (encS 0x1C p d a 0 (0#27 ++ n)) = some (.shri p d a n) := by
    delta fieldsS
    rw [hop]
    show some (Instr.shri ((encS 0x1C p d a 0 (0#27 ++ n)).extractLsb' 51 5) ((encS 0x1C p d a 0 (0#27 ++ n)).extractLsb' 45 6) ((encS 0x1C p d a 0 (0#27 ++ n)).extractLsb' 39 6) ((encS 0x1C p d a 0 (0#27 ++ n)).extractLsb' 0 6)) = _
    rw [h0, h1, h2, h3]
  exact ofS rfl k

theorem Encoding.srai (p : Path) (d : XReg) (a : XReg) (n : BitVec 6) : Statement (.srai p d a n) := fun _ _ => by
  have h0 : (encS 0x1D p d a 0 (0#27 ++ n)).extractLsb' 51 5 = p := ext_hi (ext_hi (ext_hi (ext_hi (ext_lo (ext_all _)))))
  have h1 : (encS 0x1D p d a 0 (0#27 ++ n)).extractLsb' 45 6 = d := ext_hi (ext_hi (ext_hi (ext_lo (ext_all _))))
  have h2 : (encS 0x1D p d a 0 (0#27 ++ n)).extractLsb' 39 6 = a := ext_hi (ext_hi (ext_lo (ext_all _)))
  have h3 : (encS 0x1D p d a 0 (0#27 ++ n)).extractLsb' 0 6 = n := ext_lo (ext_lo (ext_all _))
  have hop : (encS 0x1D p d a 0 (0#27 ++ n)).extractLsb' 56 8 = 0x1D := ext_hi (ext_hi (ext_hi (ext_hi (ext_hi (ext_all _)))))
  have k : fieldsS (encS 0x1D p d a 0 (0#27 ++ n)) = some (.srai p d a n) := by
    delta fieldsS
    rw [hop]
    show some (Instr.srai ((encS 0x1D p d a 0 (0#27 ++ n)).extractLsb' 51 5) ((encS 0x1D p d a 0 (0#27 ++ n)).extractLsb' 45 6) ((encS 0x1D p d a 0 (0#27 ++ n)).extractLsb' 39 6) ((encS 0x1D p d a 0 (0#27 ++ n)).extractLsb' 0 6)) = _
    rw [h0, h1, h2, h3]
  exact ofS rfl k

theorem Encoding.ror (p : Path) (d : XReg) (a : XReg) (b : XReg) : Statement (.ror p d a b) := fun _ _ => by
  have h0 : (encS 0x1E p d a b 0).extractLsb' 51 5 = p := ext_hi (ext_hi (ext_hi (ext_hi (ext_lo (ext_all _)))))
  have h1 : (encS 0x1E p d a b 0).extractLsb' 45 6 = d := ext_hi (ext_hi (ext_hi (ext_lo (ext_all _))))
  have h2 : (encS 0x1E p d a b 0).extractLsb' 39 6 = a := ext_hi (ext_hi (ext_lo (ext_all _)))
  have h3 : (encS 0x1E p d a b 0).extractLsb' 33 6 = b := ext_hi (ext_lo (ext_all _))
  have hop : (encS 0x1E p d a b 0).extractLsb' 56 8 = 0x1E := ext_hi (ext_hi (ext_hi (ext_hi (ext_hi (ext_all _)))))
  have k : fieldsS (encS 0x1E p d a b 0) = some (.ror p d a b) := by
    delta fieldsS
    rw [hop]
    show some (Instr.ror ((encS 0x1E p d a b 0).extractLsb' 51 5) ((encS 0x1E p d a b 0).extractLsb' 45 6) ((encS 0x1E p d a b 0).extractLsb' 39 6) ((encS 0x1E p d a b 0).extractLsb' 33 6)) = _
    rw [h0, h1, h2, h3]
  exact ofS rfl k

theorem Encoding.rori (p : Path) (d : XReg) (a : XReg) (n : BitVec 6) : Statement (.rori p d a n) := fun _ _ => by
  have h0 : (encS 0x1F p d a 0 (0#27 ++ n)).extractLsb' 51 5 = p := ext_hi (ext_hi (ext_hi (ext_hi (ext_lo (ext_all _)))))
  have h1 : (encS 0x1F p d a 0 (0#27 ++ n)).extractLsb' 45 6 = d := ext_hi (ext_hi (ext_hi (ext_lo (ext_all _))))
  have h2 : (encS 0x1F p d a 0 (0#27 ++ n)).extractLsb' 39 6 = a := ext_hi (ext_hi (ext_lo (ext_all _)))
  have h3 : (encS 0x1F p d a 0 (0#27 ++ n)).extractLsb' 0 6 = n := ext_lo (ext_lo (ext_all _))
  have hop : (encS 0x1F p d a 0 (0#27 ++ n)).extractLsb' 56 8 = 0x1F := ext_hi (ext_hi (ext_hi (ext_hi (ext_hi (ext_all _)))))
  have k : fieldsS (encS 0x1F p d a 0 (0#27 ++ n)) = some (.rori p d a n) := by
    delta fieldsS
    rw [hop]
    show some (Instr.rori ((encS 0x1F p d a 0 (0#27 ++ n)).extractLsb' 51 5) ((encS 0x1F p d a 0 (0#27 ++ n)).extractLsb' 45 6) ((encS 0x1F p d a 0 (0#27 ++ n)).extractLsb' 39 6) ((encS 0x1F p d a 0 (0#27 ++ n)).extractLsb' 0 6)) = _
    rw [h0, h1, h2, h3]
  exact ofS rfl k

theorem Encoding.clz (p : Path) (d : XReg) (a : XReg) : Statement (.clz p d a) := fun _ _ => by
  have h0 : (encS 0x20 p d a 0 0).extractLsb' 51 5 = p := ext_hi (ext_hi (ext_hi (ext_hi (ext_lo (ext_all _)))))
  have h1 : (encS 0x20 p d a 0 0).extractLsb' 45 6 = d := ext_hi (ext_hi (ext_hi (ext_lo (ext_all _))))
  have h2 : (encS 0x20 p d a 0 0).extractLsb' 39 6 = a := ext_hi (ext_hi (ext_lo (ext_all _)))
  have hop : (encS 0x20 p d a 0 0).extractLsb' 56 8 = 0x20 := ext_hi (ext_hi (ext_hi (ext_hi (ext_hi (ext_all _)))))
  have k : fieldsS (encS 0x20 p d a 0 0) = some (.clz p d a) := by
    delta fieldsS
    rw [hop]
    show some (Instr.clz ((encS 0x20 p d a 0 0).extractLsb' 51 5) ((encS 0x20 p d a 0 0).extractLsb' 45 6) ((encS 0x20 p d a 0 0).extractLsb' 39 6)) = _
    rw [h0, h1, h2]
  exact ofS rfl k

theorem Encoding.ctz (p : Path) (d : XReg) (a : XReg) : Statement (.ctz p d a) := fun _ _ => by
  have h0 : (encS 0x21 p d a 0 0).extractLsb' 51 5 = p := ext_hi (ext_hi (ext_hi (ext_hi (ext_lo (ext_all _)))))
  have h1 : (encS 0x21 p d a 0 0).extractLsb' 45 6 = d := ext_hi (ext_hi (ext_hi (ext_lo (ext_all _))))
  have h2 : (encS 0x21 p d a 0 0).extractLsb' 39 6 = a := ext_hi (ext_hi (ext_lo (ext_all _)))
  have hop : (encS 0x21 p d a 0 0).extractLsb' 56 8 = 0x21 := ext_hi (ext_hi (ext_hi (ext_hi (ext_hi (ext_all _)))))
  have k : fieldsS (encS 0x21 p d a 0 0) = some (.ctz p d a) := by
    delta fieldsS
    rw [hop]
    show some (Instr.ctz ((encS 0x21 p d a 0 0).extractLsb' 51 5) ((encS 0x21 p d a 0 0).extractLsb' 45 6) ((encS 0x21 p d a 0 0).extractLsb' 39 6)) = _
    rw [h0, h1, h2]
  exact ofS rfl k

theorem Encoding.popc (p : Path) (d : XReg) (a : XReg) : Statement (.popc p d a) := fun _ _ => by
  have h0 : (encS 0x22 p d a 0 0).extractLsb' 51 5 = p := ext_hi (ext_hi (ext_hi (ext_hi (ext_lo (ext_all _)))))
  have h1 : (encS 0x22 p d a 0 0).extractLsb' 45 6 = d := ext_hi (ext_hi (ext_hi (ext_lo (ext_all _))))
  have h2 : (encS 0x22 p d a 0 0).extractLsb' 39 6 = a := ext_hi (ext_hi (ext_lo (ext_all _)))
  have hop : (encS 0x22 p d a 0 0).extractLsb' 56 8 = 0x22 := ext_hi (ext_hi (ext_hi (ext_hi (ext_hi (ext_all _)))))
  have k : fieldsS (encS 0x22 p d a 0 0) = some (.popc p d a) := by
    delta fieldsS
    rw [hop]
    show some (Instr.popc ((encS 0x22 p d a 0 0).extractLsb' 51 5) ((encS 0x22 p d a 0 0).extractLsb' 45 6) ((encS 0x22 p d a 0 0).extractLsb' 39 6)) = _
    rw [h0, h1, h2]
  exact ofS rfl k

theorem Encoding.bext (p : Path) (d : XReg) (a : XReg) (sx : Bool) (len : BitVec 7) (pos : BitVec 6) : Statement (.bext p d a sx len pos) := fun _ _ => by
  have h0 : (encS 0x23 p d a 0 (0#19 ++ bit sx ++ len ++ pos)).extractLsb' 51 5 = p := ext_hi (ext_hi (ext_hi (ext_hi (ext_lo (ext_all _)))))
  have h1 : (encS 0x23 p d a 0 (0#19 ++ bit sx ++ len ++ pos)).extractLsb' 45 6 = d := ext_hi (ext_hi (ext_hi (ext_lo (ext_all _))))
  have h2 : (encS 0x23 p d a 0 (0#19 ++ bit sx ++ len ++ pos)).extractLsb' 39 6 = a := ext_hi (ext_hi (ext_lo (ext_all _)))
  have h3 : (encS 0x23 p d a 0 (0#19 ++ bit sx ++ len ++ pos)).getLsbD 13 = sx := get_lo (get_hi (get_hi (get_lo (bit_get _))))
  have h4 : (encS 0x23 p d a 0 (0#19 ++ bit sx ++ len ++ pos)).extractLsb' 6 7 = len := ext_lo (ext_hi (ext_lo (ext_all _)))
  have h5 : (encS 0x23 p d a 0 (0#19 ++ bit sx ++ len ++ pos)).extractLsb' 0 6 = pos := ext_lo (ext_lo (ext_all _))
  have hop : (encS 0x23 p d a 0 (0#19 ++ bit sx ++ len ++ pos)).extractLsb' 56 8 = 0x23 := ext_hi (ext_hi (ext_hi (ext_hi (ext_hi (ext_all _)))))
  have k : fieldsS (encS 0x23 p d a 0 (0#19 ++ bit sx ++ len ++ pos)) = some (.bext p d a sx len pos) := by
    delta fieldsS
    rw [hop]
    show some (Instr.bext ((encS 0x23 p d a 0 (0#19 ++ bit sx ++ len ++ pos)).extractLsb' 51 5) ((encS 0x23 p d a 0 (0#19 ++ bit sx ++ len ++ pos)).extractLsb' 45 6) ((encS 0x23 p d a 0 (0#19 ++ bit sx ++ len ++ pos)).extractLsb' 39 6) ((encS 0x23 p d a 0 (0#19 ++ bit sx ++ len ++ pos)).getLsbD 13) ((encS 0x23 p d a 0 (0#19 ++ bit sx ++ len ++ pos)).extractLsb' 6 7) ((encS 0x23 p d a 0 (0#19 ++ bit sx ++ len ++ pos)).extractLsb' 0 6)) = _
    rw [h0, h1, h2, h3, h4, h5]
  exact ofS rfl k

theorem Encoding.bins (p : Path) (d : XReg) (a : XReg) (b : XReg) (len : BitVec 7) (pos : BitVec 6) : Statement (.bins p d a b len pos) := fun _ _ => by
  have h0 : (encS 0x24 p d a b (0#20 ++ len ++ pos)).extractLsb' 51 5 = p := ext_hi (ext_hi (ext_hi (ext_hi (ext_lo (ext_all _)))))
  have h1 : (encS 0x24 p d a b (0#20 ++ len ++ pos)).extractLsb' 45 6 = d := ext_hi (ext_hi (ext_hi (ext_lo (ext_all _))))
  have h2 : (encS 0x24 p d a b (0#20 ++ len ++ pos)).extractLsb' 39 6 = a := ext_hi (ext_hi (ext_lo (ext_all _)))
  have h3 : (encS 0x24 p d a b (0#20 ++ len ++ pos)).extractLsb' 33 6 = b := ext_hi (ext_lo (ext_all _))
  have h4 : (encS 0x24 p d a b (0#20 ++ len ++ pos)).extractLsb' 6 7 = len := ext_lo (ext_hi (ext_lo (ext_all _)))
  have h5 : (encS 0x24 p d a b (0#20 ++ len ++ pos)).extractLsb' 0 6 = pos := ext_lo (ext_lo (ext_all _))
  have hop : (encS 0x24 p d a b (0#20 ++ len ++ pos)).extractLsb' 56 8 = 0x24 := ext_hi (ext_hi (ext_hi (ext_hi (ext_hi (ext_all _)))))
  have k : fieldsS (encS 0x24 p d a b (0#20 ++ len ++ pos)) = some (.bins p d a b len pos) := by
    delta fieldsS
    rw [hop]
    show some (Instr.bins ((encS 0x24 p d a b (0#20 ++ len ++ pos)).extractLsb' 51 5) ((encS 0x24 p d a b (0#20 ++ len ++ pos)).extractLsb' 45 6) ((encS 0x24 p d a b (0#20 ++ len ++ pos)).extractLsb' 39 6) ((encS 0x24 p d a b (0#20 ++ len ++ pos)).extractLsb' 33 6) ((encS 0x24 p d a b (0#20 ++ len ++ pos)).extractLsb' 6 7) ((encS 0x24 p d a b (0#20 ++ len ++ pos)).extractLsb' 0 6)) = _
    rw [h0, h1, h2, h3, h4, h5]
  exact ofS rfl k

theorem Encoding.brev (p : Path) (d : XReg) (a : XReg) : Statement (.brev p d a) := fun _ _ => by
  have h0 : (encS 0x25 p d a 0 0).extractLsb' 51 5 = p := ext_hi (ext_hi (ext_hi (ext_hi (ext_lo (ext_all _)))))
  have h1 : (encS 0x25 p d a 0 0).extractLsb' 45 6 = d := ext_hi (ext_hi (ext_hi (ext_lo (ext_all _))))
  have h2 : (encS 0x25 p d a 0 0).extractLsb' 39 6 = a := ext_hi (ext_hi (ext_lo (ext_all _)))
  have hop : (encS 0x25 p d a 0 0).extractLsb' 56 8 = 0x25 := ext_hi (ext_hi (ext_hi (ext_hi (ext_hi (ext_all _)))))
  have k : fieldsS (encS 0x25 p d a 0 0) = some (.brev p d a) := by
    delta fieldsS
    rw [hop]
    show some (Instr.brev ((encS 0x25 p d a 0 0).extractLsb' 51 5) ((encS 0x25 p d a 0 0).extractLsb' 45 6) ((encS 0x25 p d a 0 0).extractLsb' 39 6)) = _
    rw [h0, h1, h2]
  exact ofS rfl k

theorem Encoding.min (p : Path) (d : XReg) (a : XReg) (b : XReg) : Statement (.min p d a b) := fun _ _ => by
  have h0 : (encS 0x28 p d a b 0).extractLsb' 51 5 = p := ext_hi (ext_hi (ext_hi (ext_hi (ext_lo (ext_all _)))))
  have h1 : (encS 0x28 p d a b 0).extractLsb' 45 6 = d := ext_hi (ext_hi (ext_hi (ext_lo (ext_all _))))
  have h2 : (encS 0x28 p d a b 0).extractLsb' 39 6 = a := ext_hi (ext_hi (ext_lo (ext_all _)))
  have h3 : (encS 0x28 p d a b 0).extractLsb' 33 6 = b := ext_hi (ext_lo (ext_all _))
  have hop : (encS 0x28 p d a b 0).extractLsb' 56 8 = 0x28 := ext_hi (ext_hi (ext_hi (ext_hi (ext_hi (ext_all _)))))
  have k : fieldsS (encS 0x28 p d a b 0) = some (.min p d a b) := by
    delta fieldsS
    rw [hop]
    show some (Instr.min ((encS 0x28 p d a b 0).extractLsb' 51 5) ((encS 0x28 p d a b 0).extractLsb' 45 6) ((encS 0x28 p d a b 0).extractLsb' 39 6) ((encS 0x28 p d a b 0).extractLsb' 33 6)) = _
    rw [h0, h1, h2, h3]
  exact ofS rfl k

theorem Encoding.max (p : Path) (d : XReg) (a : XReg) (b : XReg) : Statement (.max p d a b) := fun _ _ => by
  have h0 : (encS 0x29 p d a b 0).extractLsb' 51 5 = p := ext_hi (ext_hi (ext_hi (ext_hi (ext_lo (ext_all _)))))
  have h1 : (encS 0x29 p d a b 0).extractLsb' 45 6 = d := ext_hi (ext_hi (ext_hi (ext_lo (ext_all _))))
  have h2 : (encS 0x29 p d a b 0).extractLsb' 39 6 = a := ext_hi (ext_hi (ext_lo (ext_all _)))
  have h3 : (encS 0x29 p d a b 0).extractLsb' 33 6 = b := ext_hi (ext_lo (ext_all _))
  have hop : (encS 0x29 p d a b 0).extractLsb' 56 8 = 0x29 := ext_hi (ext_hi (ext_hi (ext_hi (ext_hi (ext_all _)))))
  have k : fieldsS (encS 0x29 p d a b 0) = some (.max p d a b) := by
    delta fieldsS
    rw [hop]
    show some (Instr.max ((encS 0x29 p d a b 0).extractLsb' 51 5) ((encS 0x29 p d a b 0).extractLsb' 45 6) ((encS 0x29 p d a b 0).extractLsb' 39 6) ((encS 0x29 p d a b 0).extractLsb' 33 6)) = _
    rw [h0, h1, h2, h3]
  exact ofS rfl k

theorem Encoding.minu (p : Path) (d : XReg) (a : XReg) (b : XReg) : Statement (.minu p d a b) := fun _ _ => by
  have h0 : (encS 0x2A p d a b 0).extractLsb' 51 5 = p := ext_hi (ext_hi (ext_hi (ext_hi (ext_lo (ext_all _)))))
  have h1 : (encS 0x2A p d a b 0).extractLsb' 45 6 = d := ext_hi (ext_hi (ext_hi (ext_lo (ext_all _))))
  have h2 : (encS 0x2A p d a b 0).extractLsb' 39 6 = a := ext_hi (ext_hi (ext_lo (ext_all _)))
  have h3 : (encS 0x2A p d a b 0).extractLsb' 33 6 = b := ext_hi (ext_lo (ext_all _))
  have hop : (encS 0x2A p d a b 0).extractLsb' 56 8 = 0x2A := ext_hi (ext_hi (ext_hi (ext_hi (ext_hi (ext_all _)))))
  have k : fieldsS (encS 0x2A p d a b 0) = some (.minu p d a b) := by
    delta fieldsS
    rw [hop]
    show some (Instr.minu ((encS 0x2A p d a b 0).extractLsb' 51 5) ((encS 0x2A p d a b 0).extractLsb' 45 6) ((encS 0x2A p d a b 0).extractLsb' 39 6) ((encS 0x2A p d a b 0).extractLsb' 33 6)) = _
    rw [h0, h1, h2, h3]
  exact ofS rfl k

theorem Encoding.maxu (p : Path) (d : XReg) (a : XReg) (b : XReg) : Statement (.maxu p d a b) := fun _ _ => by
  have h0 : (encS 0x2B p d a b 0).extractLsb' 51 5 = p := ext_hi (ext_hi (ext_hi (ext_hi (ext_lo (ext_all _)))))
  have h1 : (encS 0x2B p d a b 0).extractLsb' 45 6 = d := ext_hi (ext_hi (ext_hi (ext_lo (ext_all _))))
  have h2 : (encS 0x2B p d a b 0).extractLsb' 39 6 = a := ext_hi (ext_hi (ext_lo (ext_all _)))
  have h3 : (encS 0x2B p d a b 0).extractLsb' 33 6 = b := ext_hi (ext_lo (ext_all _))
  have hop : (encS 0x2B p d a b 0).extractLsb' 56 8 = 0x2B := ext_hi (ext_hi (ext_hi (ext_hi (ext_hi (ext_all _)))))
  have k : fieldsS (encS 0x2B p d a b 0) = some (.maxu p d a b) := by
    delta fieldsS
    rw [hop]
    show some (Instr.maxu ((encS 0x2B p d a b 0).extractLsb' 51 5) ((encS 0x2B p d a b 0).extractLsb' 45 6) ((encS 0x2B p d a b 0).extractLsb' 39 6) ((encS 0x2B p d a b 0).extractLsb' 33 6)) = _
    rw [h0, h1, h2, h3]
  exact ofS rfl k

theorem Encoding.sel (p : Path) (d : XReg) (f : FlagIx) (a : XReg) (b : XReg) : Statement (.sel p d f a b) := fun _ _ => by
  have h0 : (encS 0x2C p d a b (0#21 ++ f)).extractLsb' 51 5 = p := ext_hi (ext_hi (ext_hi (ext_hi (ext_lo (ext_all _)))))
  have h1 : (encS 0x2C p d a b (0#21 ++ f)).extractLsb' 45 6 = d := ext_hi (ext_hi (ext_hi (ext_lo (ext_all _))))
  have h2 : (encS 0x2C p d a b (0#21 ++ f)).extractLsb' 0 12 = f := ext_lo (ext_lo (ext_all _))
  have h3 : (encS 0x2C p d a b (0#21 ++ f)).extractLsb' 39 6 = a := ext_hi (ext_hi (ext_lo (ext_all _)))
  have h4 : (encS 0x2C p d a b (0#21 ++ f)).extractLsb' 33 6 = b := ext_hi (ext_lo (ext_all _))
  have hop : (encS 0x2C p d a b (0#21 ++ f)).extractLsb' 56 8 = 0x2C := ext_hi (ext_hi (ext_hi (ext_hi (ext_hi (ext_all _)))))
  have k : fieldsS (encS 0x2C p d a b (0#21 ++ f)) = some (.sel p d f a b) := by
    delta fieldsS
    rw [hop]
    show some (Instr.sel ((encS 0x2C p d a b (0#21 ++ f)).extractLsb' 51 5) ((encS 0x2C p d a b (0#21 ++ f)).extractLsb' 45 6) ((encS 0x2C p d a b (0#21 ++ f)).extractLsb' 0 12) ((encS 0x2C p d a b (0#21 ++ f)).extractLsb' 39 6) ((encS 0x2C p d a b (0#21 ++ f)).extractLsb' 33 6)) = _
    rw [h0, h1, h2, h3, h4]
  exact ofS rfl k

theorem Encoding.abs (p : Path) (d : XReg) (a : XReg) : Statement (.abs p d a) := fun _ _ => by
  have h0 : (encS 0x2D p d a 0 0).extractLsb' 51 5 = p := ext_hi (ext_hi (ext_hi (ext_hi (ext_lo (ext_all _)))))
  have h1 : (encS 0x2D p d a 0 0).extractLsb' 45 6 = d := ext_hi (ext_hi (ext_hi (ext_lo (ext_all _))))
  have h2 : (encS 0x2D p d a 0 0).extractLsb' 39 6 = a := ext_hi (ext_hi (ext_lo (ext_all _)))
  have hop : (encS 0x2D p d a 0 0).extractLsb' 56 8 = 0x2D := ext_hi (ext_hi (ext_hi (ext_hi (ext_hi (ext_all _)))))
  have k : fieldsS (encS 0x2D p d a 0 0) = some (.abs p d a) := by
    delta fieldsS
    rw [hop]
    show some (Instr.abs ((encS 0x2D p d a 0 0).extractLsb' 51 5) ((encS 0x2D p d a 0 0).extractLsb' 45 6) ((encS 0x2D p d a 0 0).extractLsb' 39 6)) = _
    rw [h0, h1, h2]
  exact ofS rfl k

theorem Encoding.movi (p : Path) (d : XReg) (imm : BitVec 33) : Statement (.movi p d imm) := fun _ _ => by
  have h0 : (encS 0x30 p d 0 0 imm).extractLsb' 51 5 = p := ext_hi (ext_hi (ext_hi (ext_hi (ext_lo (ext_all _)))))
  have h1 : (encS 0x30 p d 0 0 imm).extractLsb' 45 6 = d := ext_hi (ext_hi (ext_hi (ext_lo (ext_all _))))
  have h2 : (encS 0x30 p d 0 0 imm).extractLsb' 0 33 = imm := ext_lo (ext_all _)
  have hop : (encS 0x30 p d 0 0 imm).extractLsb' 56 8 = 0x30 := ext_hi (ext_hi (ext_hi (ext_hi (ext_hi (ext_all _)))))
  have k : fieldsS (encS 0x30 p d 0 0 imm) = some (.movi p d imm) := by
    delta fieldsS
    rw [hop]
    show some (Instr.movi ((encS 0x30 p d 0 0 imm).extractLsb' 51 5) ((encS 0x30 p d 0 0 imm).extractLsb' 45 6) ((encS 0x30 p d 0 0 imm).extractLsb' 0 33)) = _
    rw [h0, h1, h2]
  exact ofS rfl k

theorem Encoding.movhi (p : Path) (d : XReg) (a : XReg) (imm : BitVec 32) : Statement (.movhi p d a imm) := fun _ _ => by
  have h0 : (encS 0x31 p d a 0 (0#1 ++ imm)).extractLsb' 51 5 = p := ext_hi (ext_hi (ext_hi (ext_hi (ext_lo (ext_all _)))))
  have h1 : (encS 0x31 p d a 0 (0#1 ++ imm)).extractLsb' 45 6 = d := ext_hi (ext_hi (ext_hi (ext_lo (ext_all _))))
  have h2 : (encS 0x31 p d a 0 (0#1 ++ imm)).extractLsb' 39 6 = a := ext_hi (ext_hi (ext_lo (ext_all _)))
  have h3 : (encS 0x31 p d a 0 (0#1 ++ imm)).extractLsb' 0 32 = imm := ext_lo (ext_lo (ext_all _))
  have hop : (encS 0x31 p d a 0 (0#1 ++ imm)).extractLsb' 56 8 = 0x31 := ext_hi (ext_hi (ext_hi (ext_hi (ext_hi (ext_all _)))))
  have k : fieldsS (encS 0x31 p d a 0 (0#1 ++ imm)) = some (.movhi p d a imm) := by
    delta fieldsS
    rw [hop]
    show some (Instr.movhi ((encS 0x31 p d a 0 (0#1 ++ imm)).extractLsb' 51 5) ((encS 0x31 p d a 0 (0#1 ++ imm)).extractLsb' 45 6) ((encS 0x31 p d a 0 (0#1 ++ imm)).extractLsb' 39 6) ((encS 0x31 p d a 0 (0#1 ++ imm)).extractLsb' 0 32)) = _
    rw [h0, h1, h2, h3]
  exact ofS rfl k

theorem Encoding.cmp (p : Path) (c : BitVec 4) (f : FlagIx) (a : XReg) (b : XReg) : Statement (.cmp p c f a b) := fun _ _ => by
  have h0 : (encS 0x34 p 0 a b (0#17 ++ c ++ f)).extractLsb' 51 5 = p := ext_hi (ext_hi (ext_hi (ext_hi (ext_lo (ext_all _)))))
  have h1 : (encS 0x34 p 0 a b (0#17 ++ c ++ f)).extractLsb' 12 4 = c := ext_lo (ext_hi (ext_lo (ext_all _)))
  have h2 : (encS 0x34 p 0 a b (0#17 ++ c ++ f)).extractLsb' 0 12 = f := ext_lo (ext_lo (ext_all _))
  have h3 : (encS 0x34 p 0 a b (0#17 ++ c ++ f)).extractLsb' 39 6 = a := ext_hi (ext_hi (ext_lo (ext_all _)))
  have h4 : (encS 0x34 p 0 a b (0#17 ++ c ++ f)).extractLsb' 33 6 = b := ext_hi (ext_lo (ext_all _))
  have hop : (encS 0x34 p 0 a b (0#17 ++ c ++ f)).extractLsb' 56 8 = 0x34 := ext_hi (ext_hi (ext_hi (ext_hi (ext_hi (ext_all _)))))
  have k : fieldsS (encS 0x34 p 0 a b (0#17 ++ c ++ f)) = some (.cmp p c f a b) := by
    delta fieldsS
    rw [hop]
    show some (Instr.cmp ((encS 0x34 p 0 a b (0#17 ++ c ++ f)).extractLsb' 51 5) ((encS 0x34 p 0 a b (0#17 ++ c ++ f)).extractLsb' 12 4) ((encS 0x34 p 0 a b (0#17 ++ c ++ f)).extractLsb' 0 12) ((encS 0x34 p 0 a b (0#17 ++ c ++ f)).extractLsb' 39 6) ((encS 0x34 p 0 a b (0#17 ++ c ++ f)).extractLsb' 33 6)) = _
    rw [h0, h1, h2, h3, h4]
  exact ofS rfl k

theorem Encoding.cmpi (p : Path) (c : BitVec 4) (f : FlagIx) (a : XReg) (i : BitVec 17) : Statement (.cmpi p c f a i) := fun _ _ => by
  have h0 : (encS 0x35 p 0 a 0 (i ++ c ++ f)).extractLsb' 51 5 = p := ext_hi (ext_hi (ext_hi (ext_hi (ext_lo (ext_all _)))))
  have h1 : (encS 0x35 p 0 a 0 (i ++ c ++ f)).extractLsb' 12 4 = c := ext_lo (ext_hi (ext_lo (ext_all _)))
  have h2 : (encS 0x35 p 0 a 0 (i ++ c ++ f)).extractLsb' 0 12 = f := ext_lo (ext_lo (ext_all _))
  have h3 : (encS 0x35 p 0 a 0 (i ++ c ++ f)).extractLsb' 39 6 = a := ext_hi (ext_hi (ext_lo (ext_all _)))
  have h4 : (encS 0x35 p 0 a 0 (i ++ c ++ f)).extractLsb' 16 17 = i := ext_lo (ext_hi (ext_hi (ext_all _)))
  have hop : (encS 0x35 p 0 a 0 (i ++ c ++ f)).extractLsb' 56 8 = 0x35 := ext_hi (ext_hi (ext_hi (ext_hi (ext_hi (ext_all _)))))
  have k : fieldsS (encS 0x35 p 0 a 0 (i ++ c ++ f)) = some (.cmpi p c f a i) := by
    delta fieldsS
    rw [hop]
    show some (Instr.cmpi ((encS 0x35 p 0 a 0 (i ++ c ++ f)).extractLsb' 51 5) ((encS 0x35 p 0 a 0 (i ++ c ++ f)).extractLsb' 12 4) ((encS 0x35 p 0 a 0 (i ++ c ++ f)).extractLsb' 0 12) ((encS 0x35 p 0 a 0 (i ++ c ++ f)).extractLsb' 39 6) ((encS 0x35 p 0 a 0 (i ++ c ++ f)).extractLsb' 16 17)) = _
    rw [h0, h1, h2, h3, h4]
  exact ofS rfl k

theorem Encoding.lix (p : Path) (d : XReg) (n : BitVec 3) : Statement (.lix p d n) := fun _ _ => by
  have h0 : (encS 0x38 p d 0 0 (0#30 ++ n)).extractLsb' 51 5 = p := ext_hi (ext_hi (ext_hi (ext_hi (ext_lo (ext_all _)))))
  have h1 : (encS 0x38 p d 0 0 (0#30 ++ n)).extractLsb' 45 6 = d := ext_hi (ext_hi (ext_hi (ext_lo (ext_all _))))
  have h2 : (encS 0x38 p d 0 0 (0#30 ++ n)).extractLsb' 0 3 = n := ext_lo (ext_lo (ext_all _))
  have hop : (encS 0x38 p d 0 0 (0#30 ++ n)).extractLsb' 56 8 = 0x38 := ext_hi (ext_hi (ext_hi (ext_hi (ext_hi (ext_all _)))))
  have k : fieldsS (encS 0x38 p d 0 0 (0#30 ++ n)) = some (.lix p d n) := by
    delta fieldsS
    rw [hop]
    show some (Instr.lix ((encS 0x38 p d 0 0 (0#30 ++ n)).extractLsb' 51 5) ((encS 0x38 p d 0 0 (0#30 ++ n)).extractLsb' 45 6) ((encS 0x38 p d 0 0 (0#30 ++ n)).extractLsb' 0 3)) = _
    rw [h0, h1, h2]
  exact ofS rfl k

theorem Encoding.lcnt (p : Path) (d : XReg) (n : BitVec 3) : Statement (.lcnt p d n) := fun _ _ => by
  have h0 : (encS 0x39 p d 0 0 (0#30 ++ n)).extractLsb' 51 5 = p := ext_hi (ext_hi (ext_hi (ext_hi (ext_lo (ext_all _)))))
  have h1 : (encS 0x39 p d 0 0 (0#30 ++ n)).extractLsb' 45 6 = d := ext_hi (ext_hi (ext_hi (ext_lo (ext_all _))))
  have h2 : (encS 0x39 p d 0 0 (0#30 ++ n)).extractLsb' 0 3 = n := ext_lo (ext_lo (ext_all _))
  have hop : (encS 0x39 p d 0 0 (0#30 ++ n)).extractLsb' 56 8 = 0x39 := ext_hi (ext_hi (ext_hi (ext_hi (ext_hi (ext_all _)))))
  have k : fieldsS (encS 0x39 p d 0 0 (0#30 ++ n)) = some (.lcnt p d n) := by
    delta fieldsS
    rw [hop]
    show some (Instr.lcnt ((encS 0x39 p d 0 0 (0#30 ++ n)).extractLsb' 51 5) ((encS 0x39 p d 0 0 (0#30 ++ n)).extractLsb' 45 6) ((encS 0x39 p d 0 0 (0#30 ++ n)).extractLsb' 0 3)) = _
    rw [h0, h1, h2]
  exact ofS rfl k

theorem Encoding.fadds (p : Path) (d : XReg) (a : XReg) (b : XReg) (r : Rnd) : Statement (.fadds p d a b r) := fun _ _ => by
  have h0 : (encS 0x40 p d a b (0#30 ++ r.code)).extractLsb' 0 3 = r.code := ext_lo (ext_lo (ext_all _))
  have h1 : (encS 0x40 p d a b (0#30 ++ r.code)).extractLsb' 51 5 = p := ext_hi (ext_hi (ext_hi (ext_hi (ext_lo (ext_all _)))))
  have h2 : (encS 0x40 p d a b (0#30 ++ r.code)).extractLsb' 45 6 = d := ext_hi (ext_hi (ext_hi (ext_lo (ext_all _))))
  have h3 : (encS 0x40 p d a b (0#30 ++ r.code)).extractLsb' 39 6 = a := ext_hi (ext_hi (ext_lo (ext_all _)))
  have h4 : (encS 0x40 p d a b (0#30 ++ r.code)).extractLsb' 33 6 = b := ext_hi (ext_lo (ext_all _))
  have hop : (encS 0x40 p d a b (0#30 ++ r.code)).extractLsb' 56 8 = 0x40 := ext_hi (ext_hi (ext_hi (ext_hi (ext_hi (ext_all _)))))
  have k : fieldsS (encS 0x40 p d a b (0#30 ++ r.code)) = some (.fadds p d a b r) := by
    delta fieldsS
    rw [hop]
    show ((Rnd.ofCode ((encS 0x40 p d a b (0#30 ++ r.code)).extractLsb' 0 3)).map fun r1 => Instr.fadds ((encS 0x40 p d a b (0#30 ++ r.code)).extractLsb' 51 5) ((encS 0x40 p d a b (0#30 ++ r.code)).extractLsb' 45 6) ((encS 0x40 p d a b (0#30 ++ r.code)).extractLsb' 39 6) ((encS 0x40 p d a b (0#30 ++ r.code)).extractLsb' 33 6) r1) = _
    rw [h0, rnd_code, h1, h2, h3, h4]
    rfl
  exact ofS rfl k

theorem Encoding.fsubs (p : Path) (d : XReg) (a : XReg) (b : XReg) (r : Rnd) : Statement (.fsubs p d a b r) := fun _ _ => by
  have h0 : (encS 0x41 p d a b (0#30 ++ r.code)).extractLsb' 0 3 = r.code := ext_lo (ext_lo (ext_all _))
  have h1 : (encS 0x41 p d a b (0#30 ++ r.code)).extractLsb' 51 5 = p := ext_hi (ext_hi (ext_hi (ext_hi (ext_lo (ext_all _)))))
  have h2 : (encS 0x41 p d a b (0#30 ++ r.code)).extractLsb' 45 6 = d := ext_hi (ext_hi (ext_hi (ext_lo (ext_all _))))
  have h3 : (encS 0x41 p d a b (0#30 ++ r.code)).extractLsb' 39 6 = a := ext_hi (ext_hi (ext_lo (ext_all _)))
  have h4 : (encS 0x41 p d a b (0#30 ++ r.code)).extractLsb' 33 6 = b := ext_hi (ext_lo (ext_all _))
  have hop : (encS 0x41 p d a b (0#30 ++ r.code)).extractLsb' 56 8 = 0x41 := ext_hi (ext_hi (ext_hi (ext_hi (ext_hi (ext_all _)))))
  have k : fieldsS (encS 0x41 p d a b (0#30 ++ r.code)) = some (.fsubs p d a b r) := by
    delta fieldsS
    rw [hop]
    show ((Rnd.ofCode ((encS 0x41 p d a b (0#30 ++ r.code)).extractLsb' 0 3)).map fun r1 => Instr.fsubs ((encS 0x41 p d a b (0#30 ++ r.code)).extractLsb' 51 5) ((encS 0x41 p d a b (0#30 ++ r.code)).extractLsb' 45 6) ((encS 0x41 p d a b (0#30 ++ r.code)).extractLsb' 39 6) ((encS 0x41 p d a b (0#30 ++ r.code)).extractLsb' 33 6) r1) = _
    rw [h0, rnd_code, h1, h2, h3, h4]
    rfl
  exact ofS rfl k

theorem Encoding.fmuls (p : Path) (d : XReg) (a : XReg) (b : XReg) (r : Rnd) : Statement (.fmuls p d a b r) := fun _ _ => by
  have h0 : (encS 0x42 p d a b (0#30 ++ r.code)).extractLsb' 0 3 = r.code := ext_lo (ext_lo (ext_all _))
  have h1 : (encS 0x42 p d a b (0#30 ++ r.code)).extractLsb' 51 5 = p := ext_hi (ext_hi (ext_hi (ext_hi (ext_lo (ext_all _)))))
  have h2 : (encS 0x42 p d a b (0#30 ++ r.code)).extractLsb' 45 6 = d := ext_hi (ext_hi (ext_hi (ext_lo (ext_all _))))
  have h3 : (encS 0x42 p d a b (0#30 ++ r.code)).extractLsb' 39 6 = a := ext_hi (ext_hi (ext_lo (ext_all _)))
  have h4 : (encS 0x42 p d a b (0#30 ++ r.code)).extractLsb' 33 6 = b := ext_hi (ext_lo (ext_all _))
  have hop : (encS 0x42 p d a b (0#30 ++ r.code)).extractLsb' 56 8 = 0x42 := ext_hi (ext_hi (ext_hi (ext_hi (ext_hi (ext_all _)))))
  have k : fieldsS (encS 0x42 p d a b (0#30 ++ r.code)) = some (.fmuls p d a b r) := by
    delta fieldsS
    rw [hop]
    show ((Rnd.ofCode ((encS 0x42 p d a b (0#30 ++ r.code)).extractLsb' 0 3)).map fun r1 => Instr.fmuls ((encS 0x42 p d a b (0#30 ++ r.code)).extractLsb' 51 5) ((encS 0x42 p d a b (0#30 ++ r.code)).extractLsb' 45 6) ((encS 0x42 p d a b (0#30 ++ r.code)).extractLsb' 39 6) ((encS 0x42 p d a b (0#30 ++ r.code)).extractLsb' 33 6) r1) = _
    rw [h0, rnd_code, h1, h2, h3, h4]
    rfl
  exact ofS rfl k

theorem Encoding.ffmas (p : Path) (d : XReg) (a : XReg) (b : XReg) (c : XReg) (r : Rnd) : Statement (.ffmas p d a b c r) := fun _ _ => by
  have h0 : (encS 0x43 p d a b (0#24 ++ c ++ r.code)).extractLsb' 0 3 = r.code := ext_lo (ext_lo (ext_all _))
  have h1 : (encS 0x43 p d a b (0#24 ++ c ++ r.code)).extractLsb' 51 5 = p := ext_hi (ext_hi (ext_hi (ext_hi (ext_lo (ext_all _)))))
  have h2 : (encS 0x43 p d a b (0#24 ++ c ++ r.code)).extractLsb' 45 6 = d := ext_hi (ext_hi (ext_hi (ext_lo (ext_all _))))
  have h3 : (encS 0x43 p d a b (0#24 ++ c ++ r.code)).extractLsb' 39 6 = a := ext_hi (ext_hi (ext_lo (ext_all _)))
  have h4 : (encS 0x43 p d a b (0#24 ++ c ++ r.code)).extractLsb' 33 6 = b := ext_hi (ext_lo (ext_all _))
  have h5 : (encS 0x43 p d a b (0#24 ++ c ++ r.code)).extractLsb' 3 6 = c := ext_lo (ext_hi (ext_lo (ext_all _)))
  have hop : (encS 0x43 p d a b (0#24 ++ c ++ r.code)).extractLsb' 56 8 = 0x43 := ext_hi (ext_hi (ext_hi (ext_hi (ext_hi (ext_all _)))))
  have k : fieldsS (encS 0x43 p d a b (0#24 ++ c ++ r.code)) = some (.ffmas p d a b c r) := by
    delta fieldsS
    rw [hop]
    show ((Rnd.ofCode ((encS 0x43 p d a b (0#24 ++ c ++ r.code)).extractLsb' 0 3)).map fun r1 => Instr.ffmas ((encS 0x43 p d a b (0#24 ++ c ++ r.code)).extractLsb' 51 5) ((encS 0x43 p d a b (0#24 ++ c ++ r.code)).extractLsb' 45 6) ((encS 0x43 p d a b (0#24 ++ c ++ r.code)).extractLsb' 39 6) ((encS 0x43 p d a b (0#24 ++ c ++ r.code)).extractLsb' 33 6) ((encS 0x43 p d a b (0#24 ++ c ++ r.code)).extractLsb' 3 6) r1) = _
    rw [h0, rnd_code, h1, h2, h3, h4, h5]
    rfl
  exact ofS rfl k

theorem Encoding.fmins (p : Path) (d : XReg) (a : XReg) (b : XReg) : Statement (.fmins p d a b) := fun _ _ => by
  have h0 : (encS 0x44 p d a b 0).extractLsb' 51 5 = p := ext_hi (ext_hi (ext_hi (ext_hi (ext_lo (ext_all _)))))
  have h1 : (encS 0x44 p d a b 0).extractLsb' 45 6 = d := ext_hi (ext_hi (ext_hi (ext_lo (ext_all _))))
  have h2 : (encS 0x44 p d a b 0).extractLsb' 39 6 = a := ext_hi (ext_hi (ext_lo (ext_all _)))
  have h3 : (encS 0x44 p d a b 0).extractLsb' 33 6 = b := ext_hi (ext_lo (ext_all _))
  have hop : (encS 0x44 p d a b 0).extractLsb' 56 8 = 0x44 := ext_hi (ext_hi (ext_hi (ext_hi (ext_hi (ext_all _)))))
  have k : fieldsS (encS 0x44 p d a b 0) = some (.fmins p d a b) := by
    delta fieldsS
    rw [hop]
    show some (Instr.fmins ((encS 0x44 p d a b 0).extractLsb' 51 5) ((encS 0x44 p d a b 0).extractLsb' 45 6) ((encS 0x44 p d a b 0).extractLsb' 39 6) ((encS 0x44 p d a b 0).extractLsb' 33 6)) = _
    rw [h0, h1, h2, h3]
  exact ofS rfl k

theorem Encoding.fmaxs (p : Path) (d : XReg) (a : XReg) (b : XReg) : Statement (.fmaxs p d a b) := fun _ _ => by
  have h0 : (encS 0x45 p d a b 0).extractLsb' 51 5 = p := ext_hi (ext_hi (ext_hi (ext_hi (ext_lo (ext_all _)))))
  have h1 : (encS 0x45 p d a b 0).extractLsb' 45 6 = d := ext_hi (ext_hi (ext_hi (ext_lo (ext_all _))))
  have h2 : (encS 0x45 p d a b 0).extractLsb' 39 6 = a := ext_hi (ext_hi (ext_lo (ext_all _)))
  have h3 : (encS 0x45 p d a b 0).extractLsb' 33 6 = b := ext_hi (ext_lo (ext_all _))
  have hop : (encS 0x45 p d a b 0).extractLsb' 56 8 = 0x45 := ext_hi (ext_hi (ext_hi (ext_hi (ext_hi (ext_all _)))))
  have k : fieldsS (encS 0x45 p d a b 0) = some (.fmaxs p d a b) := by
    delta fieldsS
    rw [hop]
    show some (Instr.fmaxs ((encS 0x45 p d a b 0).extractLsb' 51 5) ((encS 0x45 p d a b 0).extractLsb' 45 6) ((encS 0x45 p d a b 0).extractLsb' 39 6) ((encS 0x45 p d a b 0).extractLsb' 33 6)) = _
    rw [h0, h1, h2, h3]
  exact ofS rfl k

theorem Encoding.fcmps (p : Path) (c : BitVec 4) (f : FlagIx) (a : XReg) (b : XReg) : Statement (.fcmps p c f a b) := fun _ _ => by
  have h0 : (encS 0x46 p 0 a b (0#17 ++ c ++ f)).extractLsb' 51 5 = p := ext_hi (ext_hi (ext_hi (ext_hi (ext_lo (ext_all _)))))
  have h1 : (encS 0x46 p 0 a b (0#17 ++ c ++ f)).extractLsb' 12 4 = c := ext_lo (ext_hi (ext_lo (ext_all _)))
  have h2 : (encS 0x46 p 0 a b (0#17 ++ c ++ f)).extractLsb' 0 12 = f := ext_lo (ext_lo (ext_all _))
  have h3 : (encS 0x46 p 0 a b (0#17 ++ c ++ f)).extractLsb' 39 6 = a := ext_hi (ext_hi (ext_lo (ext_all _)))
  have h4 : (encS 0x46 p 0 a b (0#17 ++ c ++ f)).extractLsb' 33 6 = b := ext_hi (ext_lo (ext_all _))
  have hop : (encS 0x46 p 0 a b (0#17 ++ c ++ f)).extractLsb' 56 8 = 0x46 := ext_hi (ext_hi (ext_hi (ext_hi (ext_hi (ext_all _)))))
  have k : fieldsS (encS 0x46 p 0 a b (0#17 ++ c ++ f)) = some (.fcmps p c f a b) := by
    delta fieldsS
    rw [hop]
    show some (Instr.fcmps ((encS 0x46 p 0 a b (0#17 ++ c ++ f)).extractLsb' 51 5) ((encS 0x46 p 0 a b (0#17 ++ c ++ f)).extractLsb' 12 4) ((encS 0x46 p 0 a b (0#17 ++ c ++ f)).extractLsb' 0 12) ((encS 0x46 p 0 a b (0#17 ++ c ++ f)).extractLsb' 39 6) ((encS 0x46 p 0 a b (0#17 ++ c ++ f)).extractLsb' 33 6)) = _
    rw [h0, h1, h2, h3, h4]
  exact ofS rfl k

theorem Encoding.fcvtis (p : Path) (d : XReg) (a : XReg) (t : BitVec 4) (r : Rnd) : Statement (.fcvtis p d a t r) := fun _ _ => by
  have h0 : (encS 0x47 p d a 0 (0#20 ++ t ++ 0#6 ++ r.code)).extractLsb' 0 3 = r.code := ext_lo (ext_lo (ext_all _))
  have h1 : (encS 0x47 p d a 0 (0#20 ++ t ++ 0#6 ++ r.code)).extractLsb' 51 5 = p := ext_hi (ext_hi (ext_hi (ext_hi (ext_lo (ext_all _)))))
  have h2 : (encS 0x47 p d a 0 (0#20 ++ t ++ 0#6 ++ r.code)).extractLsb' 45 6 = d := ext_hi (ext_hi (ext_hi (ext_lo (ext_all _))))
  have h3 : (encS 0x47 p d a 0 (0#20 ++ t ++ 0#6 ++ r.code)).extractLsb' 39 6 = a := ext_hi (ext_hi (ext_lo (ext_all _)))
  have h4 : (encS 0x47 p d a 0 (0#20 ++ t ++ 0#6 ++ r.code)).extractLsb' 9 4 = t := ext_lo (ext_hi (ext_hi (ext_lo (ext_all _))))
  have hop : (encS 0x47 p d a 0 (0#20 ++ t ++ 0#6 ++ r.code)).extractLsb' 56 8 = 0x47 := ext_hi (ext_hi (ext_hi (ext_hi (ext_hi (ext_all _)))))
  have k : fieldsS (encS 0x47 p d a 0 (0#20 ++ t ++ 0#6 ++ r.code)) = some (.fcvtis p d a t r) := by
    delta fieldsS
    rw [hop]
    show ((Rnd.ofCode ((encS 0x47 p d a 0 (0#20 ++ t ++ 0#6 ++ r.code)).extractLsb' 0 3)).map fun r1 => Instr.fcvtis ((encS 0x47 p d a 0 (0#20 ++ t ++ 0#6 ++ r.code)).extractLsb' 51 5) ((encS 0x47 p d a 0 (0#20 ++ t ++ 0#6 ++ r.code)).extractLsb' 45 6) ((encS 0x47 p d a 0 (0#20 ++ t ++ 0#6 ++ r.code)).extractLsb' 39 6) ((encS 0x47 p d a 0 (0#20 ++ t ++ 0#6 ++ r.code)).extractLsb' 9 4) r1) = _
    rw [h0, rnd_code, h1, h2, h3, h4]
    rfl
  exact ofS rfl k

theorem Encoding.fcvtsi (p : Path) (d : XReg) (a : XReg) (t : BitVec 4) (s : Bool) (r : Rnd) : Statement (.fcvtsi p d a t s r) := fun _ _ => by
  have h0 : (encS 0x48 p d a 0 (0#19 ++ bit s ++ t ++ 0#6 ++ r.code)).extractLsb' 0 3 = r.code := ext_lo (ext_lo (ext_all _))
  have h1 : (encS 0x48 p d a 0 (0#19 ++ bit s ++ t ++ 0#6 ++ r.code)).extractLsb' 51 5 = p := ext_hi (ext_hi (ext_hi (ext_hi (ext_lo (ext_all _)))))
  have h2 : (encS 0x48 p d a 0 (0#19 ++ bit s ++ t ++ 0#6 ++ r.code)).extractLsb' 45 6 = d := ext_hi (ext_hi (ext_hi (ext_lo (ext_all _))))
  have h3 : (encS 0x48 p d a 0 (0#19 ++ bit s ++ t ++ 0#6 ++ r.code)).extractLsb' 39 6 = a := ext_hi (ext_hi (ext_lo (ext_all _)))
  have h4 : (encS 0x48 p d a 0 (0#19 ++ bit s ++ t ++ 0#6 ++ r.code)).extractLsb' 9 4 = t := ext_lo (ext_hi (ext_hi (ext_lo (ext_all _))))
  have h5 : (encS 0x48 p d a 0 (0#19 ++ bit s ++ t ++ 0#6 ++ r.code)).getLsbD 13 = s := get_lo (get_hi (get_hi (get_hi (get_lo (bit_get _)))))
  have hop : (encS 0x48 p d a 0 (0#19 ++ bit s ++ t ++ 0#6 ++ r.code)).extractLsb' 56 8 = 0x48 := ext_hi (ext_hi (ext_hi (ext_hi (ext_hi (ext_all _)))))
  have k : fieldsS (encS 0x48 p d a 0 (0#19 ++ bit s ++ t ++ 0#6 ++ r.code)) = some (.fcvtsi p d a t s r) := by
    delta fieldsS
    rw [hop]
    show ((Rnd.ofCode ((encS 0x48 p d a 0 (0#19 ++ bit s ++ t ++ 0#6 ++ r.code)).extractLsb' 0 3)).map fun r1 => Instr.fcvtsi ((encS 0x48 p d a 0 (0#19 ++ bit s ++ t ++ 0#6 ++ r.code)).extractLsb' 51 5) ((encS 0x48 p d a 0 (0#19 ++ bit s ++ t ++ 0#6 ++ r.code)).extractLsb' 45 6) ((encS 0x48 p d a 0 (0#19 ++ bit s ++ t ++ 0#6 ++ r.code)).extractLsb' 39 6) ((encS 0x48 p d a 0 (0#19 ++ bit s ++ t ++ 0#6 ++ r.code)).extractLsb' 9 4) ((encS 0x48 p d a 0 (0#19 ++ bit s ++ t ++ 0#6 ++ r.code)).getLsbD 13) r1) = _
    rw [h0, rnd_code, h1, h2, h3, h4, h5]
    rfl
  exact ofS rfl k

theorem Encoding.frcps (p : Path) (d : XReg) (a : XReg) : Statement (.frcps p d a) := fun _ _ => by
  have h0 : (encS 0x49 p d a 0 0).extractLsb' 51 5 = p := ext_hi (ext_hi (ext_hi (ext_hi (ext_lo (ext_all _)))))
  have h1 : (encS 0x49 p d a 0 0).extractLsb' 45 6 = d := ext_hi (ext_hi (ext_hi (ext_lo (ext_all _))))
  have h2 : (encS 0x49 p d a 0 0).extractLsb' 39 6 = a := ext_hi (ext_hi (ext_lo (ext_all _)))
  have hop : (encS 0x49 p d a 0 0).extractLsb' 56 8 = 0x49 := ext_hi (ext_hi (ext_hi (ext_hi (ext_hi (ext_all _)))))
  have k : fieldsS (encS 0x49 p d a 0 0) = some (.frcps p d a) := by
    delta fieldsS
    rw [hop]
    show some (Instr.frcps ((encS 0x49 p d a 0 0).extractLsb' 51 5) ((encS 0x49 p d a 0 0).extractLsb' 45 6) ((encS 0x49 p d a 0 0).extractLsb' 39 6)) = _
    rw [h0, h1, h2]
  exact ofS rfl k

theorem Encoding.xlt (p : Path) (h : HReg) (a : XReg) : Statement (.xlt p h a) := fun _ _ => by
  have h0 : (encS 0x50 p (0#1 ++ h) a 0 0).extractLsb' 51 5 = p := ext_hi (ext_hi (ext_hi (ext_hi (ext_lo (ext_all _)))))
  have h1 : (encS 0x50 p (0#1 ++ h) a 0 0).extractLsb' 45 6 = 0#1 ++ h := ext_hi (ext_hi (ext_hi (ext_lo (ext_all _))))
  have h2 : (encS 0x50 p (0#1 ++ h) a 0 0).extractLsb' 39 6 = a := ext_hi (ext_hi (ext_lo (ext_all _)))
  have hop : (encS 0x50 p (0#1 ++ h) a 0 0).extractLsb' 56 8 = 0x50 := ext_hi (ext_hi (ext_hi (ext_hi (ext_hi (ext_all _)))))
  have k : fieldsS (encS 0x50 p (0#1 ++ h) a 0 0) = some (.xlt p h a) := by
    delta fieldsS
    rw [hop]
    show some (Instr.xlt ((encS 0x50 p (0#1 ++ h) a 0 0).extractLsb' 51 5) (((encS 0x50 p (0#1 ++ h) a 0 0).extractLsb' 45 6).setWidth 5) ((encS 0x50 p (0#1 ++ h) a 0 0).extractLsb' 39 6)) = _
    rw [h0, h1, h2, hreg_code]
  exact ofS rfl k

theorem Encoding.xltw (p : Path) (h : HReg) (a : XReg) : Statement (.xltw p h a) := fun _ _ => by
  have h0 : (encS 0x51 p (0#1 ++ h) a 0 0).getLsbD 0 = false := get_lo ((by decide))
  have h1 : (encS 0x51 p (0#1 ++ h) a 0 0).extractLsb' 51 5 = p := ext_hi (ext_hi (ext_hi (ext_hi (ext_lo (ext_all _)))))
  have h2 : (encS 0x51 p (0#1 ++ h) a 0 0).extractLsb' 45 6 = 0#1 ++ h := ext_hi (ext_hi (ext_hi (ext_lo (ext_all _))))
  have h3 : (encS 0x51 p (0#1 ++ h) a 0 0).extractLsb' 39 6 = a := ext_hi (ext_hi (ext_lo (ext_all _)))
  have hop : (encS 0x51 p (0#1 ++ h) a 0 0).extractLsb' 56 8 = 0x51 := ext_hi (ext_hi (ext_hi (ext_hi (ext_hi (ext_all _)))))
  have k : fieldsS (encS 0x51 p (0#1 ++ h) a 0 0) = some (.xltw p h a) := by
    delta fieldsS
    rw [hop]
    show some (if (encS 0x51 p (0#1 ++ h) a 0 0).getLsbD 0 then Instr.xltwG ((encS 0x51 p (0#1 ++ h) a 0 0).extractLsb' 51 5) (((encS 0x51 p (0#1 ++ h) a 0 0).extractLsb' 45 6).setWidth 5) ((encS 0x51 p (0#1 ++ h) a 0 0).extractLsb' 39 6) ((encS 0x51 p (0#1 ++ h) a 0 0).extractLsb' 33 6) else Instr.xltw ((encS 0x51 p (0#1 ++ h) a 0 0).extractLsb' 51 5) (((encS 0x51 p (0#1 ++ h) a 0 0).extractLsb' 45 6).setWidth 5) ((encS 0x51 p (0#1 ++ h) a 0 0).extractLsb' 39 6)) = _
    rw [h0, h1, h2, h3, hreg_code]
    rfl
  exact ofS rfl k

theorem Encoding.xltwG (p : Path) (h : HReg) (a : XReg) (b : XReg) : Statement (.xltwG p h a b) := fun _ _ => by
  have h0 : (encS 0x51 p (0#1 ++ h) a b 1).getLsbD 0 = true := get_lo ((by decide))
  have h1 : (encS 0x51 p (0#1 ++ h) a b 1).extractLsb' 51 5 = p := ext_hi (ext_hi (ext_hi (ext_hi (ext_lo (ext_all _)))))
  have h2 : (encS 0x51 p (0#1 ++ h) a b 1).extractLsb' 45 6 = 0#1 ++ h := ext_hi (ext_hi (ext_hi (ext_lo (ext_all _))))
  have h3 : (encS 0x51 p (0#1 ++ h) a b 1).extractLsb' 39 6 = a := ext_hi (ext_hi (ext_lo (ext_all _)))
  have h4 : (encS 0x51 p (0#1 ++ h) a b 1).extractLsb' 33 6 = b := ext_hi (ext_lo (ext_all _))
  have hop : (encS 0x51 p (0#1 ++ h) a b 1).extractLsb' 56 8 = 0x51 := ext_hi (ext_hi (ext_hi (ext_hi (ext_hi (ext_all _)))))
  have k : fieldsS (encS 0x51 p (0#1 ++ h) a b 1) = some (.xltwG p h a b) := by
    delta fieldsS
    rw [hop]
    show some (if (encS 0x51 p (0#1 ++ h) a b 1).getLsbD 0 then Instr.xltwG ((encS 0x51 p (0#1 ++ h) a b 1).extractLsb' 51 5) (((encS 0x51 p (0#1 ++ h) a b 1).extractLsb' 45 6).setWidth 5) ((encS 0x51 p (0#1 ++ h) a b 1).extractLsb' 39 6) ((encS 0x51 p (0#1 ++ h) a b 1).extractLsb' 33 6) else Instr.xltw ((encS 0x51 p (0#1 ++ h) a b 1).extractLsb' 51 5) (((encS 0x51 p (0#1 ++ h) a b 1).extractLsb' 45 6).setWidth 5) ((encS 0x51 p (0#1 ++ h) a b 1).extractLsb' 39 6)) = _
    rw [h0, h1, h2, h3, h4, hreg_code]
    rfl
  exact ofS rfl k

theorem Encoding.hinv (p : Path) (all : Bool) (h : HReg) : Statement (.hinv p all h) := fun _ _ => by
  have h0 : (encS 0x52 p (0#1 ++ h) 0 0 (0#32 ++ bit all)).extractLsb' 51 5 = p := ext_hi (ext_hi (ext_hi (ext_hi (ext_lo (ext_all _)))))
  have h1 : (encS 0x52 p (0#1 ++ h) 0 0 (0#32 ++ bit all)).getLsbD 0 = all := get_lo (get_lo (bit_get _))
  have h2 : (encS 0x52 p (0#1 ++ h) 0 0 (0#32 ++ bit all)).extractLsb' 45 6 = 0#1 ++ h := ext_hi (ext_hi (ext_hi (ext_lo (ext_all _))))
  have hop : (encS 0x52 p (0#1 ++ h) 0 0 (0#32 ++ bit all)).extractLsb' 56 8 = 0x52 := ext_hi (ext_hi (ext_hi (ext_hi (ext_hi (ext_all _)))))
  have k : fieldsS (encS 0x52 p (0#1 ++ h) 0 0 (0#32 ++ bit all)) = some (.hinv p all h) := by
    delta fieldsS
    rw [hop]
    show some (Instr.hinv ((encS 0x52 p (0#1 ++ h) 0 0 (0#32 ++ bit all)).extractLsb' 51 5) ((encS 0x52 p (0#1 ++ h) 0 0 (0#32 ++ bit all)).getLsbD 0) (((encS 0x52 p (0#1 ++ h) 0 0 (0#32 ++ bit all)).extractLsb' 45 6).setWidth 5)) = _
    rw [h0, h1, h2, hreg_code]
  exact ofS rfl k

theorem Encoding.hrd (p : Path) (d : XReg) (h : HReg) (part : Bool) : Statement (.hrd p d h part) := fun _ _ => by
  have h0 : (encS 0x53 p d (0#1 ++ h) 0 (0#32 ++ bit part)).extractLsb' 51 5 = p := ext_hi (ext_hi (ext_hi (ext_hi (ext_lo (ext_all _)))))
  have h1 : (encS 0x53 p d (0#1 ++ h) 0 (0#32 ++ bit part)).extractLsb' 45 6 = d := ext_hi (ext_hi (ext_hi (ext_lo (ext_all _))))
  have h2 : (encS 0x53 p d (0#1 ++ h) 0 (0#32 ++ bit part)).extractLsb' 39 6 = 0#1 ++ h := ext_hi (ext_hi (ext_lo (ext_all _)))
  have h3 : (encS 0x53 p d (0#1 ++ h) 0 (0#32 ++ bit part)).getLsbD 0 = part := get_lo (get_lo (bit_get _))
  have hop : (encS 0x53 p d (0#1 ++ h) 0 (0#32 ++ bit part)).extractLsb' 56 8 = 0x53 := ext_hi (ext_hi (ext_hi (ext_hi (ext_hi (ext_all _)))))
  have k : fieldsS (encS 0x53 p d (0#1 ++ h) 0 (0#32 ++ bit part)) = some (.hrd p d h part) := by
    delta fieldsS
    rw [hop]
    show some (Instr.hrd ((encS 0x53 p d (0#1 ++ h) 0 (0#32 ++ bit part)).extractLsb' 51 5) ((encS 0x53 p d (0#1 ++ h) 0 (0#32 ++ bit part)).extractLsb' 45 6) (((encS 0x53 p d (0#1 ++ h) 0 (0#32 ++ bit part)).extractLsb' 39 6).setWidth 5) ((encS 0x53 p d (0#1 ++ h) 0 (0#32 ++ bit part)).getLsbD 0)) = _
    rw [h0, h1, h2, h3, hreg_code]
  exact ofS rfl k

theorem Encoding.hchk (p : Path) (f : FlagIx) (h : HReg) (c : Bool) : Statement (.hchk p f h c) := fun _ _ => by
  have h0 : (encS 0x54 p 0 (0#1 ++ h) 0 (0#20 ++ bit c ++ f)).extractLsb' 51 5 = p := ext_hi (ext_hi (ext_hi (ext_hi (ext_lo (ext_all _)))))
  have h1 : (encS 0x54 p 0 (0#1 ++ h) 0 (0#20 ++ bit c ++ f)).extractLsb' 0 12 = f := ext_lo (ext_lo (ext_all _))
  have h2 : (encS 0x54 p 0 (0#1 ++ h) 0 (0#20 ++ bit c ++ f)).extractLsb' 39 6 = 0#1 ++ h := ext_hi (ext_hi (ext_lo (ext_all _)))
  have h3 : (encS 0x54 p 0 (0#1 ++ h) 0 (0#20 ++ bit c ++ f)).getLsbD 12 = c := get_lo (get_hi (get_lo (bit_get _)))
  have hop : (encS 0x54 p 0 (0#1 ++ h) 0 (0#20 ++ bit c ++ f)).extractLsb' 56 8 = 0x54 := ext_hi (ext_hi (ext_hi (ext_hi (ext_hi (ext_all _)))))
  have k : fieldsS (encS 0x54 p 0 (0#1 ++ h) 0 (0#20 ++ bit c ++ f)) = some (.hchk p f h c) := by
    delta fieldsS
    rw [hop]
    show some (Instr.hchk ((encS 0x54 p 0 (0#1 ++ h) 0 (0#20 ++ bit c ++ f)).extractLsb' 51 5) ((encS 0x54 p 0 (0#1 ++ h) 0 (0#20 ++ bit c ++ f)).extractLsb' 0 12) (((encS 0x54 p 0 (0#1 ++ h) 0 (0#20 ++ bit c ++ f)).extractLsb' 39 6).setWidth 5) ((encS 0x54 p 0 (0#1 ++ h) 0 (0#20 ++ bit c ++ f)).getLsbD 12)) = _
    rw [h0, h1, h2, h3, hreg_code]
  exact ofS rfl k

theorem Encoding.crd (p : Path) (d : XReg) (i : BitVec 12) : Statement (.crd p d i) := fun _ _ => by
  have h0 : (encS 0x58 p d 0 0 (0#21 ++ i)).extractLsb' 51 5 = p := ext_hi (ext_hi (ext_hi (ext_hi (ext_lo (ext_all _)))))
  have h1 : (encS 0x58 p d 0 0 (0#21 ++ i)).extractLsb' 45 6 = d := ext_hi (ext_hi (ext_hi (ext_lo (ext_all _))))
  have h2 : (encS 0x58 p d 0 0 (0#21 ++ i)).extractLsb' 0 12 = i := ext_lo (ext_lo (ext_all _))
  have hop : (encS 0x58 p d 0 0 (0#21 ++ i)).extractLsb' 56 8 = 0x58 := ext_hi (ext_hi (ext_hi (ext_hi (ext_hi (ext_all _)))))
  have k : fieldsS (encS 0x58 p d 0 0 (0#21 ++ i)) = some (.crd p d i) := by
    delta fieldsS
    rw [hop]
    show some (Instr.crd ((encS 0x58 p d 0 0 (0#21 ++ i)).extractLsb' 51 5) ((encS 0x58 p d 0 0 (0#21 ++ i)).extractLsb' 45 6) ((encS 0x58 p d 0 0 (0#21 ++ i)).extractLsb' 0 12)) = _
    rw [h0, h1, h2]
  exact ofS rfl k

theorem Encoding.cwr (p : Path) (i : BitVec 12) (a : XReg) : Statement (.cwr p i a) := fun hw _ => by
  have hi : cwrOf p i a = .cwr p i a := cwrOf_other p i a (by simpa [Instr.wf] using (Bool.and_eq_true_iff.mp hw).2)
  exact ofS rfl ((fieldsS_cwr p a (0#21 ++ i) i (imm_creg i)).trans (congrArg some hi))

theorem Encoding.fpxWrite (p : Path) (a : XReg) : Statement (.fpxWrite p a) := fun _ _ =>
  ofS rfl ((fieldsS_cwr p a 0x002 0x002 (by decide)).trans rfl)

theorem Encoding.basidWrite (p : Path) (a : XReg) : Statement (.basidWrite p a) := fun _ _ =>
  ofS rfl ((fieldsS_cwr p a 0x102 0x102 (by decide)).trans rfl)

theorem Encoding.ltbWrite (p : Path) (a : XReg) : Statement (.ltbWrite p a) := fun _ _ =>
  ofS rfl ((fieldsS_cwr p a 0x112 0x112 (by decide)).trans rfl)

theorem Encoding.qmapWrite (p : Path) (n : BitVec 6) (a : XReg) : Statement (.qmapWrite p n a) := fun _ _ =>
  ofS rfl ((fieldsS_cwr p a _ (BitVec.ofNat 12 (0x120 + n.toNat)) (imm_qmap n)).trans (congrArg some (cwrOf_qmap p n a)))

theorem Encoding.isldWrite (p : Path) (a : XReg) : Statement (.isldWrite p a) := fun _ _ =>
  ofS rfl ((fieldsS_cwr p a 0x181 0x181 (by decide)).trans rfl)

theorem Encoding.egrantWrite (p : Path) (a : XReg) : Statement (.egrantWrite p a) := fun _ _ =>
  ofS rfl ((fieldsS_cwr p a 0x190 0x190 (by decide)).trans rfl)

theorem Encoding.vadd (o : VOp) : Statement (.vadd o) := fun _ _ => ofV rfl rfl (fieldsV_enc _ o)

theorem Encoding.vsub (o : VOp) : Statement (.vsub o) := fun _ _ => ofV rfl rfl (fieldsV_enc _ o)

theorem Encoding.vmul (o : VOp) : Statement (.vmul o) := fun _ _ => ofV rfl rfl (fieldsV_enc _ o)

theorem Encoding.vfma (o : VOp) : Statement (.vfma o) := fun _ _ => ofV rfl rfl (fieldsV_enc _ o)

theorem Encoding.vfms (o : VOp) : Statement (.vfms o) := fun _ _ => ofV rfl rfl (fieldsV_enc _ o)

theorem Encoding.vfnma (o : VOp) : Statement (.vfnma o) := fun _ _ => ofV rfl rfl (fieldsV_enc _ o)

theorem Encoding.vmin (o : VOp) : Statement (.vmin o) := fun _ _ => ofV rfl rfl (fieldsV_enc _ o)

theorem Encoding.vmax (o : VOp) : Statement (.vmax o) := fun _ _ => ofV rfl rfl (fieldsV_enc _ o)

theorem Encoding.vabs (o : VOp) : Statement (.vabs o) := fun _ _ => ofV rfl rfl (fieldsV_enc _ o)

theorem Encoding.vneg (o : VOp) : Statement (.vneg o) := fun _ _ => ofV rfl rfl (fieldsV_enc _ o)

theorem Encoding.vclamp (o : VOp) : Statement (.vclamp o) := fun _ _ => ofV rfl rfl (fieldsV_enc _ o)

theorem Encoding.vdot2 (o : VOp) : Statement (.vdot2 o) := fun _ _ => ofV rfl rfl (fieldsV_enc _ o)

theorem Encoding.vdot4 (o : VOp) : Statement (.vdot4 o) := fun _ _ => ofV rfl rfl (fieldsV_enc _ o)

theorem Encoding.vand (o : VOp) : Statement (.vand o) := fun _ _ => ofV rfl rfl (fieldsV_enc _ o)

theorem Encoding.vor (o : VOp) : Statement (.vor o) := fun _ _ => ofV rfl rfl (fieldsV_enc _ o)

theorem Encoding.vxor (o : VOp) : Statement (.vxor o) := fun _ _ => ofV rfl rfl (fieldsV_enc _ o)

theorem Encoding.vnot (o : VOp) : Statement (.vnot o) := fun _ _ => ofV rfl rfl (fieldsV_enc _ o)

theorem Encoding.vshl (o : VOp) : Statement (.vshl o) := fun _ _ => ofV rfl rfl (fieldsV_enc _ o)

theorem Encoding.vshr (o : VOp) : Statement (.vshr o) := fun _ _ => ofV rfl rfl (fieldsV_enc _ o)

theorem Encoding.vsra (o : VOp) : Statement (.vsra o) := fun _ _ => ofV rfl rfl (fieldsV_enc _ o)

theorem Encoding.vrshr (o : VOp) : Statement (.vrshr o) := fun _ _ => ofV rfl rfl (fieldsV_enc _ o)

theorem Encoding.vmulh (o : VOp) : Statement (.vmulh o) := fun _ _ => ofV rfl rfl (fieldsV_enc _ o)

theorem Encoding.vmov (o : VOp) : Statement (.vmov o) := fun _ _ => ofV rfl rfl (fieldsV_enc _ o)

theorem Encoding.vfill (o : VOp) : Statement (.vfill o) := fun _ _ => ofV rfl rfl (fieldsV_enc _ o)

theorem Encoding.vidx (o : VOp) : Statement (.vidx o) := fun _ _ => ofV rfl rfl (fieldsV_enc _ o)

theorem Encoding.vcmp (o : VOp) : Statement (.vcmp o) := fun _ _ => ofV rfl rfl (fieldsV_enc _ o)

theorem Encoding.vsel (o : VOp) : Statement (.vsel o) := fun _ _ => ofV rfl rfl (fieldsV_enc _ o)

theorem Encoding.mset (o : VOp) : Statement (.mset o) := fun _ _ => ofV rfl rfl (fieldsV_enc _ o)

theorem Encoding.mlog (o : VOp) : Statement (.mlog o) := fun _ _ => ofV rfl rfl (fieldsV_enc _ o)

theorem Encoding.mpopc (o : VOp) : Statement (.mpopc o) := fun _ _ => ofV rfl rfl (fieldsV_enc _ o)

theorem Encoding.vcvt (o : VOp) : Statement (.vcvt o) := fun _ _ => ofV rfl rfl (fieldsV_enc _ o)

theorem Encoding.vpack (o : VOp) : Statement (.vpack o) := fun _ _ => ofV rfl rfl (fieldsV_enc _ o)

theorem Encoding.vunpk (o : VOp) : Statement (.vunpk o) := fun _ _ => ofV rfl rfl (fieldsV_enc _ o)

theorem Encoding.vqnt (o : VOp) : Statement (.vqnt o) := fun _ _ => ofV rfl rfl (fieldsV_enc _ o)

theorem Encoding.vdqnt (o : VOp) : Statement (.vdqnt o) := fun _ _ => ofV rfl rfl (fieldsV_enc _ o)

theorem Encoding.vrcp (o : VOp) : Statement (.vrcp o) := fun _ _ => ofV rfl rfl (fieldsV_enc _ o)

theorem Encoding.vrsq (o : VOp) : Statement (.vrsq o) := fun _ _ => ofV rfl rfl (fieldsV_enc _ o)

theorem Encoding.vexp2 (o : VOp) : Statement (.vexp2 o) := fun _ _ => ofV rfl rfl (fieldsV_enc _ o)

theorem Encoding.vlog2 (o : VOp) : Statement (.vlog2 o) := fun _ _ => ofV rfl rfl (fieldsV_enc _ o)

theorem Encoding.vtanh (o : VOp) : Statement (.vtanh o) := fun _ _ => ofV rfl rfl (fieldsV_enc _ o)

theorem Encoding.vredr (o : VOp) : Statement (.vredr o) := fun _ _ => ofV rfl rfl (fieldsV_enc _ o)

theorem Encoding.vredc (o : VOp) : Statement (.vredc o) := fun _ _ => ofV rfl rfl (fieldsV_enc _ o)

theorem Encoding.vscanr (o : VOp) : Statement (.vscanr o) := fun _ _ => ofV rfl rfl (fieldsV_enc _ o)

theorem Encoding.vmvr (o : VOp) : Statement (.vmvr o) := fun _ _ => ofV rfl rfl (fieldsV_enc _ o)

theorem Encoding.vmvc (o : VOp) : Statement (.vmvc o) := fun _ _ => ofV rfl rfl (fieldsV_enc _ o)

theorem Encoding.vperm (o : VOp) : Statement (.vperm o) := fun _ _ => ofV rfl rfl (fieldsV_enc _ o)

theorem Encoding.vcswp (o : VOp) : Statement (.vcswp o) := fun _ _ => ofV rfl rfl (fieldsV_enc _ o)

theorem Encoding.vtrb (o : VOp) : Statement (.vtrb o) := fun _ _ => ofV rfl rfl (fieldsV_enc _ o)

theorem Encoding.lds (m : MemOp) (mz : Bool) : Statement (.lds m mz) := fun _ _ => by
  have h0 : (encM 0x01 m (0#31 ++ bit mz)).getLsbD 0 = mz := get_lo (get_lo (bit_get _))
  have hop : (encM 0x01 m (0#31 ++ bit mz)).extractLsb' 88 8 = 0x01 := ext_hi (ext_hi (ext_hi (ext_hi (ext_hi (ext_hi (ext_hi (ext_hi (ext_hi (ext_all _)))))))))
  have k : fieldsLd (encM 0x01 m (0#31 ++ bit mz)) = some (.lds m mz) := by
    delta fieldsLd
    rw [memFields_enc]
    rw [hop]
    show some (Instr.lds m ((encM 0x01 m (0#31 ++ bit mz)).getLsbD 0)) = _
    rw [h0]
  exact ofLd rfl rfl rfl k

theorem Encoding.ldr (m : MemOp) (row : BitVec 6) : Statement (.ldr m row) := fun _ _ => by
  have h0 : (encM 0x02 m (0#26 ++ row)).extractLsb' 0 6 = row := ext_lo (ext_lo (ext_all _))
  have hop : (encM 0x02 m (0#26 ++ row)).extractLsb' 88 8 = 0x02 := ext_hi (ext_hi (ext_hi (ext_hi (ext_hi (ext_hi (ext_hi (ext_hi (ext_hi (ext_all _)))))))))
  have k : fieldsLd (encM 0x02 m (0#26 ++ row)) = some (.ldr m row) := by
    delta fieldsLd
    rw [memFields_enc]
    rw [hop]
    show some (Instr.ldr m ((encM 0x02 m (0#26 ++ row)).extractLsb' 0 6)) = _
    rw [h0]
  exact ofLd rfl rfl rfl k

theorem Encoding.lds2 (m : MemOp) (j : BitVec 6) (hb : HReg) (x : XReg) (mz : Bool) : Statement (.lds2 m j hb x mz) := fun _ _ => by
  have h0 : (encM 0x03 m (0#10 ++ j ++ hb ++ x ++ 0#4 ++ bit mz)).extractLsb' 16 6 = j := ext_lo (ext_hi (ext_hi (ext_hi (ext_hi (ext_lo (ext_all _))))))
  have h1 : (encM 0x03 m (0#10 ++ j ++ hb ++ x ++ 0#4 ++ bit mz)).extractLsb' 11 5 = hb := ext_lo (ext_hi (ext_hi (ext_hi (ext_lo (ext_all _)))))
  have h2 : (encM 0x03 m (0#10 ++ j ++ hb ++ x ++ 0#4 ++ bit mz)).extractLsb' 5 6 = x := ext_lo (ext_hi (ext_hi (ext_lo (ext_all _))))
  have h3 : (encM 0x03 m (0#10 ++ j ++ hb ++ x ++ 0#4 ++ bit mz)).getLsbD 0 = mz := get_lo (get_lo (bit_get _))
  have hop : (encM 0x03 m (0#10 ++ j ++ hb ++ x ++ 0#4 ++ bit mz)).extractLsb' 88 8 = 0x03 := ext_hi (ext_hi (ext_hi (ext_hi (ext_hi (ext_hi (ext_hi (ext_hi (ext_hi (ext_all _)))))))))
  have k : fieldsLd (encM 0x03 m (0#10 ++ j ++ hb ++ x ++ 0#4 ++ bit mz)) = some (.lds2 m j hb x mz) := by
    delta fieldsLd
    rw [memFields_enc]
    rw [hop]
    show some (Instr.lds2 m ((encM 0x03 m (0#10 ++ j ++ hb ++ x ++ 0#4 ++ bit mz)).extractLsb' 16 6) ((encM 0x03 m (0#10 ++ j ++ hb ++ x ++ 0#4 ++ bit mz)).extractLsb' 11 5) ((encM 0x03 m (0#10 ++ j ++ hb ++ x ++ 0#4 ++ bit mz)).extractLsb' 5 6) ((encM 0x03 m (0#10 ++ j ++ hb ++ x ++ 0#4 ++ bit mz)).getLsbD 0)) = _
    rw [h0, h1, h2, h3]
  exact ofLd rfl rfl rfl k

theorem Encoding.ldx (m : MemOp) (wid : BitVec 3) : Statement (.ldx m wid) := fun _ _ => by
  have h0 : (encM 0x04 m (0#29 ++ wid)).extractLsb' 0 3 = wid := ext_lo (ext_lo (ext_all _))
  have hop : (encM 0x04 m (0#29 ++ wid)).extractLsb' 88 8 = 0x04 := ext_hi (ext_hi (ext_hi (ext_hi (ext_hi (ext_hi (ext_hi (ext_hi (ext_hi (ext_all _)))))))))
  have k : fieldsLd (encM 0x04 m (0#29 ++ wid)) = some (.ldx m wid) := by
    delta fieldsLd
    rw [memFields_enc]
    rw [hop]
    show some (Instr.ldx m ((encM 0x04 m (0#29 ++ wid)).extractLsb' 0 3)) = _
    rw [h0]
  exact ofLd rfl rfl rfl k

theorem Encoding.ldb (m : MemOp) (mz : Bool) : Statement (.ldb m mz) := fun _ _ => by
  have h0 : (encM 0x05 m (0#31 ++ bit mz)).getLsbD 0 = mz := get_lo (get_lo (bit_get _))
  have hop : (encM 0x05 m (0#31 ++ bit mz)).extractLsb' 88 8 = 0x05 := ext_hi (ext_hi (ext_hi (ext_hi (ext_hi (ext_hi (ext_hi (ext_hi (ext_hi (ext_all _)))))))))
  have k : fieldsLd (encM 0x05 m (0#31 ++ bit mz)) = some (.ldb m mz) := by
    delta fieldsLd
    rw [memFields_enc]
    rw [hop]
    show some (Instr.ldb m ((encM 0x05 m (0#31 ++ bit mz)).getLsbD 0)) = _
    rw [h0]
  exact ofLd rfl rfl rfl k

theorem Encoding.ldg (m : MemOp) (idx : BitVec 5) (mz : Bool) : Statement (.ldg m idx mz) := fun _ _ => by
  have h0 : (encM 0x06 m (0#26 ++ idx ++ bit mz)).extractLsb' 1 5 = idx := ext_lo (ext_hi (ext_lo (ext_all _)))
  have h1 : (encM 0x06 m (0#26 ++ idx ++ bit mz)).getLsbD 0 = mz := get_lo (get_lo (bit_get _))
  have hop : (encM 0x06 m (0#26 ++ idx ++ bit mz)).extractLsb' 88 8 = 0x06 := ext_hi (ext_hi (ext_hi (ext_hi (ext_hi (ext_hi (ext_hi (ext_hi (ext_hi (ext_all _)))))))))
  have k : fieldsLd (encM 0x06 m (0#26 ++ idx ++ bit mz)) = some (.ldg m idx mz) := by
    delta fieldsLd
    rw [memFields_enc]
    rw [hop]
    show some (Instr.ldg m ((encM 0x06 m (0#26 ++ idx ++ bit mz)).extractLsb' 1 5) ((encM 0x06 m (0#26 ++ idx ++ bit mz)).getLsbD 0)) = _
    rw [h0, h1]
  exact ofLd rfl rfl rfl k

theorem Encoding.ldm (m : MemOp) : Statement (.ldm m) := fun _ _ => by
  have hop : (encM 0x07 m 0).extractLsb' 88 8 = 0x07 := ext_hi (ext_hi (ext_hi (ext_hi (ext_hi (ext_hi (ext_hi (ext_hi (ext_hi (ext_all _)))))))))
  have k : fieldsLd (encM 0x07 m 0) = some (.ldm m) := by
    delta fieldsLd
    rw [memFields_enc]
    rw [hop]
    show some (Instr.ldm m) = _
    rfl
  exact ofLd rfl rfl rfl k

theorem Encoding.sts (m : MemOp) (dp : BitVec 3) : Statement (.sts m dp) := fun _ _ => by
  have h0 : (encM 0x01 m (dp ++ 0#29)).extractLsb' 29 3 = dp := ext_lo (ext_hi (ext_all _))
  have hop : (encM 0x01 m (dp ++ 0#29)).extractLsb' 88 8 = 0x01 := ext_hi (ext_hi (ext_hi (ext_hi (ext_hi (ext_hi (ext_hi (ext_hi (ext_hi (ext_all _)))))))))
  have k : fieldsSt (encM 0x01 m (dp ++ 0#29)) = some (.sts m dp) := by
    delta fieldsSt
    rw [memFields_enc]
    rw [hop]
    show some (Instr.sts m ((encM 0x01 m (dp ++ 0#29)).extractLsb' 29 3)) = _
    rw [h0]
  exact ofSt rfl rfl rfl rfl k

theorem Encoding.str (m : MemOp) (dp : BitVec 3) (row : BitVec 6) : Statement (.str m dp row) := fun _ _ => by
  have h0 : (encM 0x02 m (dp ++ 0#23 ++ row)).extractLsb' 29 3 = dp := ext_lo (ext_hi (ext_hi (ext_all _)))
  have h1 : (encM 0x02 m (dp ++ 0#23 ++ row)).extractLsb' 0 6 = row := ext_lo (ext_lo (ext_all _))
  have hop : (encM 0x02 m (dp ++ 0#23 ++ row)).extractLsb' 88 8 = 0x02 := ext_hi (ext_hi (ext_hi (ext_hi (ext_hi (ext_hi (ext_hi (ext_hi (ext_hi (ext_all _)))))))))
  have k : fieldsSt (encM 0x02 m (dp ++ 0#23 ++ row)) = some (.str m dp row) := by
    delta fieldsSt
    rw [memFields_enc]
    rw [hop]
    show some (Instr.str m ((encM 0x02 m (dp ++ 0#23 ++ row)).extractLsb' 29 3) ((encM 0x02 m (dp ++ 0#23 ++ row)).extractLsb' 0 6)) = _
    rw [h0, h1]
  exact ofSt rfl rfl rfl rfl k

theorem Encoding.sts2 (m : MemOp) (dp : BitVec 3) (j : BitVec 6) (hb : HReg) (x : XReg) : Statement (.sts2 m dp j hb x) := fun _ _ => by
  have h0 : (encM 0x03 m (dp ++ 0#7 ++ j ++ hb ++ x ++ 0#5)).extractLsb' 29 3 = dp := ext_lo (ext_hi (ext_hi (ext_hi (ext_hi (ext_hi (ext_all _))))))
  have h1 : (encM 0x03 m (dp ++ 0#7 ++ j ++ hb ++ x ++ 0#5)).extractLsb' 16 6 = j := ext_lo (ext_hi (ext_hi (ext_hi (ext_lo (ext_all _)))))
  have h2 : (encM 0x03 m (dp ++ 0#7 ++ j ++ hb ++ x ++ 0#5)).extractLsb' 11 5 = hb := ext_lo (ext_hi (ext_hi (ext_lo (ext_all _))))
  have h3 : (encM 0x03 m (dp ++ 0#7 ++ j ++ hb ++ x ++ 0#5)).extractLsb' 5 6 = x := ext_lo (ext_hi (ext_lo (ext_all _)))
  have hop : (encM 0x03 m (dp ++ 0#7 ++ j ++ hb ++ x ++ 0#5)).extractLsb' 88 8 = 0x03 := ext_hi (ext_hi (ext_hi (ext_hi (ext_hi (ext_hi (ext_hi (ext_hi (ext_hi (ext_all _)))))))))
  have k : fieldsSt (encM 0x03 m (dp ++ 0#7 ++ j ++ hb ++ x ++ 0#5)) = some (.sts2 m dp j hb x) := by
    delta fieldsSt
    rw [memFields_enc]
    rw [hop]
    show some (Instr.sts2 m ((encM 0x03 m (dp ++ 0#7 ++ j ++ hb ++ x ++ 0#5)).extractLsb' 29 3) ((encM 0x03 m (dp ++ 0#7 ++ j ++ hb ++ x ++ 0#5)).extractLsb' 16 6) ((encM 0x03 m (dp ++ 0#7 ++ j ++ hb ++ x ++ 0#5)).extractLsb' 11 5) ((encM 0x03 m (dp ++ 0#7 ++ j ++ hb ++ x ++ 0#5)).extractLsb' 5 6)) = _
    rw [h0, h1, h2, h3]
  exact ofSt rfl rfl rfl rfl k

theorem Encoding.stx (m : MemOp) (wid : BitVec 3) : Statement (.stx m wid) := fun _ _ => by
  have h0 : (encM 0x04 m (0#29 ++ wid)).extractLsb' 0 3 = wid := ext_lo (ext_lo (ext_all _))
  have hop : (encM 0x04 m (0#29 ++ wid)).extractLsb' 88 8 = 0x04 := ext_hi (ext_hi (ext_hi (ext_hi (ext_hi (ext_hi (ext_hi (ext_hi (ext_hi (ext_all _)))))))))
  have k : fieldsSt (encM 0x04 m (0#29 ++ wid)) = some (.stx m wid) := by
    delta fieldsSt
    rw [memFields_enc]
    rw [hop]
    show some (Instr.stx m ((encM 0x04 m (0#29 ++ wid)).extractLsb' 0 3)) = _
    rw [h0]
  exact ofSt rfl rfl rfl rfl k

theorem Encoding.stn (m : MemOp) (dp : BitVec 3) (nhi : Bool) : Statement (.stn m dp nhi) := fun _ _ => by
  have h0 : (encM 0x05 m (dp ++ 0#28 ++ bit nhi)).extractLsb' 29 3 = dp := ext_lo (ext_hi (ext_hi (ext_all _)))
  have h1 : (encM 0x05 m (dp ++ 0#28 ++ bit nhi)).getLsbD 0 = nhi := get_lo (get_lo (bit_get _))
  have hop : (encM 0x05 m (dp ++ 0#28 ++ bit nhi)).extractLsb' 88 8 = 0x05 := ext_hi (ext_hi (ext_hi (ext_hi (ext_hi (ext_hi (ext_hi (ext_hi (ext_hi (ext_all _)))))))))
  have k : fieldsSt (encM 0x05 m (dp ++ 0#28 ++ bit nhi)) = some (.stn m dp nhi) := by
    delta fieldsSt
    rw [memFields_enc]
    rw [hop]
    show some (Instr.stn m ((encM 0x05 m (dp ++ 0#28 ++ bit nhi)).extractLsb' 29 3) ((encM 0x05 m (dp ++ 0#28 ++ bit nhi)).getLsbD 0)) = _
    rw [h0, h1]
  exact ofSt rfl rfl rfl rfl k

theorem Encoding.stsc (m : MemOp) (dp : BitVec 3) (idx : BitVec 5) : Statement (.stsc m dp idx) := fun _ _ => by
  have h0 : (encM 0x06 m (dp ++ 0#23 ++ idx ++ 0#1)).extractLsb' 29 3 = dp := ext_lo (ext_hi (ext_hi (ext_hi (ext_all _))))
  have h1 : (encM 0x06 m (dp ++ 0#23 ++ idx ++ 0#1)).extractLsb' 1 5 = idx := ext_lo (ext_hi (ext_lo (ext_all _)))
  have hop : (encM 0x06 m (dp ++ 0#23 ++ idx ++ 0#1)).extractLsb' 88 8 = 0x06 := ext_hi (ext_hi (ext_hi (ext_hi (ext_hi (ext_hi (ext_hi (ext_hi (ext_hi (ext_all _)))))))))
  have k : fieldsSt (encM 0x06 m (dp ++ 0#23 ++ idx ++ 0#1)) = some (.stsc m dp idx) := by
    delta fieldsSt
    rw [memFields_enc]
    rw [hop]
    show some (Instr.stsc m ((encM 0x06 m (dp ++ 0#23 ++ idx ++ 0#1)).extractLsb' 29 3) ((encM 0x06 m (dp ++ 0#23 ++ idx ++ 0#1)).extractLsb' 1 5)) = _
    rw [h0, h1]
  exact ofSt rfl rfl rfl rfl k

theorem Encoding.stm (m : MemOp) : Statement (.stm m) := fun _ _ => by
  have hop : (encM 0x07 m 0).extractLsb' 88 8 = 0x07 := ext_hi (ext_hi (ext_hi (ext_hi (ext_hi (ext_hi (ext_hi (ext_hi (ext_hi (ext_all _)))))))))
  have k : fieldsSt (encM 0x07 m 0) = some (.stm m) := by
    delta fieldsSt
    rw [memFields_enc]
    rw [hop]
    show some (Instr.stm m) = _
    rfl
  exact ofSt rfl rfl rfl rfl k

theorem Encoding.amo (m : MemOp) (a : AmoOp) : Statement (.amo m a) := fun _ _ => by
  have hop : (encM 0x08 m a.spec).extractLsb' 88 8 = 0x08 := ext_hi (ext_hi (ext_hi (ext_hi (ext_hi (ext_hi (ext_hi (ext_hi (ext_hi (ext_all _)))))))))
  have k : fieldsSt (encM 0x08 m a.spec) = some (.amo m a) := by
    delta fieldsSt
    rw [memFields_enc]
    rw [hop]
    show some (Instr.amo m (amoFields (encM 0x08 m a.spec))) = _
    rw [amoFields_enc]
  exact ofSt rfl rfl rfl rfl k

theorem Encoding.amof (m : MemOp) (a : AmoOp) : Statement (.amof m a) := fun _ _ => by
  have hop : (encM 0x09 m a.spec).extractLsb' 88 8 = 0x09 := ext_hi (ext_hi (ext_hi (ext_hi (ext_hi (ext_hi (ext_hi (ext_hi (ext_hi (ext_all _)))))))))
  have k : fieldsSt (encM 0x09 m a.spec) = some (.amof m a) := by
    delta fieldsSt
    rw [memFields_enc]
    rw [hop]
    show some (Instr.amof m (amoFields (encM 0x09 m a.spec))) = _
    rw [amoFields_enc]
  exact ofSt rfl rfl rfl rfl k

theorem Encoding.amos (m : MemOp) (dp : BitVec 3) (aop : BitVec 4) (aw : BitVec 3) (scp : Scope) (idx : BitVec 5) : Statement (.amos m dp aop aw scp idx) := fun _ _ => by
  have h0 : (encM 0x0A m (dp ++ aop ++ aw ++ scp.code ++ 0#14 ++ idx ++ 0#1)).extractLsb' 29 3 = dp := ext_lo (ext_hi (ext_hi (ext_hi (ext_hi (ext_hi (ext_hi (ext_all _)))))))
  have h1 : (encM 0x0A m (dp ++ aop ++ aw ++ scp.code ++ 0#14 ++ idx ++ 0#1)).extractLsb' 25 4 = aop := ext_lo (ext_hi (ext_hi (ext_hi (ext_hi (ext_hi (ext_lo (ext_all _)))))))
  have h2 : (encM 0x0A m (dp ++ aop ++ aw ++ scp.code ++ 0#14 ++ idx ++ 0#1)).extractLsb' 22 3 = aw := ext_lo (ext_hi (ext_hi (ext_hi (ext_hi (ext_lo (ext_all _))))))
  have h3 : (encM 0x0A m (dp ++ aop ++ aw ++ scp.code ++ 0#14 ++ idx ++ 0#1)).extractLsb' 20 2 = scp.code := ext_lo (ext_hi (ext_hi (ext_hi (ext_lo (ext_all _)))))
  have h4 : (encM 0x0A m (dp ++ aop ++ aw ++ scp.code ++ 0#14 ++ idx ++ 0#1)).extractLsb' 1 5 = idx := ext_lo (ext_hi (ext_lo (ext_all _)))
  have hop : (encM 0x0A m (dp ++ aop ++ aw ++ scp.code ++ 0#14 ++ idx ++ 0#1)).extractLsb' 88 8 = 0x0A := ext_hi (ext_hi (ext_hi (ext_hi (ext_hi (ext_hi (ext_hi (ext_hi (ext_hi (ext_all _)))))))))
  have k : fieldsSt (encM 0x0A m (dp ++ aop ++ aw ++ scp.code ++ 0#14 ++ idx ++ 0#1)) = some (.amos m dp aop aw scp idx) := by
    delta fieldsSt
    rw [memFields_enc]
    rw [hop]
    show some (Instr.amos m ((encM 0x0A m (dp ++ aop ++ aw ++ scp.code ++ 0#14 ++ idx ++ 0#1)).extractLsb' 29 3) ((encM 0x0A m (dp ++ aop ++ aw ++ scp.code ++ 0#14 ++ idx ++ 0#1)).extractLsb' 25 4) ((encM 0x0A m (dp ++ aop ++ aw ++ scp.code ++ 0#14 ++ idx ++ 0#1)).extractLsb' 22 3) (Scope.ofCode ((encM 0x0A m (dp ++ aop ++ aw ++ scp.code ++ 0#14 ++ idx ++ 0#1)).extractLsb' 20 2)) ((encM 0x0A m (dp ++ aop ++ aw ++ scp.code ++ 0#14 ++ idx ++ 0#1)).extractLsb' 1 5)) = _
    rw [h0, h1, h2, h3, scope_code, h4]
  exact ofSt rfl rfl rfl rfl k

theorem Encoding.cmm (c : CmmOp) : Statement (.cmm c) := fun _ _ => by
  have hop : (encB 0x01 c.path c.part c.rest).extractLsb' 88 8 = 0x01 := ext_hi (ext_hi (ext_hi (ext_all _)))
  have k : fieldsCb (encB 0x01 c.path c.part c.rest) = some (.cmm c) := by
    delta fieldsCb
    dsimp only
    rw [hop]
    show some (Instr.cmm (cmmFields (encB 0x01 c.path c.part c.rest))) = _
    rw [cmmFields_enc]
  exact ofCb rfl rfl rfl rfl rfl k

theorem Encoding.cmmp (c : CmmOp) : Statement (.cmmp c) := fun _ _ => by
  have hop : (encB 0x02 c.path c.part c.rest).extractLsb' 88 8 = 0x02 := ext_hi (ext_hi (ext_hi (ext_all _)))
  have k : fieldsCb (encB 0x02 c.path c.part c.rest) = some (.cmmp c) := by
    delta fieldsCb
    dsimp only
    rw [hop]
    show some (Instr.cmmp (cmmFields (encB 0x02 c.path c.part c.rest))) = _
    rw [cmmFields_enc]
  exact ofCb rfl rfl rfl rfl rfl k

theorem Encoding.czro (p : Path) (q : PartId) (l : BitVec 12) (a : Bool) (b : Bool) : Statement (.czro p q l a b) := fun _ _ => by
  have h0 : (encB 0x03 p q (0#38 ++ l ++ 0#13 ++ bit a ++ bit b ++ 0#14)).extractLsb' 83 5 = p := ext_hi (ext_hi (ext_lo (ext_all _)))
  have h1 : (encB 0x03 p q (0#38 ++ l ++ 0#13 ++ bit a ++ bit b ++ 0#14)).extractLsb' 79 4 = q := ext_hi (ext_lo (ext_all _))
  have h2 : (encB 0x03 p q (0#38 ++ l ++ 0#13 ++ bit a ++ bit b ++ 0#14)).extractLsb' 29 12 = l := ext_lo (ext_hi (ext_hi (ext_hi (ext_hi (ext_lo (ext_all _))))))
  have h3 : (encB 0x03 p q (0#38 ++ l ++ 0#13 ++ bit a ++ bit b ++ 0#14)).getLsbD 15 = a := get_lo (get_hi (get_hi (get_lo (bit_get _))))
  have h4 : (encB 0x03 p q (0#38 ++ l ++ 0#13 ++ bit a ++ bit b ++ 0#14)).getLsbD 14 = b := get_lo (get_hi (get_lo (bit_get _)))
  have hop : (encB 0x03 p q (0#38 ++ l ++ 0#13 ++ bit a ++ bit b ++ 0#14)).extractLsb' 88 8 = 0x03 := ext_hi (ext_hi (ext_hi (ext_all _)))
  have k : fieldsCb (encB 0x03 p q (0#38 ++ l ++ 0#13 ++ bit a ++ bit b ++ 0#14)) = some (.czro p q l a b) := by
    delta fieldsCb
    dsimp only
    rw [hop]
    show some (Instr.czro ((encB 0x03 p q (0#38 ++ l ++ 0#13 ++ bit a ++ bit b ++ 0#14)).extractLsb' 83 5) ((encB 0x03 p q (0#38 ++ l ++ 0#13 ++ bit a ++ bit b ++ 0#14)).extractLsb' 79 4) ((encB 0x03 p q (0#38 ++ l ++ 0#13 ++ bit a ++ bit b ++ 0#14)).extractLsb' 29 12) ((encB 0x03 p q (0#38 ++ l ++ 0#13 ++ bit a ++ bit b ++ 0#14)).getLsbD 15) ((encB 0x03 p q (0#38 ++ l ++ 0#13 ++ bit a ++ bit b ++ 0#14)).getLsbD 14)) = _
    rw [h0, h1, h2, h3, h4]
  exact ofCb rfl rfl rfl rfl rfl k

theorem Encoding.cdrn (c : CdrnOp) : Statement (.cdrn c) := fun _ _ => by
  have hop : (encB 0x04 c.path c.part c.rest).extractLsb' 88 8 = 0x04 := ext_hi (ext_hi (ext_hi (ext_all _)))
  have k : fieldsCb (encB 0x04 c.path c.part c.rest) = some (.cdrn c) := by
    delta fieldsCb
    dsimp only
    rw [hop]
    show some (Instr.cdrn (cdrnFields (encB 0x04 c.path c.part c.rest))) = _
    rw [cdrnFields_enc]
  exact ofCb rfl rfl rfl rfl rfl k

theorem Encoding.cswp (p : Path) (q : PartId) (n : Bool) (w : Bool) : Statement (.cswp p q n w) := fun _ _ => by
  have h0 : (encB 0x05 p q (bit n ++ bit w ++ 0#77)).extractLsb' 83 5 = p := ext_hi (ext_hi (ext_lo (ext_all _)))
  have h1 : (encB 0x05 p q (bit n ++ bit w ++ 0#77)).extractLsb' 79 4 = q := ext_hi (ext_lo (ext_all _))
  have h2 : (encB 0x05 p q (bit n ++ bit w ++ 0#77)).getLsbD 78 = n := get_lo (get_hi (get_hi (bit_get _)))
  have h3 : (encB 0x05 p q (bit n ++ bit w ++ 0#77)).getLsbD 77 = w := get_lo (get_hi (get_lo (bit_get _)))
  have hop : (encB 0x05 p q (bit n ++ bit w ++ 0#77)).extractLsb' 88 8 = 0x05 := ext_hi (ext_hi (ext_hi (ext_all _)))
  have k : fieldsCb (encB 0x05 p q (bit n ++ bit w ++ 0#77)) = some (.cswp p q n w) := by
    delta fieldsCb
    dsimp only
    rw [hop]
    show some (Instr.cswp ((encB 0x05 p q (bit n ++ bit w ++ 0#77)).extractLsb' 83 5) ((encB 0x05 p q (bit n ++ bit w ++ 0#77)).extractLsb' 79 4) ((encB 0x05 p q (bit n ++ bit w ++ 0#77)).getLsbD 78) ((encB 0x05 p q (bit n ++ bit w ++ 0#77)).getLsbD 77)) = _
    rw [h0, h1, h2, h3]
  exact ofCb rfl rfl rfl rfl rfl k

theorem Encoding.ccur (p : Path) (q : PartId) (f : Bool) (c : BitVec 16) : Statement (.ccur p q f c) := fun _ _ => by
  have h0 : (encB 0x06 p q (bit f ++ c ++ 0#62)).extractLsb' 83 5 = p := ext_hi (ext_hi (ext_lo (ext_all _)))
  have h1 : (encB 0x06 p q (bit f ++ c ++ 0#62)).extractLsb' 79 4 = q := ext_hi (ext_lo (ext_all _))
  have h2 : (encB 0x06 p q (bit f ++ c ++ 0#62)).getLsbD 78 = f := get_lo (get_hi (get_hi (bit_get _)))
  have h3 : (encB 0x06 p q (bit f ++ c ++ 0#62)).extractLsb' 62 16 = c := ext_lo (ext_hi (ext_lo (ext_all _)))
  have hop : (encB 0x06 p q (bit f ++ c ++ 0#62)).extractLsb' 88 8 = 0x06 := ext_hi (ext_hi (ext_hi (ext_all _)))
  have k : fieldsCb (encB 0x06 p q (bit f ++ c ++ 0#62)) = some (.ccur p q f c) := by
    delta fieldsCb
    dsimp only
    rw [hop]
    show some (Instr.ccur ((encB 0x06 p q (bit f ++ c ++ 0#62)).extractLsb' 83 5) ((encB 0x06 p q (bit f ++ c ++ 0#62)).extractLsb' 79 4) ((encB 0x06 p q (bit f ++ c ++ 0#62)).getLsbD 78) ((encB 0x06 p q (bit f ++ c ++ 0#62)).extractLsb' 62 16)) = _
    rw [h0, h1, h2, h3]
  exact ofCb rfl rfl rfl rfl rfl k

theorem Encoding.cring (p : Path) (q : PartId) (r : RingCfg) : Statement (.cring p q r) := fun _ _ => by
  have h0 : (encB 0x07 p q (r.bits ++ 0#27)).extractLsb' 83 5 = p := ext_hi (ext_hi (ext_lo (ext_all _)))
  have h1 : (encB 0x07 p q (r.bits ++ 0#27)).extractLsb' 79 4 = q := ext_hi (ext_lo (ext_all _))
  have hop : (encB 0x07 p q (r.bits ++ 0#27)).extractLsb' 88 8 = 0x07 := ext_hi (ext_hi (ext_hi (ext_all _)))
  have k : fieldsCb (encB 0x07 p q (r.bits ++ 0#27)) = some (.cring p q r) := by
    delta fieldsCb
    dsimp only
    rw [hop]
    show some (Instr.cring ((encB 0x07 p q (r.bits ++ 0#27)).extractLsb' 83 5) ((encB 0x07 p q (r.bits ++ 0#27)).extractLsb' 79 4) (ringFields (encB 0x07 p q (r.bits ++ 0#27)))) = _
    rw [h0, h1, ringFields_enc]
  exact ofCb rfl rfl rfl rfl rfl k

theorem Encoding.cwait (p : Path) (q : PartId) (f : FlagIx) : Statement (.cwait p q f) := fun _ _ => by
  have h0 : (encB 0x08 p q (0#67 ++ f)).extractLsb' 83 5 = p := ext_hi (ext_hi (ext_lo (ext_all _)))
  have h1 : (encB 0x08 p q (0#67 ++ f)).extractLsb' 79 4 = q := ext_hi (ext_lo (ext_all _))
  have h2 : (encB 0x08 p q (0#67 ++ f)).extractLsb' 0 12 = f := ext_lo (ext_lo (ext_all _))
  have hop : (encB 0x08 p q (0#67 ++ f)).extractLsb' 88 8 = 0x08 := ext_hi (ext_hi (ext_hi (ext_all _)))
  have k : fieldsCb (encB 0x08 p q (0#67 ++ f)) = some (.cwait p q f) := by
    delta fieldsCb
    dsimp only
    rw [hop]
    show some (Instr.cwait ((encB 0x08 p q (0#67 ++ f)).extractLsb' 83 5) ((encB 0x08 p q (0#67 ++ f)).extractLsb' 79 4) ((encB 0x08 p q (0#67 ++ f)).extractLsb' 0 12)) = _
    rw [h0, h1, h2]
  exact ofCb rfl rfl rfl rfl rfl k

theorem Encoding.csig (p : Path) (q : PartId) (f : FlagIx) : Statement (.csig p q f) := fun _ _ => by
  have h0 : (encB 0x09 p q (0#67 ++ f)).extractLsb' 83 5 = p := ext_hi (ext_hi (ext_lo (ext_all _)))
  have h1 : (encB 0x09 p q (0#67 ++ f)).extractLsb' 79 4 = q := ext_hi (ext_lo (ext_all _))
  have h2 : (encB 0x09 p q (0#67 ++ f)).extractLsb' 0 12 = f := ext_lo (ext_lo (ext_all _))
  have hop : (encB 0x09 p q (0#67 ++ f)).extractLsb' 88 8 = 0x09 := ext_hi (ext_hi (ext_hi (ext_all _)))
  have k : fieldsCb (encB 0x09 p q (0#67 ++ f)) = some (.csig p q f) := by
    delta fieldsCb
    dsimp only
    rw [hop]
    show some (Instr.csig ((encB 0x09 p q (0#67 ++ f)).extractLsb' 83 5) ((encB 0x09 p q (0#67 ++ f)).extractLsb' 79 4) ((encB 0x09 p q (0#67 ++ f)).extractLsb' 0 12)) = _
    rw [h0, h1, h2]
  exact ofCb rfl rfl rfl rfl rfl k

theorem Encoding.crail (p : Path) (q : PartId) (hi : Bool) : Statement (.crail p q hi) := fun _ _ => by
  have h0 : (encB 0x0A p q (bit hi ++ 0#78)).extractLsb' 83 5 = p := ext_hi (ext_hi (ext_lo (ext_all _)))
  have h1 : (encB 0x0A p q (bit hi ++ 0#78)).extractLsb' 79 4 = q := ext_hi (ext_lo (ext_all _))
  have h2 : (encB 0x0A p q (bit hi ++ 0#78)).getLsbD 78 = hi := get_lo (get_hi (bit_get _))
  have hop : (encB 0x0A p q (bit hi ++ 0#78)).extractLsb' 88 8 = 0x0A := ext_hi (ext_hi (ext_hi (ext_all _)))
  have k : fieldsCb (encB 0x0A p q (bit hi ++ 0#78)) = some (.crail p q hi) := by
    delta fieldsCb
    dsimp only
    rw [hop]
    show some (Instr.crail ((encB 0x0A p q (bit hi ++ 0#78)).extractLsb' 83 5) ((encB 0x0A p q (bit hi ++ 0#78)).extractLsb' 79 4) ((encB 0x0A p q (bit hi ++ 0#78)).getLsbD 78)) = _
    rw [h0, h1, h2]
  exact ofCb rfl rfl rfl rfl rfl k

theorem Encoding.cpart (c : CpartOp) : Statement (.cpart c) := fun _ _ => by
  have hop : (encB 0x10 c.path c.part c.rest).extractLsb' 88 8 = 0x10 := ext_hi (ext_hi (ext_hi (ext_all _)))
  have k : fieldsCb (encB 0x10 c.path c.part c.rest) = some (.cpart c) := by
    delta fieldsCb
    dsimp only
    rw [hop]
    show some (Instr.cpart (cpartFields (encB 0x10 c.path c.part c.rest))) = _
    rw [cpartFields_enc]
  exact ofCb rfl rfl rfl rfl rfl k

theorem Encoding.cjoin (p : Path) (q : PartId) (s : BitVec 2) (a : PartId) (b : PartId) (c : PartId) (d : PartId) (dsc : Bool) (f : FlagIx) : Statement (.cjoin p q s a b c d dsc f) := fun _ _ => by
  have h0 : (encB 0x11 p q (s ++ a ++ b ++ c ++ d ++ 0#48 ++ bit dsc ++ f)).extractLsb' 83 5 = p := ext_hi (ext_hi (ext_lo (ext_all _)))
  have h1 : (encB 0x11 p q (s ++ a ++ b ++ c ++ d ++ 0#48 ++ bit dsc ++ f)).extractLsb' 79 4 = q := ext_hi (ext_lo (ext_all _))
  have h2 : (encB 0x11 p q (s ++ a ++ b ++ c ++ d ++ 0#48 ++ bit dsc ++ f)).extractLsb' 77 2 = s := ext_lo (ext_hi (ext_hi (ext_hi (ext_hi (ext_hi (ext_hi (ext_hi (ext_all _))))))))
  have h3 : (encB 0x11 p q (s ++ a ++ b ++ c ++ d ++ 0#48 ++ bit dsc ++ f)).extractLsb' 73 4 = a := ext_lo (ext_hi (ext_hi (ext_hi (ext_hi (ext_hi (ext_hi (ext_lo (ext_all _))))))))
  have h4 : (encB 0x11 p q (s ++ a ++ b ++ c ++ d ++ 0#48 ++ bit dsc ++ f)).extractLsb' 69 4 = b := ext_lo (ext_hi (ext_hi (ext_hi (ext_hi (ext_hi (ext_lo (ext_all _)))))))
  have h5 : (encB 0x11 p q (s ++ a ++ b ++ c ++ d ++ 0#48 ++ bit dsc ++ f)).extractLsb' 65 4 = c := ext_lo (ext_hi (ext_hi (ext_hi (ext_hi (ext_lo (ext_all _))))))
  have h6 : (encB 0x11 p q (s ++ a ++ b ++ c ++ d ++ 0#48 ++ bit dsc ++ f)).extractLsb' 61 4 = d := ext_lo (ext_hi (ext_hi (ext_hi (ext_lo (ext_all _)))))
  have h7 : (encB 0x11 p q (s ++ a ++ b ++ c ++ d ++ 0#48 ++ bit dsc ++ f)).getLsbD 12 = dsc := get_lo (get_hi (get_lo (bit_get _)))
  have h8 : (encB 0x11 p q (s ++ a ++ b ++ c ++ d ++ 0#48 ++ bit dsc ++ f)).extractLsb' 0 12 = f := ext_lo (ext_lo (ext_all _))
  have hop : (encB 0x11 p q (s ++ a ++ b ++ c ++ d ++ 0#48 ++ bit dsc ++ f)).extractLsb' 88 8 = 0x11 := ext_hi (ext_hi (ext_hi (ext_all _)))
  have k : fieldsCb (encB 0x11 p q (s ++ a ++ b ++ c ++ d ++ 0#48 ++ bit dsc ++ f)) = some (.cjoin p q s a b c d dsc f) := by
    delta fieldsCb
    dsimp only
    rw [hop]
    show some (Instr.cjoin ((encB 0x11 p q (s ++ a ++ b ++ c ++ d ++ 0#48 ++ bit dsc ++ f)).extractLsb' 83 5) ((encB 0x11 p q (s ++ a ++ b ++ c ++ d ++ 0#48 ++ bit dsc ++ f)).extractLsb' 79 4) ((encB 0x11 p q (s ++ a ++ b ++ c ++ d ++ 0#48 ++ bit dsc ++ f)).extractLsb' 77 2) ((encB 0x11 p q (s ++ a ++ b ++ c ++ d ++ 0#48 ++ bit dsc ++ f)).extractLsb' 73 4) ((encB 0x11 p q (s ++ a ++ b ++ c ++ d ++ 0#48 ++ bit dsc ++ f)).extractLsb' 69 4) ((encB 0x11 p q (s ++ a ++ b ++ c ++ d ++ 0#48 ++ bit dsc ++ f)).extractLsb' 65 4) ((encB 0x11 p q (s ++ a ++ b ++ c ++ d ++ 0#48 ++ bit dsc ++ f)).extractLsb' 61 4) ((encB 0x11 p q (s ++ a ++ b ++ c ++ d ++ 0#48 ++ bit dsc ++ f)).getLsbD 12) ((encB 0x11 p q (s ++ a ++ b ++ c ++ d ++ 0#48 ++ bit dsc ++ f)).extractLsb' 0 12)) = _
    rw [h0, h1, h2, h3, h4, h5, h6, h7, h8]
  exact ofCb rfl rfl rfl rfl rfl k

theorem Encoding.csplit (p : Path) (q : PartId) (dsc : Bool) (f : FlagIx) : Statement (.csplit p q dsc f) := fun _ _ => by
  have h0 : (encB 0x12 p q (0#66 ++ bit dsc ++ f)).extractLsb' 83 5 = p := ext_hi (ext_hi (ext_lo (ext_all _)))
  have h1 : (encB 0x12 p q (0#66 ++ bit dsc ++ f)).extractLsb' 79 4 = q := ext_hi (ext_lo (ext_all _))
  have h2 : (encB 0x12 p q (0#66 ++ bit dsc ++ f)).getLsbD 12 = dsc := get_lo (get_hi (get_lo (bit_get _)))
  have h3 : (encB 0x12 p q (0#66 ++ bit dsc ++ f)).extractLsb' 0 12 = f := ext_lo (ext_lo (ext_all _))
  have hop : (encB 0x12 p q (0#66 ++ bit dsc ++ f)).extractLsb' 88 8 = 0x12 := ext_hi (ext_hi (ext_hi (ext_all _)))
  have k : fieldsCb (encB 0x12 p q (0#66 ++ bit dsc ++ f)) = some (.csplit p q dsc f) := by
    delta fieldsCb
    dsimp only
    rw [hop]
    show some (Instr.csplit ((encB 0x12 p q (0#66 ++ bit dsc ++ f)).extractLsb' 83 5) ((encB 0x12 p q (0#66 ++ bit dsc ++ f)).extractLsb' 79 4) ((encB 0x12 p q (0#66 ++ bit dsc ++ f)).getLsbD 12) ((encB 0x12 p q (0#66 ++ bit dsc ++ f)).extractLsb' 0 12)) = _
    rw [h0, h1, h2, h3]
  exact ofCb rfl rfl rfl rfl rfl k

theorem Encoding.cfree (p : Path) (q : PartId) (dsc : Bool) (f : FlagIx) : Statement (.cfree p q dsc f) := fun _ _ => by
  have h0 : (encB 0x13 p q (0#66 ++ bit dsc ++ f)).extractLsb' 83 5 = p := ext_hi (ext_hi (ext_lo (ext_all _)))
  have h1 : (encB 0x13 p q (0#66 ++ bit dsc ++ f)).extractLsb' 79 4 = q := ext_hi (ext_lo (ext_all _))
  have h2 : (encB 0x13 p q (0#66 ++ bit dsc ++ f)).getLsbD 12 = dsc := get_lo (get_hi (get_lo (bit_get _)))
  have h3 : (encB 0x13 p q (0#66 ++ bit dsc ++ f)).extractLsb' 0 12 = f := ext_lo (ext_lo (ext_all _))
  have hop : (encB 0x13 p q (0#66 ++ bit dsc ++ f)).extractLsb' 88 8 = 0x13 := ext_hi (ext_hi (ext_hi (ext_all _)))
  have k : fieldsCb (encB 0x13 p q (0#66 ++ bit dsc ++ f)) = some (.cfree p q dsc f) := by
    delta fieldsCb
    dsimp only
    rw [hop]
    show some (Instr.cfree ((encB 0x13 p q (0#66 ++ bit dsc ++ f)).extractLsb' 83 5) ((encB 0x13 p q (0#66 ++ bit dsc ++ f)).extractLsb' 79 4) ((encB 0x13 p q (0#66 ++ bit dsc ++ f)).getLsbD 12) ((encB 0x13 p q (0#66 ++ bit dsc ++ f)).extractLsb' 0 12)) = _
    rw [h0, h1, h2, h3]
  exact ofCb rfl rfl rfl rfl rfl k

theorem Encoding.csusp (p : Path) (q : PartId) (f : FlagIx) : Statement (.csusp p q f) := fun _ _ => by
  have h0 : (encB 0x14 p q (0#67 ++ f)).extractLsb' 83 5 = p := ext_hi (ext_hi (ext_lo (ext_all _)))
  have h1 : (encB 0x14 p q (0#67 ++ f)).extractLsb' 79 4 = q := ext_hi (ext_lo (ext_all _))
  have h2 : (encB 0x14 p q (0#67 ++ f)).extractLsb' 0 12 = f := ext_lo (ext_lo (ext_all _))
  have hop : (encB 0x14 p q (0#67 ++ f)).extractLsb' 88 8 = 0x14 := ext_hi (ext_hi (ext_hi (ext_all _)))
  have k : fieldsCb (encB 0x14 p q (0#67 ++ f)) = some (.csusp p q f) := by
    delta fieldsCb
    dsimp only
    rw [hop]
    show some (Instr.csusp ((encB 0x14 p q (0#67 ++ f)).extractLsb' 83 5) ((encB 0x14 p q (0#67 ++ f)).extractLsb' 79 4) ((encB 0x14 p q (0#67 ++ f)).extractLsb' 0 12)) = _
    rw [h0, h1, h2]
  exact ofCb rfl rfl rfl rfl rfl k

theorem Encoding.cresm (p : Path) (q : PartId) : Statement (.cresm p q) := fun _ _ => by
  have h0 : (encB 0x15 p q 0).extractLsb' 83 5 = p := ext_hi (ext_hi (ext_lo (ext_all _)))
  have h1 : (encB 0x15 p q 0).extractLsb' 79 4 = q := ext_hi (ext_lo (ext_all _))
  have hop : (encB 0x15 p q 0).extractLsb' 88 8 = 0x15 := ext_hi (ext_hi (ext_hi (ext_all _)))
  have k : fieldsCb (encB 0x15 p q 0) = some (.cresm p q) := by
    delta fieldsCb
    dsimp only
    rw [hop]
    show some (Instr.cresm ((encB 0x15 p q 0).extractLsb' 83 5) ((encB 0x15 p q 0).extractLsb' 79 4)) = _
    rw [h0, h1]
  exact ofCb rfl rfl rfl rfl rfl k

theorem Encoding.cqry (p : Path) (q : PartId) (r : BitVec 3) (a : BitVec 24) (now : Bool) (f : FlagIx) : Statement (.cqry p q r a now f) := fun _ _ => by
  have h0 : (encB 0x16 p q (r ++ a ++ bit now ++ 0#39 ++ f)).extractLsb' 83 5 = p := ext_hi (ext_hi (ext_lo (ext_all _)))
  have h1 : (encB 0x16 p q (r ++ a ++ bit now ++ 0#39 ++ f)).extractLsb' 79 4 = q := ext_hi (ext_lo (ext_all _))
  have h2 : (encB 0x16 p q (r ++ a ++ bit now ++ 0#39 ++ f)).extractLsb' 76 3 = r := ext_lo (ext_hi (ext_hi (ext_hi (ext_hi (ext_all _)))))
  have h3 : (encB 0x16 p q (r ++ a ++ bit now ++ 0#39 ++ f)).extractLsb' 52 24 = a := ext_lo (ext_hi (ext_hi (ext_hi (ext_lo (ext_all _)))))
  have h4 : (encB 0x16 p q (r ++ a ++ bit now ++ 0#39 ++ f)).getLsbD 51 = now := get_lo (get_hi (get_hi (get_lo (bit_get _))))
  have h5 : (encB 0x16 p q (r ++ a ++ bit now ++ 0#39 ++ f)).extractLsb' 0 12 = f := ext_lo (ext_lo (ext_all _))
  have hop : (encB 0x16 p q (r ++ a ++ bit now ++ 0#39 ++ f)).extractLsb' 88 8 = 0x16 := ext_hi (ext_hi (ext_hi (ext_all _)))
  have k : fieldsCb (encB 0x16 p q (r ++ a ++ bit now ++ 0#39 ++ f)) = some (.cqry p q r a now f) := by
    delta fieldsCb
    dsimp only
    rw [hop]
    show some (Instr.cqry ((encB 0x16 p q (r ++ a ++ bit now ++ 0#39 ++ f)).extractLsb' 83 5) ((encB 0x16 p q (r ++ a ++ bit now ++ 0#39 ++ f)).extractLsb' 79 4) ((encB 0x16 p q (r ++ a ++ bit now ++ 0#39 ++ f)).extractLsb' 76 3) ((encB 0x16 p q (r ++ a ++ bit now ++ 0#39 ++ f)).extractLsb' 52 24) ((encB 0x16 p q (r ++ a ++ bit now ++ 0#39 ++ f)).getLsbD 51) ((encB 0x16 p q (r ++ a ++ bit now ++ 0#39 ++ f)).extractLsb' 0 12)) = _
    rw [h0, h1, h2, h3, h4, h5]
  exact ofCb rfl rfl rfl rfl rfl k

theorem Encoding.cpy (c : CpOp) (cadd : Bool) : Statement (.cpy c cadd) := fun _ _ => by
  have h0 : (encP 0x01 c (bit cadd ++ 0#11)).getLsbD 11 = cadd := get_lo (get_hi (bit_get _))
  have hop : (encP 0x01 c (bit cadd ++ 0#11)).extractLsb' 88 8 = 0x01 := ext_hi (ext_hi (ext_hi (ext_hi (ext_hi (ext_hi (ext_hi (ext_hi (ext_hi (ext_hi (ext_hi (ext_hi (ext_hi (ext_all _)))))))))))))
  have k : fieldsCp (encP 0x01 c (bit cadd ++ 0#11)) = some (.cpy c cadd) := by
    delta fieldsCp
    rw [cpFields_enc]
    rw [hop]
    show some (Instr.cpy c ((encP 0x01 c (bit cadd ++ 0#11)).getLsbD 11)) = _
    rw [h0]
  exact ofCp rfl rfl rfl rfl rfl rfl k

theorem Encoding.cpys (c : CpOp) (cadd : Bool) (out : Bool) (str : BitVec 2) : Statement (.cpys c cadd out str) := fun _ _ => by
  have h0 : (encP 0x02 c (bit cadd ++ 0#8 ++ bit out ++ str)).getLsbD 11 = cadd := get_lo (get_hi (get_hi (get_hi (bit_get _))))
  have h1 : (encP 0x02 c (bit cadd ++ 0#8 ++ bit out ++ str)).getLsbD 2 = out := get_lo (get_hi (get_lo (bit_get _)))
  have h2 : (encP 0x02 c (bit cadd ++ 0#8 ++ bit out ++ str)).extractLsb' 0 2 = str := ext_lo (ext_lo (ext_all _))
  have hop : (encP 0x02 c (bit cadd ++ 0#8 ++ bit out ++ str)).extractLsb' 88 8 = 0x02 := ext_hi (ext_hi (ext_hi (ext_hi (ext_hi (ext_hi (ext_hi (ext_hi (ext_hi (ext_hi (ext_hi (ext_hi (ext_hi (ext_all _)))))))))))))
  have k : fieldsCp (encP 0x02 c (bit cadd ++ 0#8 ++ bit out ++ str)) = some (.cpys c cadd out str) := by
    delta fieldsCp
    rw [cpFields_enc]
    rw [hop]
    show some (Instr.cpys c ((encP 0x02 c (bit cadd ++ 0#8 ++ bit out ++ str)).getLsbD 11) ((encP 0x02 c (bit cadd ++ 0#8 ++ bit out ++ str)).getLsbD 2) ((encP 0x02 c (bit cadd ++ 0#8 ++ bit out ++ str)).extractLsb' 0 2)) = _
    rw [h0, h1, h2]
  exact ofCp rfl rfl rfl rfl rfl rfl k

theorem Encoding.cpyw (c : CpOp) (cadd : Bool) (wlay : BitVec 4) (wn : Bool) (wp : PartId) : Statement (.cpyw c cadd wlay wn wp) := fun _ _ => by
  have h0 : (encP 0x03 c (bit cadd ++ 0#2 ++ wlay ++ bit wn ++ wp)).getLsbD 11 = cadd := get_lo (get_hi (get_hi (get_hi (get_hi (bit_get _)))))
  have h1 : (encP 0x03 c (bit cadd ++ 0#2 ++ wlay ++ bit wn ++ wp)).extractLsb' 5 4 = wlay := ext_lo (ext_hi (ext_hi (ext_lo (ext_all _))))
  have h2 : (encP 0x03 c (bit cadd ++ 0#2 ++ wlay ++ bit wn ++ wp)).getLsbD 4 = wn := get_lo (get_hi (get_lo (bit_get _)))
  have h3 : (encP 0x03 c (bit cadd ++ 0#2 ++ wlay ++ bit wn ++ wp)).extractLsb' 0 4 = wp := ext_lo (ext_lo (ext_all _))
  have hop : (encP 0x03 c (bit cadd ++ 0#2 ++ wlay ++ bit wn ++ wp)).extractLsb' 88 8 = 0x03 := ext_hi (ext_hi (ext_hi (ext_hi (ext_hi (ext_hi (ext_hi (ext_hi (ext_hi (ext_hi (ext_hi (ext_hi (ext_hi (ext_all _)))))))))))))
  have k : fieldsCp (encP 0x03 c (bit cadd ++ 0#2 ++ wlay ++ bit wn ++ wp)) = some (.cpyw c cadd wlay wn wp) := by
    delta fieldsCp
    rw [cpFields_enc]
    rw [hop]
    show some (Instr.cpyw c ((encP 0x03 c (bit cadd ++ 0#2 ++ wlay ++ bit wn ++ wp)).getLsbD 11) ((encP 0x03 c (bit cadd ++ 0#2 ++ wlay ++ bit wn ++ wp)).extractLsb' 5 4) ((encP 0x03 c (bit cadd ++ 0#2 ++ wlay ++ bit wn ++ wp)).getLsbD 4) ((encP 0x03 c (bit cadd ++ 0#2 ++ wlay ++ bit wn ++ wp)).extractLsb' 0 4)) = _
    rw [h0, h1, h2, h3]
  exact ofCp rfl rfl rfl rfl rfl rfl k

theorem Encoding.cpyr (c : CpOp) (cadd : Bool) (r : BitVec 3) (q : PartId) : Statement (.cpyr c cadd r q) := fun _ _ => by
  have h0 : (encP 0x04 c (bit cadd ++ 0#4 ++ r ++ q)).getLsbD 11 = cadd := get_lo (get_hi (get_hi (get_hi (bit_get _))))
  have h1 : (encP 0x04 c (bit cadd ++ 0#4 ++ r ++ q)).extractLsb' 4 3 = r := ext_lo (ext_hi (ext_lo (ext_all _)))
  have h2 : (encP 0x04 c (bit cadd ++ 0#4 ++ r ++ q)).extractLsb' 0 4 = q := ext_lo (ext_lo (ext_all _))
  have hop : (encP 0x04 c (bit cadd ++ 0#4 ++ r ++ q)).extractLsb' 88 8 = 0x04 := ext_hi (ext_hi (ext_hi (ext_hi (ext_hi (ext_hi (ext_hi (ext_hi (ext_hi (ext_hi (ext_hi (ext_hi (ext_hi (ext_all _)))))))))))))
  have k : fieldsCp (encP 0x04 c (bit cadd ++ 0#4 ++ r ++ q)) = some (.cpyr c cadd r q) := by
    delta fieldsCp
    rw [cpFields_enc]
    rw [hop]
    show some (Instr.cpyr c ((encP 0x04 c (bit cadd ++ 0#4 ++ r ++ q)).getLsbD 11) ((encP 0x04 c (bit cadd ++ 0#4 ++ r ++ q)).extractLsb' 4 3) ((encP 0x04 c (bit cadd ++ 0#4 ++ r ++ q)).extractLsb' 0 4)) = _
    rw [h0, h1, h2]
  exact ofCp rfl rfl rfl rfl rfl rfl k

theorem Encoding.cpdrn (p : Path) (ch : BitVec 4) (f : FlagIx) : Statement (.cpdrn p ch f) := fun _ _ => by
  have hop : (encP 0x05 (CpOp.bare p ch 0 f) 0).extractLsb' 88 8 = 0x05 := ext_hi (ext_hi (ext_hi (ext_hi (ext_hi (ext_hi (ext_hi (ext_hi (ext_hi (ext_hi (ext_hi (ext_hi (ext_hi (ext_all _)))))))))))))
  have k : fieldsCp (encP 0x05 (CpOp.bare p ch 0 f) 0) = some (.cpdrn p ch f) := by
    delta fieldsCp
    rw [cpFields_enc]
    rw [hop]
    show some (Instr.cpdrn p ch f) = _
    rfl
  exact ofCp rfl rfl rfl rfl rfl rfl k

theorem Encoding.cprd (p : Path) (ch : BitVec 4) (dx : XReg) (f : FlagIx) : Statement (.cprd p ch dx f) := fun _ _ => by
  have hop : (encP 0x06 (CpOp.bare p ch dx f) 0).extractLsb' 88 8 = 0x06 := ext_hi (ext_hi (ext_hi (ext_hi (ext_hi (ext_hi (ext_hi (ext_hi (ext_hi (ext_hi (ext_hi (ext_hi (ext_hi (ext_all _)))))))))))))
  have k : fieldsCp (encP 0x06 (CpOp.bare p ch dx f) 0) = some (.cprd p ch dx f) := by
    delta fieldsCp
    rw [cpFields_enc]
    rw [hop]
    show some (Instr.cprd p ch dx f) = _
    rfl
  exact ofCp rfl rfl rfl rfl rfl rfl k

theorem Encoding.cpub (p : Path) (ch : BitVec 4) (s : BitVec 2) (f : FlagIx) : Statement (.cpub p ch s f) := fun _ _ => by
  have h0 : (encP 0x07 (CpOp.bare p ch 0 f) (0#10 ++ s)).extractLsb' 0 2 = s := ext_lo (ext_lo (ext_all _))
  have hop : (encP 0x07 (CpOp.bare p ch 0 f) (0#10 ++ s)).extractLsb' 88 8 = 0x07 := ext_hi (ext_hi (ext_hi (ext_hi (ext_hi (ext_hi (ext_hi (ext_hi (ext_hi (ext_hi (ext_hi (ext_hi (ext_hi (ext_all _)))))))))))))
  have k : fieldsCp (encP 0x07 (CpOp.bare p ch 0 f) (0#10 ++ s)) = some (.cpub p ch s f) := by
    delta fieldsCp
    rw [cpFields_enc]
    rw [hop]
    show some (Instr.cpub p ch ((encP 0x07 (CpOp.bare p ch 0 f) (0#10 ++ s)).extractLsb' 0 2) f) = _
    rw [h0]
  exact ofCp rfl rfl rfl rfl rfl rfl k

theorem Encoding.fset (p : Path) (f : FlagIx) (s : Bool) : Statement (.fset p f s) := fun _ _ => by
  have h0 : (encY 0x01 p (f ++ 0#6 ++ bit s)).extractLsb' 19 5 = p := ext_hi (ext_lo (ext_all _))
  have h1 : (encY 0x01 p (f ++ 0#6 ++ bit s)).extractLsb' 7 12 = f := ext_lo (ext_hi (ext_hi (ext_all _)))
  have h2 : (encY 0x01 p (f ++ 0#6 ++ bit s)).getLsbD 0 = s := get_lo (get_lo (bit_get _))
  have hop : (encY 0x01 p (f ++ 0#6 ++ bit s)).extractLsb' 24 8 = 0x01 := ext_hi (ext_hi (ext_all _))
  have k : fieldsSy (encY 0x01 p (f ++ 0#6 ++ bit s)) = some (.fset p f s) := by
    delta fieldsSy
    dsimp only
    rw [hop]
    show some (Instr.fset ((encY 0x01 p (f ++ 0#6 ++ bit s)).extractLsb' 19 5) ((encY 0x01 p (f ++ 0#6 ++ bit s)).extractLsb' 7 12) ((encY 0x01 p (f ++ 0#6 ++ bit s)).getLsbD 0)) = _
    rw [h0, h1, h2]
  exact ofSy rfl rfl rfl rfl rfl rfl rfl k

theorem Encoding.fclr (p : Path) (f : FlagIx) : Statement (.fclr p f) := fun _ _ => by
  have h0 : (encY 0x02 p (f ++ 0#7)).extractLsb' 19 5 = p := ext_hi (ext_lo (ext_all _))
  have h1 : (encY 0x02 p (f ++ 0#7)).extractLsb' 7 12 = f := ext_lo (ext_hi (ext_all _))
  have hop : (encY 0x02 p (f ++ 0#7)).extractLsb' 24 8 = 0x02 := ext_hi (ext_hi (ext_all _))
  have k : fieldsSy (encY 0x02 p (f ++ 0#7)) = some (.fclr p f) := by
    delta fieldsSy
    dsimp only
    rw [hop]
    show some (Instr.fclr ((encY 0x02 p (f ++ 0#7)).extractLsb' 19 5) ((encY 0x02 p (f ++ 0#7)).extractLsb' 7 12)) = _
    rw [h0, h1]
  exact ofSy rfl rfl rfl rfl rfl rfl rfl k

theorem Encoding.fwait (p : Path) (f : FlagIx) : Statement (.fwait p f) := fun _ _ => by
  have h0 : (encY 0x03 p (f ++ 0#7)).getLsbD 0 = false := get_lo (get_lo ((by decide)))
  have h1 : (encY 0x03 p (f ++ 0#7)).extractLsb' 19 5 = p := ext_hi (ext_lo (ext_all _))
  have h2 : (encY 0x03 p (f ++ 0#7)).extractLsb' 7 12 = f := ext_lo (ext_hi (ext_all _))
  have hop : (encY 0x03 p (f ++ 0#7)).extractLsb' 24 8 = 0x03 := ext_hi (ext_hi (ext_all _))
  have k : fieldsSy (encY 0x03 p (f ++ 0#7)) = some (.fwait p f) := by
    delta fieldsSy
    dsimp only
    rw [hop]
    show some (if ((encY 0x03 p (f ++ 0#7)).getLsbD 0) then Instr.fwaitGe ((encY 0x03 p (f ++ 0#7)).extractLsb' 19 5) ((encY 0x03 p (f ++ 0#7)).extractLsb' 7 12) ((encY 0x03 p (f ++ 0#7)).extractLsb' 1 6) else Instr.fwait ((encY 0x03 p (f ++ 0#7)).extractLsb' 19 5) ((encY 0x03 p (f ++ 0#7)).extractLsb' 7 12)) = _
    rw [h0, h1, h2]
    rfl
  exact ofSy rfl rfl rfl rfl rfl rfl rfl k

theorem Encoding.fwaitGe (p : Path) (f : FlagIx) (x : XReg) : Statement (.fwaitGe p f x) := fun _ _ => by
  have h0 : (encY 0x03 p (f ++ x ++ 1#1)).getLsbD 0 = true := get_lo (get_lo ((by decide)))
  have h1 : (encY 0x03 p (f ++ x ++ 1#1)).extractLsb' 19 5 = p := ext_hi (ext_lo (ext_all _))
  have h2 : (encY 0x03 p (f ++ x ++ 1#1)).extractLsb' 7 12 = f := ext_lo (ext_hi (ext_hi (ext_all _)))
  have h3 : (encY 0x03 p (f ++ x ++ 1#1)).extractLsb' 1 6 = x := ext_lo (ext_hi (ext_lo (ext_all _)))
  have hop : (encY 0x03 p (f ++ x ++ 1#1)).extractLsb' 24 8 = 0x03 := ext_hi (ext_hi (ext_all _))
  have k : fieldsSy (encY 0x03 p (f ++ x ++ 1#1)) = some (.fwaitGe p f x) := by
    delta fieldsSy
    dsimp only
    rw [hop]
    show some (if ((encY 0x03 p (f ++ x ++ 1#1)).getLsbD 0) then Instr.fwaitGe ((encY 0x03 p (f ++ x ++ 1#1)).extractLsb' 19 5) ((encY 0x03 p (f ++ x ++ 1#1)).extractLsb' 7 12) ((encY 0x03 p (f ++ x ++ 1#1)).extractLsb' 1 6) else Instr.fwait ((encY 0x03 p (f ++ x ++ 1#1)).extractLsb' 19 5) ((encY 0x03 p (f ++ x ++ 1#1)).extractLsb' 7 12)) = _
    rw [h0, h1, h2, h3]
    rfl
  exact ofSy rfl rfl rfl rfl rfl rfl rfl k

theorem Encoding.fwany (p : Path) (f : FlagIx) (x : XReg) : Statement (.fwany p f x) := fun _ _ => by
  have h0 : (encY 0x04 p (f ++ x ++ 0#1)).extractLsb' 19 5 = p := ext_hi (ext_lo (ext_all _))
  have h1 : (encY 0x04 p (f ++ x ++ 0#1)).extractLsb' 7 12 = f := ext_lo (ext_hi (ext_hi (ext_all _)))
  have h2 : (encY 0x04 p (f ++ x ++ 0#1)).extractLsb' 1 6 = x := ext_lo (ext_hi (ext_lo (ext_all _)))
  have hop : (encY 0x04 p (f ++ x ++ 0#1)).extractLsb' 24 8 = 0x04 := ext_hi (ext_hi (ext_all _))
  have k : fieldsSy (encY 0x04 p (f ++ x ++ 0#1)) = some (.fwany p f x) := by
    delta fieldsSy
    dsimp only
    rw [hop]
    show some (Instr.fwany ((encY 0x04 p (f ++ x ++ 0#1)).extractLsb' 19 5) ((encY 0x04 p (f ++ x ++ 0#1)).extractLsb' 7 12) ((encY 0x04 p (f ++ x ++ 0#1)).extractLsb' 1 6)) = _
    rw [h0, h1, h2]
  exact ofSy rfl rfl rfl rfl rfl rfl rfl k

theorem Encoding.faddc (p : Path) (f : FlagIx) (x : XReg) (s : Bool) : Statement (.faddc p f x s) := fun _ _ => by
  have h0 : (encY 0x05 p (f ++ x ++ bit s)).extractLsb' 19 5 = p := ext_hi (ext_lo (ext_all _))
  have h1 : (encY 0x05 p (f ++ x ++ bit s)).extractLsb' 7 12 = f := ext_lo (ext_hi (ext_hi (ext_all _)))
  have h2 : (encY 0x05 p (f ++ x ++ bit s)).extractLsb' 1 6 = x := ext_lo (ext_hi (ext_lo (ext_all _)))
  have h3 : (encY 0x05 p (f ++ x ++ bit s)).getLsbD 0 = s := get_lo (get_lo (bit_get _))
  have hop : (encY 0x05 p (f ++ x ++ bit s)).extractLsb' 24 8 = 0x05 := ext_hi (ext_hi (ext_all _))
  have k : fieldsSy (encY 0x05 p (f ++ x ++ bit s)) = some (.faddc p f x s) := by
    delta fieldsSy
    dsimp only
    rw [hop]
    show some (Instr.faddc ((encY 0x05 p (f ++ x ++ bit s)).extractLsb' 19 5) ((encY 0x05 p (f ++ x ++ bit s)).extractLsb' 7 12) ((encY 0x05 p (f ++ x ++ bit s)).extractLsb' 1 6) ((encY 0x05 p (f ++ x ++ bit s)).getLsbD 0)) = _
    rw [h0, h1, h2, h3]
  exact ofSy rfl rfl rfl rfl rfl rfl rfl k

theorem Encoding.fwr (p : Path) (f : FlagIx) (x : XReg) (s : Bool) : Statement (.fwr p f x s) := fun _ _ => by
  have h0 : (encY 0x06 p (f ++ x ++ bit s)).extractLsb' 19 5 = p := ext_hi (ext_lo (ext_all _))
  have h1 : (encY 0x06 p (f ++ x ++ bit s)).extractLsb' 7 12 = f := ext_lo (ext_hi (ext_hi (ext_all _)))
  have h2 : (encY 0x06 p (f ++ x ++ bit s)).extractLsb' 1 6 = x := ext_lo (ext_hi (ext_lo (ext_all _)))
  have h3 : (encY 0x06 p (f ++ x ++ bit s)).getLsbD 0 = s := get_lo (get_lo (bit_get _))
  have hop : (encY 0x06 p (f ++ x ++ bit s)).extractLsb' 24 8 = 0x06 := ext_hi (ext_hi (ext_all _))
  have k : fieldsSy (encY 0x06 p (f ++ x ++ bit s)) = some (.fwr p f x s) := by
    delta fieldsSy
    dsimp only
    rw [hop]
    show some (Instr.fwr ((encY 0x06 p (f ++ x ++ bit s)).extractLsb' 19 5) ((encY 0x06 p (f ++ x ++ bit s)).extractLsb' 7 12) ((encY 0x06 p (f ++ x ++ bit s)).extractLsb' 1 6) ((encY 0x06 p (f ++ x ++ bit s)).getLsbD 0)) = _
    rw [h0, h1, h2, h3]
  exact ofSy rfl rfl rfl rfl rfl rfl rfl k

theorem Encoding.binit (p : Path) (f : FlagIx) (x : XReg) : Statement (.binit p f x) := fun _ _ => by
  have h0 : (encY 0x08 p (f ++ x ++ 0#1)).extractLsb' 19 5 = p := ext_hi (ext_lo (ext_all _))
  have h1 : (encY 0x08 p (f ++ x ++ 0#1)).extractLsb' 7 12 = f := ext_lo (ext_hi (ext_hi (ext_all _)))
  have h2 : (encY 0x08 p (f ++ x ++ 0#1)).extractLsb' 1 6 = x := ext_lo (ext_hi (ext_lo (ext_all _)))
  have hop : (encY 0x08 p (f ++ x ++ 0#1)).extractLsb' 24 8 = 0x08 := ext_hi (ext_hi (ext_all _))
  have k : fieldsSy (encY 0x08 p (f ++ x ++ 0#1)) = some (.binit p f x) := by
    delta fieldsSy
    dsimp only
    rw [hop]
    show some (Instr.binit ((encY 0x08 p (f ++ x ++ 0#1)).extractLsb' 19 5) ((encY 0x08 p (f ++ x ++ 0#1)).extractLsb' 7 12) ((encY 0x08 p (f ++ x ++ 0#1)).extractLsb' 1 6)) = _
    rw [h0, h1, h2]
  exact ofSy rfl rfl rfl rfl rfl rfl rfl k

theorem Encoding.barv (p : Path) (f : FlagIx) (x : XReg) (s : Bool) : Statement (.barv p f x s) := fun _ _ => by
  have h0 : (encY 0x09 p (f ++ x ++ bit s)).extractLsb' 19 5 = p := ext_hi (ext_lo (ext_all _))
  have h1 : (encY 0x09 p (f ++ x ++ bit s)).extractLsb' 7 12 = f := ext_lo (ext_hi (ext_hi (ext_all _)))
  have h2 : (encY 0x09 p (f ++ x ++ bit s)).extractLsb' 1 6 = x := ext_lo (ext_hi (ext_lo (ext_all _)))
  have h3 : (encY 0x09 p (f ++ x ++ bit s)).getLsbD 0 = s := get_lo (get_lo (bit_get _))
  have hop : (encY 0x09 p (f ++ x ++ bit s)).extractLsb' 24 8 = 0x09 := ext_hi (ext_hi (ext_all _))
  have k : fieldsSy (encY 0x09 p (f ++ x ++ bit s)) = some (.barv p f x s) := by
    delta fieldsSy
    dsimp only
    rw [hop]
    show some (Instr.barv ((encY 0x09 p (f ++ x ++ bit s)).extractLsb' 19 5) ((encY 0x09 p (f ++ x ++ bit s)).extractLsb' 7 12) ((encY 0x09 p (f ++ x ++ bit s)).extractLsb' 1 6) ((encY 0x09 p (f ++ x ++ bit s)).getLsbD 0)) = _
    rw [h0, h1, h2, h3]
  exact ofSy rfl rfl rfl rfl rfl rfl rfl k

theorem Encoding.bexp (p : Path) (f : FlagIx) (x : XReg) (a : Bool) : Statement (.bexp p f x a) := fun _ _ => by
  have h0 : (encY 0x0A p (f ++ x ++ bit a)).extractLsb' 19 5 = p := ext_hi (ext_lo (ext_all _))
  have h1 : (encY 0x0A p (f ++ x ++ bit a)).extractLsb' 7 12 = f := ext_lo (ext_hi (ext_hi (ext_all _)))
  have h2 : (encY 0x0A p (f ++ x ++ bit a)).extractLsb' 1 6 = x := ext_lo (ext_hi (ext_lo (ext_all _)))
  have h3 : (encY 0x0A p (f ++ x ++ bit a)).getLsbD 0 = a := get_lo (get_lo (bit_get _))
  have hop : (encY 0x0A p (f ++ x ++ bit a)).extractLsb' 24 8 = 0x0A := ext_hi (ext_hi (ext_all _))
  have k : fieldsSy (encY 0x0A p (f ++ x ++ bit a)) = some (.bexp p f x a) := by
    delta fieldsSy
    dsimp only
    rw [hop]
    show some (Instr.bexp ((encY 0x0A p (f ++ x ++ bit a)).extractLsb' 19 5) ((encY 0x0A p (f ++ x ++ bit a)).extractLsb' 7 12) ((encY 0x0A p (f ++ x ++ bit a)).extractLsb' 1 6) ((encY 0x0A p (f ++ x ++ bit a)).getLsbD 0)) = _
    rw [h0, h1, h2, h3]
  exact ofSy rfl rfl rfl rfl rfl rfl rfl k

theorem Encoding.bwait (p : Path) (f : FlagIx) (x : XReg) : Statement (.bwait p f x) := fun _ _ => by
  have h0 : (encY 0x0B p (f ++ x ++ 0#1)).extractLsb' 19 5 = p := ext_hi (ext_lo (ext_all _))
  have h1 : (encY 0x0B p (f ++ x ++ 0#1)).extractLsb' 7 12 = f := ext_lo (ext_hi (ext_hi (ext_all _)))
  have h2 : (encY 0x0B p (f ++ x ++ 0#1)).extractLsb' 1 6 = x := ext_lo (ext_hi (ext_lo (ext_all _)))
  have hop : (encY 0x0B p (f ++ x ++ 0#1)).extractLsb' 24 8 = 0x0B := ext_hi (ext_hi (ext_all _))
  have k : fieldsSy (encY 0x0B p (f ++ x ++ 0#1)) = some (.bwait p f x) := by
    delta fieldsSy
    dsimp only
    rw [hop]
    show some (Instr.bwait ((encY 0x0B p (f ++ x ++ 0#1)).extractLsb' 19 5) ((encY 0x0B p (f ++ x ++ 0#1)).extractLsb' 7 12) ((encY 0x0B p (f ++ x ++ 0#1)).extractLsb' 1 6)) = _
    rw [h0, h1, h2]
  exact ofSy rfl rfl rfl rfl rfl rfl rfl k

theorem Encoding.fence (p : Path) (k : BitVec 4) (s : Scope) : Statement (.fence p k s) := fun _ _ => by
  have h0 : (encY 0x0C p (0#13 ++ k ++ s.code)).extractLsb' 19 5 = p := ext_hi (ext_lo (ext_all _))
  have h1 : (encY 0x0C p (0#13 ++ k ++ s.code)).extractLsb' 2 4 = k := ext_lo (ext_hi (ext_lo (ext_all _)))
  have h2 : (encY 0x0C p (0#13 ++ k ++ s.code)).extractLsb' 0 2 = s.code := ext_lo (ext_lo (ext_all _))
  have hop : (encY 0x0C p (0#13 ++ k ++ s.code)).extractLsb' 24 8 = 0x0C := ext_hi (ext_hi (ext_all _))
  have k : fieldsSy (encY 0x0C p (0#13 ++ k ++ s.code)) = some (.fence p k s) := by
    delta fieldsSy
    dsimp only
    rw [hop]
    show some (Instr.fence ((encY 0x0C p (0#13 ++ k ++ s.code)).extractLsb' 19 5) ((encY 0x0C p (0#13 ++ k ++ s.code)).extractLsb' 2 4) (Scope.ofCode ((encY 0x0C p (0#13 ++ k ++ s.code)).extractLsb' 0 2))) = _
    rw [h0, h1, h2, scope_code]
  exact ofSy rfl rfl rfl rfl rfl rfl rfl k

theorem Encoding.radv (p : Path) (q : PartId) (r : BitVec 3) (n : BitVec 8) : Statement (.radv p q r n) := fun _ _ => by
  have h0 : (encY 0x0D p (q ++ r ++ n ++ 0#4)).extractLsb' 19 5 = p := ext_hi (ext_lo (ext_all _))
  have h1 : (encY 0x0D p (q ++ r ++ n ++ 0#4)).extractLsb' 15 4 = q := ext_lo (ext_hi (ext_hi (ext_hi (ext_all _))))
  have h2 : (encY 0x0D p (q ++ r ++ n ++ 0#4)).extractLsb' 12 3 = r := ext_lo (ext_hi (ext_hi (ext_lo (ext_all _))))
  have h3 : (encY 0x0D p (q ++ r ++ n ++ 0#4)).extractLsb' 4 8 = n := ext_lo (ext_hi (ext_lo (ext_all _)))
  have hop : (encY 0x0D p (q ++ r ++ n ++ 0#4)).extractLsb' 24 8 = 0x0D := ext_hi (ext_hi (ext_all _))
  have k : fieldsSy (encY 0x0D p (q ++ r ++ n ++ 0#4)) = some (.radv p q r n) := by
    delta fieldsSy
    dsimp only
    rw [hop]
    show some (Instr.radv ((encY 0x0D p (q ++ r ++ n ++ 0#4)).extractLsb' 19 5) ((encY 0x0D p (q ++ r ++ n ++ 0#4)).extractLsb' 15 4) ((encY 0x0D p (q ++ r ++ n ++ 0#4)).extractLsb' 12 3) ((encY 0x0D p (q ++ r ++ n ++ 0#4)).extractLsb' 4 8)) = _
    rw [h0, h1, h2, h3]
  exact ofSy rfl rfl rfl rfl rfl rfl rfl k

theorem Encoding.rwait (p : Path) (q : PartId) (r : BitVec 3) (n : BitVec 8) : Statement (.rwait p q r n) := fun _ _ => by
  have h0 : (encY 0x0E p (q ++ r ++ n ++ 0#4)).extractLsb' 19 5 = p := ext_hi (ext_lo (ext_all _))
  have h1 : (encY 0x0E p (q ++ r ++ n ++ 0#4)).extractLsb' 15 4 = q := ext_lo (ext_hi (ext_hi (ext_hi (ext_all _))))
  have h2 : (encY 0x0E p (q ++ r ++ n ++ 0#4)).extractLsb' 12 3 = r := ext_lo (ext_hi (ext_hi (ext_lo (ext_all _))))
  have h3 : (encY 0x0E p (q ++ r ++ n ++ 0#4)).extractLsb' 4 8 = n := ext_lo (ext_hi (ext_lo (ext_all _)))
  have hop : (encY 0x0E p (q ++ r ++ n ++ 0#4)).extractLsb' 24 8 = 0x0E := ext_hi (ext_hi (ext_all _))
  have k : fieldsSy (encY 0x0E p (q ++ r ++ n ++ 0#4)) = some (.rwait p q r n) := by
    delta fieldsSy
    dsimp only
    rw [hop]
    show some (Instr.rwait ((encY 0x0E p (q ++ r ++ n ++ 0#4)).extractLsb' 19 5) ((encY 0x0E p (q ++ r ++ n ++ 0#4)).extractLsb' 15 4) ((encY 0x0E p (q ++ r ++ n ++ 0#4)).extractLsb' 12 3) ((encY 0x0E p (q ++ r ++ n ++ 0#4)).extractLsb' 4 8)) = _
    rw [h0, h1, h2, h3]
  exact ofSy rfl rfl rfl rfl rfl rfl rfl k

theorem Encoding.post (p : Path) (q : XReg) (c : XReg) (r : XReg) : Statement (.post p q c r) := fun _ _ => by
  have h0 : (encY 0x10 p (q ++ c ++ r ++ 0#1)).extractLsb' 19 5 = p := ext_hi (ext_lo (ext_all _))
  have h1 : (encY 0x10 p (q ++ c ++ r ++ 0#1)).extractLsb' 13 6 = q := ext_lo (ext_hi (ext_hi (ext_hi (ext_all _))))
  have h2 : (encY 0x10 p (q ++ c ++ r ++ 0#1)).extractLsb' 7 6 = c := ext_lo (ext_hi (ext_hi (ext_lo (ext_all _))))
  have h3 : (encY 0x10 p (q ++ c ++ r ++ 0#1)).extractLsb' 1 6 = r := ext_lo (ext_hi (ext_lo (ext_all _)))
  have hop : (encY 0x10 p (q ++ c ++ r ++ 0#1)).extractLsb' 24 8 = 0x10 := ext_hi (ext_hi (ext_all _))
  have k : fieldsSy (encY 0x10 p (q ++ c ++ r ++ 0#1)) = some (.post p q c r) := by
    delta fieldsSy
    dsimp only
    rw [hop]
    show some (Instr.post ((encY 0x10 p (q ++ c ++ r ++ 0#1)).extractLsb' 19 5) ((encY 0x10 p (q ++ c ++ r ++ 0#1)).extractLsb' 13 6) ((encY 0x10 p (q ++ c ++ r ++ 0#1)).extractLsb' 7 6) ((encY 0x10 p (q ++ c ++ r ++ 0#1)).extractLsb' 1 6)) = _
    rw [h0, h1, h2, h3]
  exact ofSy rfl rfl rfl rfl rfl rfl rfl k

theorem Encoding.evpop (p : Path) (a : XReg) (d : XReg) : Statement (.evpop p a d) := fun _ _ => by
  have h0 : (encY 0x11 p (a ++ 0#6 ++ d ++ 0#1)).extractLsb' 19 5 = p := ext_hi (ext_lo (ext_all _))
  have h1 : (encY 0x11 p (a ++ 0#6 ++ d ++ 0#1)).extractLsb' 13 6 = a := ext_lo (ext_hi (ext_hi (ext_hi (ext_all _))))
  have h2 : (encY 0x11 p (a ++ 0#6 ++ d ++ 0#1)).extractLsb' 1 6 = d := ext_lo (ext_hi (ext_lo (ext_all _)))
  have hop : (encY 0x11 p (a ++ 0#6 ++ d ++ 0#1)).extractLsb' 24 8 = 0x11 := ext_hi (ext_hi (ext_all _))
  have k : fieldsSy (encY 0x11 p (a ++ 0#6 ++ d ++ 0#1)) = some (.evpop p a d) := by
    delta fieldsSy
    dsimp only
    rw [hop]
    show some (Instr.evpop ((encY 0x11 p (a ++ 0#6 ++ d ++ 0#1)).extractLsb' 19 5) ((encY 0x11 p (a ++ 0#6 ++ d ++ 0#1)).extractLsb' 13 6) ((encY 0x11 p (a ++ 0#6 ++ d ++ 0#1)).extractLsb' 1 6)) = _
    rw [h0, h1, h2]
  exact ofSy rfl rfl rfl rfl rfl rfl rfl k

theorem Encoding.loffer (p : Path) (a : XReg) (d : XReg) : Statement (.loffer p a d) := fun _ _ => by
  have h0 : (encY 0x14 p (a ++ 0#6 ++ d ++ 0#1)).extractLsb' 19 5 = p := ext_hi (ext_lo (ext_all _))
  have h1 : (encY 0x14 p (a ++ 0#6 ++ d ++ 0#1)).extractLsb' 13 6 = a := ext_lo (ext_hi (ext_hi (ext_hi (ext_all _))))
  have h2 : (encY 0x14 p (a ++ 0#6 ++ d ++ 0#1)).extractLsb' 1 6 = d := ext_lo (ext_hi (ext_lo (ext_all _)))
  have hop : (encY 0x14 p (a ++ 0#6 ++ d ++ 0#1)).extractLsb' 24 8 = 0x14 := ext_hi (ext_hi (ext_all _))
  have k : fieldsSy (encY 0x14 p (a ++ 0#6 ++ d ++ 0#1)) = some (.loffer p a d) := by
    delta fieldsSy
    dsimp only
    rw [hop]
    show some (Instr.loffer ((encY 0x14 p (a ++ 0#6 ++ d ++ 0#1)).extractLsb' 19 5) ((encY 0x14 p (a ++ 0#6 ++ d ++ 0#1)).extractLsb' 13 6) ((encY 0x14 p (a ++ 0#6 ++ d ++ 0#1)).extractLsb' 1 6)) = _
    rw [h0, h1, h2]
  exact ofSy rfl rfl rfl rfl rfl rfl rfl k

theorem Encoding.lacc (p : Path) (a : XReg) (d : XReg) : Statement (.lacc p a d) := fun _ _ => by
  have h0 : (encY 0x15 p (a ++ 0#6 ++ d ++ 0#1)).extractLsb' 19 5 = p := ext_hi (ext_lo (ext_all _))
  have h1 : (encY 0x15 p (a ++ 0#6 ++ d ++ 0#1)).extractLsb' 13 6 = a := ext_lo (ext_hi (ext_hi (ext_hi (ext_all _))))
  have h2 : (encY 0x15 p (a ++ 0#6 ++ d ++ 0#1)).extractLsb' 1 6 = d := ext_lo (ext_hi (ext_lo (ext_all _)))
  have hop : (encY 0x15 p (a ++ 0#6 ++ d ++ 0#1)).extractLsb' 24 8 = 0x15 := ext_hi (ext_hi (ext_all _))
  have k : fieldsSy (encY 0x15 p (a ++ 0#6 ++ d ++ 0#1)) = some (.lacc p a d) := by
    delta fieldsSy
    dsimp only
    rw [hop]
    show some (Instr.lacc ((encY 0x15 p (a ++ 0#6 ++ d ++ 0#1)).extractLsb' 19 5) ((encY 0x15 p (a ++ 0#6 ++ d ++ 0#1)).extractLsb' 13 6) ((encY 0x15 p (a ++ 0#6 ++ d ++ 0#1)).extractLsb' 1 6)) = _
    rw [h0, h1, h2]
  exact ofSy rfl rfl rfl rfl rfl rfl rfl k

theorem Encoding.lrcl (o : SyOp) : Statement (.lrcl o) := fun _ _ => by
  have h0 : (encY 0x16 o.path (o.xa ++ o.xb ++ o.xd ++ 0#1)).extractLsb' 19 5 = o.path := ext_hi (ext_lo (ext_all _))
  have h1 : (encY 0x16 o.path (o.xa ++ o.xb ++ o.xd ++ 0#1)).extractLsb' 13 6 = o.xa := ext_lo (ext_hi (ext_hi (ext_hi (ext_all _))))
  have h2 : (encY 0x16 o.path (o.xa ++ o.xb ++ o.xd ++ 0#1)).extractLsb' 7 6 = o.xb := ext_lo (ext_hi (ext_hi (ext_lo (ext_all _))))
  have h3 : (encY 0x16 o.path (o.xa ++ o.xb ++ o.xd ++ 0#1)).extractLsb' 1 6 = o.xd := ext_lo (ext_hi (ext_lo (ext_all _)))
  have hop : (encY 0x16 o.path (o.xa ++ o.xb ++ o.xd ++ 0#1)).extractLsb' 24 8 = 0x16 := ext_hi (ext_hi (ext_all _))
  have k : fieldsSy (encY 0x16 o.path (o.xa ++ o.xb ++ o.xd ++ 0#1)) = some (.lrcl o) := by
    delta fieldsSy
    dsimp only
    rw [hop]
    show some (Instr.lrcl ⟨((encY 0x16 o.path (o.xa ++ o.xb ++ o.xd ++ 0#1)).extractLsb' 19 5), ((encY 0x16 o.path (o.xa ++ o.xb ++ o.xd ++ 0#1)).extractLsb' 13 6), ((encY 0x16 o.path (o.xa ++ o.xb ++ o.xd ++ 0#1)).extractLsb' 7 6), ((encY 0x16 o.path (o.xa ++ o.xb ++ o.xd ++ 0#1)).extractLsb' 1 6)⟩) = _
    rw [h0, h1, h2, h3]
  exact ofSy rfl rfl rfl rfl rfl rfl rfl k

theorem Encoding.ldisc (o : SyOp) : Statement (.ldisc o) := fun _ _ => by
  have h0 : (encY 0x17 o.path (o.xa ++ o.xb ++ o.xd ++ 0#1)).extractLsb' 19 5 = o.path := ext_hi (ext_lo (ext_all _))
  have h1 : (encY 0x17 o.path (o.xa ++ o.xb ++ o.xd ++ 0#1)).extractLsb' 13 6 = o.xa := ext_lo (ext_hi (ext_hi (ext_hi (ext_all _))))
  have h2 : (encY 0x17 o.path (o.xa ++ o.xb ++ o.xd ++ 0#1)).extractLsb' 7 6 = o.xb := ext_lo (ext_hi (ext_hi (ext_lo (ext_all _))))
  have h3 : (encY 0x17 o.path (o.xa ++ o.xb ++ o.xd ++ 0#1)).extractLsb' 1 6 = o.xd := ext_lo (ext_hi (ext_lo (ext_all _)))
  have hop : (encY 0x17 o.path (o.xa ++ o.xb ++ o.xd ++ 0#1)).extractLsb' 24 8 = 0x17 := ext_hi (ext_hi (ext_all _))
  have k : fieldsSy (encY 0x17 o.path (o.xa ++ o.xb ++ o.xd ++ 0#1)) = some (.ldisc o) := by
    delta fieldsSy
    dsimp only
    rw [hop]
    show some (Instr.ldisc ⟨((encY 0x17 o.path (o.xa ++ o.xb ++ o.xd ++ 0#1)).extractLsb' 19 5), ((encY 0x17 o.path (o.xa ++ o.xb ++ o.xd ++ 0#1)).extractLsb' 13 6), ((encY 0x17 o.path (o.xa ++ o.xb ++ o.xd ++ 0#1)).extractLsb' 7 6), ((encY 0x17 o.path (o.xa ++ o.xb ++ o.xd ++ 0#1)).extractLsb' 1 6)⟩) = _
    rw [h0, h1, h2, h3]
  exact ofSy rfl rfl rfl rfl rfl rfl rfl k

theorem Encoding.lret (p : Path) (a : XReg) (d : XReg) (o : Bool) : Statement (.lret p a d o) := fun _ _ => by
  have h0 : (encY 0x18 p (a ++ 0#6 ++ d ++ bit o)).extractLsb' 19 5 = p := ext_hi (ext_lo (ext_all _))
  have h1 : (encY 0x18 p (a ++ 0#6 ++ d ++ bit o)).extractLsb' 13 6 = a := ext_lo (ext_hi (ext_hi (ext_hi (ext_all _))))
  have h2 : (encY 0x18 p (a ++ 0#6 ++ d ++ bit o)).extractLsb' 1 6 = d := ext_lo (ext_hi (ext_lo (ext_all _)))
  have h3 : (encY 0x18 p (a ++ 0#6 ++ d ++ bit o)).getLsbD 0 = o := get_lo (get_lo (bit_get _))
  have hop : (encY 0x18 p (a ++ 0#6 ++ d ++ bit o)).extractLsb' 24 8 = 0x18 := ext_hi (ext_hi (ext_all _))
  have k : fieldsSy (encY 0x18 p (a ++ 0#6 ++ d ++ bit o)) = some (.lret p a d o) := by
    delta fieldsSy
    dsimp only
    rw [hop]
    show some (Instr.lret ((encY 0x18 p (a ++ 0#6 ++ d ++ bit o)).extractLsb' 19 5) ((encY 0x18 p (a ++ 0#6 ++ d ++ bit o)).extractLsb' 13 6) ((encY 0x18 p (a ++ 0#6 ++ d ++ bit o)).extractLsb' 1 6) ((encY 0x18 p (a ++ 0#6 ++ d ++ bit o)).getLsbD 0)) = _
    rw [h0, h1, h2, h3]
  exact ofSy rfl rfl rfl rfl rfl rfl rfl k

theorem Encoding.lqry (o : SyOp) : Statement (.lqry o) := fun _ _ => by
  have h0 : (encY 0x19 o.path (o.xa ++ o.xb ++ o.xd ++ 0#1)).extractLsb' 19 5 = o.path := ext_hi (ext_lo (ext_all _))
  have h1 : (encY 0x19 o.path (o.xa ++ o.xb ++ o.xd ++ 0#1)).extractLsb' 13 6 = o.xa := ext_lo (ext_hi (ext_hi (ext_hi (ext_all _))))
  have h2 : (encY 0x19 o.path (o.xa ++ o.xb ++ o.xd ++ 0#1)).extractLsb' 7 6 = o.xb := ext_lo (ext_hi (ext_hi (ext_lo (ext_all _))))
  have h3 : (encY 0x19 o.path (o.xa ++ o.xb ++ o.xd ++ 0#1)).extractLsb' 1 6 = o.xd := ext_lo (ext_hi (ext_lo (ext_all _)))
  have hop : (encY 0x19 o.path (o.xa ++ o.xb ++ o.xd ++ 0#1)).extractLsb' 24 8 = 0x19 := ext_hi (ext_hi (ext_all _))
  have k : fieldsSy (encY 0x19 o.path (o.xa ++ o.xb ++ o.xd ++ 0#1)) = some (.lqry o) := by
    delta fieldsSy
    dsimp only
    rw [hop]
    show some (Instr.lqry ⟨((encY 0x19 o.path (o.xa ++ o.xb ++ o.xd ++ 0#1)).extractLsb' 19 5), ((encY 0x19 o.path (o.xa ++ o.xb ++ o.xd ++ 0#1)).extractLsb' 13 6), ((encY 0x19 o.path (o.xa ++ o.xb ++ o.xd ++ 0#1)).extractLsb' 7 6), ((encY 0x19 o.path (o.xa ++ o.xb ++ o.xd ++ 0#1)).extractLsb' 1 6)⟩) = _
    rw [h0, h1, h2, h3]
  exact ofSy rfl rfl rfl rfl rfl rfl rfl k

theorem Encoding.frsv (p : Path) (a : XReg) (d : XReg) : Statement (.frsv p a d) := fun _ _ => by
  have h0 : (encY 0x1C p (a ++ 0#6 ++ d ++ 0#1)).extractLsb' 19 5 = p := ext_hi (ext_lo (ext_all _))
  have h1 : (encY 0x1C p (a ++ 0#6 ++ d ++ 0#1)).extractLsb' 13 6 = a := ext_lo (ext_hi (ext_hi (ext_hi (ext_all _))))
  have h2 : (encY 0x1C p (a ++ 0#6 ++ d ++ 0#1)).extractLsb' 1 6 = d := ext_lo (ext_hi (ext_lo (ext_all _)))
  have hop : (encY 0x1C p (a ++ 0#6 ++ d ++ 0#1)).extractLsb' 24 8 = 0x1C := ext_hi (ext_hi (ext_all _))
  have k : fieldsSy (encY 0x1C p (a ++ 0#6 ++ d ++ 0#1)) = some (.frsv p a d) := by
    delta fieldsSy
    dsimp only
    rw [hop]
    show some (Instr.frsv ((encY 0x1C p (a ++ 0#6 ++ d ++ 0#1)).extractLsb' 19 5) ((encY 0x1C p (a ++ 0#6 ++ d ++ 0#1)).extractLsb' 13 6) ((encY 0x1C p (a ++ 0#6 ++ d ++ 0#1)).extractLsb' 1 6)) = _
    rw [h0, h1, h2]
  exact ofSy rfl rfl rfl rfl rfl rfl rfl k

theorem Encoding.frel (p : Path) (a : XReg) : Statement (.frel p a) := fun _ _ => by
  have h0 : (encY 0x1D p (a ++ 0#13)).extractLsb' 19 5 = p := ext_hi (ext_lo (ext_all _))
  have h1 : (encY 0x1D p (a ++ 0#13)).extractLsb' 13 6 = a := ext_lo (ext_hi (ext_all _))
  have hop : (encY 0x1D p (a ++ 0#13)).extractLsb' 24 8 = 0x1D := ext_hi (ext_hi (ext_all _))
  have k : fieldsSy (encY 0x1D p (a ++ 0#13)) = some (.frel p a) := by
    delta fieldsSy
    dsimp only
    rw [hop]
    show some (Instr.frel ((encY 0x1D p (a ++ 0#13)).extractLsb' 19 5) ((encY 0x1D p (a ++ 0#13)).extractLsb' 13 6)) = _
    rw [h0, h1]
  exact ofSy rfl rfl rfl rfl rfl rfl rfl k

theorem Encoding.wset (p : Path) (a : XReg) (d : XReg) : Statement (.wset p a d) := fun _ _ => by
  have h0 : (encY 0x1E p (a ++ 0#6 ++ d ++ 0#1)).extractLsb' 19 5 = p := ext_hi (ext_lo (ext_all _))
  have h1 : (encY 0x1E p (a ++ 0#6 ++ d ++ 0#1)).extractLsb' 13 6 = a := ext_lo (ext_hi (ext_hi (ext_hi (ext_all _))))
  have h2 : (encY 0x1E p (a ++ 0#6 ++ d ++ 0#1)).extractLsb' 1 6 = d := ext_lo (ext_hi (ext_lo (ext_all _)))
  have hop : (encY 0x1E p (a ++ 0#6 ++ d ++ 0#1)).extractLsb' 24 8 = 0x1E := ext_hi (ext_hi (ext_all _))
  have k : fieldsSy (encY 0x1E p (a ++ 0#6 ++ d ++ 0#1)) = some (.wset p a d) := by
    delta fieldsSy
    dsimp only
    rw [hop]
    show some (Instr.wset ((encY 0x1E p (a ++ 0#6 ++ d ++ 0#1)).extractLsb' 19 5) ((encY 0x1E p (a ++ 0#6 ++ d ++ 0#1)).extractLsb' 13 6) ((encY 0x1E p (a ++ 0#6 ++ d ++ 0#1)).extractLsb' 1 6)) = _
    rw [h0, h1, h2]
  exact ofSy rfl rfl rfl rfl rfl rfl rfl k

theorem Encoding.cseat (o : SyOp) : Statement (.cseat o) := fun _ _ => by
  have h0 : (encY 0x20 o.path (o.xa ++ o.xb ++ o.xd ++ 0#1)).extractLsb' 19 5 = o.path := ext_hi (ext_lo (ext_all _))
  have h1 : (encY 0x20 o.path (o.xa ++ o.xb ++ o.xd ++ 0#1)).extractLsb' 13 6 = o.xa := ext_lo (ext_hi (ext_hi (ext_hi (ext_all _))))
  have h2 : (encY 0x20 o.path (o.xa ++ o.xb ++ o.xd ++ 0#1)).extractLsb' 7 6 = o.xb := ext_lo (ext_hi (ext_hi (ext_lo (ext_all _))))
  have h3 : (encY 0x20 o.path (o.xa ++ o.xb ++ o.xd ++ 0#1)).extractLsb' 1 6 = o.xd := ext_lo (ext_hi (ext_lo (ext_all _)))
  have hop : (encY 0x20 o.path (o.xa ++ o.xb ++ o.xd ++ 0#1)).extractLsb' 24 8 = 0x20 := ext_hi (ext_hi (ext_all _))
  have k : fieldsSy (encY 0x20 o.path (o.xa ++ o.xb ++ o.xd ++ 0#1)) = some (.cseat o) := by
    delta fieldsSy
    dsimp only
    rw [hop]
    show some (Instr.cseat ⟨((encY 0x20 o.path (o.xa ++ o.xb ++ o.xd ++ 0#1)).extractLsb' 19 5), ((encY 0x20 o.path (o.xa ++ o.xb ++ o.xd ++ 0#1)).extractLsb' 13 6), ((encY 0x20 o.path (o.xa ++ o.xb ++ o.xd ++ 0#1)).extractLsb' 7 6), ((encY 0x20 o.path (o.xa ++ o.xb ++ o.xd ++ 0#1)).extractLsb' 1 6)⟩) = _
    rw [h0, h1, h2, h3]
  exact ofSy rfl rfl rfl rfl rfl rfl rfl k

theorem Encoding.cuns (p : Path) (a : XReg) (d : XReg) : Statement (.cuns p a d) := fun _ _ => by
  have h0 : (encY 0x21 p (a ++ 0#6 ++ d ++ 0#1)).extractLsb' 19 5 = p := ext_hi (ext_lo (ext_all _))
  have h1 : (encY 0x21 p (a ++ 0#6 ++ d ++ 0#1)).extractLsb' 13 6 = a := ext_lo (ext_hi (ext_hi (ext_hi (ext_all _))))
  have h2 : (encY 0x21 p (a ++ 0#6 ++ d ++ 0#1)).extractLsb' 1 6 = d := ext_lo (ext_hi (ext_lo (ext_all _)))
  have hop : (encY 0x21 p (a ++ 0#6 ++ d ++ 0#1)).extractLsb' 24 8 = 0x21 := ext_hi (ext_hi (ext_all _))
  have k : fieldsSy (encY 0x21 p (a ++ 0#6 ++ d ++ 0#1)) = some (.cuns p a d) := by
    delta fieldsSy
    dsimp only
    rw [hop]
    show some (Instr.cuns ((encY 0x21 p (a ++ 0#6 ++ d ++ 0#1)).extractLsb' 19 5) ((encY 0x21 p (a ++ 0#6 ++ d ++ 0#1)).extractLsb' 13 6) ((encY 0x21 p (a ++ 0#6 ++ d ++ 0#1)).extractLsb' 1 6)) = _
    rw [h0, h1, h2]
  exact ofSy rfl rfl rfl rfl rfl rfl rfl k

theorem Encoding.crsm (p : Path) (a : XReg) (d : XReg) : Statement (.crsm p a d) := fun _ _ => by
  have h0 : (encY 0x22 p (a ++ 0#6 ++ d ++ 0#1)).getLsbD 0 = false := get_lo (get_lo ((by decide)))
  have h1 : (encY 0x22 p (a ++ 0#6 ++ d ++ 0#1)).extractLsb' 19 5 = p := ext_hi (ext_lo (ext_all _))
  have h2 : (encY 0x22 p (a ++ 0#6 ++ d ++ 0#1)).extractLsb' 13 6 = a := ext_lo (ext_hi (ext_hi (ext_hi (ext_all _))))
  have h3 : (encY 0x22 p (a ++ 0#6 ++ d ++ 0#1)).extractLsb' 1 6 = d := ext_lo (ext_hi (ext_lo (ext_all _)))
  have hop : (encY 0x22 p (a ++ 0#6 ++ d ++ 0#1)).extractLsb' 24 8 = 0x22 := ext_hi (ext_hi (ext_all _))
  have k : fieldsSy (encY 0x22 p (a ++ 0#6 ++ d ++ 0#1)) = some (.crsm p a d) := by
    delta fieldsSy
    dsimp only
    rw [hop]
    show some (if ((encY 0x22 p (a ++ 0#6 ++ d ++ 0#1)).getLsbD 0) then Instr.crsmAt ⟨((encY 0x22 p (a ++ 0#6 ++ d ++ 0#1)).extractLsb' 19 5), ((encY 0x22 p (a ++ 0#6 ++ d ++ 0#1)).extractLsb' 13 6), ((encY 0x22 p (a ++ 0#6 ++ d ++ 0#1)).extractLsb' 7 6), ((encY 0x22 p (a ++ 0#6 ++ d ++ 0#1)).extractLsb' 1 6)⟩ else Instr.crsm ((encY 0x22 p (a ++ 0#6 ++ d ++ 0#1)).extractLsb' 19 5) ((encY 0x22 p (a ++ 0#6 ++ d ++ 0#1)).extractLsb' 13 6) ((encY 0x22 p (a ++ 0#6 ++ d ++ 0#1)).extractLsb' 1 6)) = _
    rw [h0, h1, h2, h3]
    rfl
  exact ofSy rfl rfl rfl rfl rfl rfl rfl k

theorem Encoding.crsmAt (o : SyOp) : Statement (.crsmAt o) := fun _ _ => by
  have h0 : (encY 0x22 o.path (o.xa ++ o.xb ++ o.xd ++ 1#1)).getLsbD 0 = true := get_lo (get_lo ((by decide)))
  have h1 : (encY 0x22 o.path (o.xa ++ o.xb ++ o.xd ++ 1#1)).extractLsb' 19 5 = o.path := ext_hi (ext_lo (ext_all _))
  have h2 : (encY 0x22 o.path (o.xa ++ o.xb ++ o.xd ++ 1#1)).extractLsb' 13 6 = o.xa := ext_lo (ext_hi (ext_hi (ext_hi (ext_all _))))
  have h3 : (encY 0x22 o.path (o.xa ++ o.xb ++ o.xd ++ 1#1)).extractLsb' 7 6 = o.xb := ext_lo (ext_hi (ext_hi (ext_lo (ext_all _))))
  have h4 : (encY 0x22 o.path (o.xa ++ o.xb ++ o.xd ++ 1#1)).extractLsb' 1 6 = o.xd := ext_lo (ext_hi (ext_lo (ext_all _)))
  have hop : (encY 0x22 o.path (o.xa ++ o.xb ++ o.xd ++ 1#1)).extractLsb' 24 8 = 0x22 := ext_hi (ext_hi (ext_all _))
  have k : fieldsSy (encY 0x22 o.path (o.xa ++ o.xb ++ o.xd ++ 1#1)) = some (.crsmAt o) := by
    delta fieldsSy
    dsimp only
    rw [hop]
    show some (if ((encY 0x22 o.path (o.xa ++ o.xb ++ o.xd ++ 1#1)).getLsbD 0) then Instr.crsmAt ⟨((encY 0x22 o.path (o.xa ++ o.xb ++ o.xd ++ 1#1)).extractLsb' 19 5), ((encY 0x22 o.path (o.xa ++ o.xb ++ o.xd ++ 1#1)).extractLsb' 13 6), ((encY 0x22 o.path (o.xa ++ o.xb ++ o.xd ++ 1#1)).extractLsb' 7 6), ((encY 0x22 o.path (o.xa ++ o.xb ++ o.xd ++ 1#1)).extractLsb' 1 6)⟩ else Instr.crsm ((encY 0x22 o.path (o.xa ++ o.xb ++ o.xd ++ 1#1)).extractLsb' 19 5) ((encY 0x22 o.path (o.xa ++ o.xb ++ o.xd ++ 1#1)).extractLsb' 13 6) ((encY 0x22 o.path (o.xa ++ o.xb ++ o.xd ++ 1#1)).extractLsb' 1 6)) = _
    rw [h0, h1, h2, h3, h4]
    rfl
  exact ofSy rfl rfl rfl rfl rfl rfl rfl k

theorem Encoding.ckil (p : Path) (a : XReg) (d : XReg) : Statement (.ckil p a d) := fun _ _ => by
  have h0 : (encY 0x23 p (a ++ 0#6 ++ d ++ 0#1)).extractLsb' 19 5 = p := ext_hi (ext_lo (ext_all _))
  have h1 : (encY 0x23 p (a ++ 0#6 ++ d ++ 0#1)).extractLsb' 13 6 = a := ext_lo (ext_hi (ext_hi (ext_hi (ext_all _))))
  have h2 : (encY 0x23 p (a ++ 0#6 ++ d ++ 0#1)).extractLsb' 1 6 = d := ext_lo (ext_hi (ext_lo (ext_all _)))
  have hop : (encY 0x23 p (a ++ 0#6 ++ d ++ 0#1)).extractLsb' 24 8 = 0x23 := ext_hi (ext_hi (ext_all _))
  have k : fieldsSy (encY 0x23 p (a ++ 0#6 ++ d ++ 0#1)) = some (.ckil p a d) := by
    delta fieldsSy
    dsimp only
    rw [hop]
    show some (Instr.ckil ((encY 0x23 p (a ++ 0#6 ++ d ++ 0#1)).extractLsb' 19 5) ((encY 0x23 p (a ++ 0#6 ++ d ++ 0#1)).extractLsb' 13 6) ((encY 0x23 p (a ++ 0#6 ++ d ++ 0#1)).extractLsb' 1 6)) = _
    rw [h0, h1, h2]
  exact ofSy rfl rfl rfl rfl rfl rfl rfl k

theorem Encoding.csav (o : SyOp) : Statement (.csav o) := fun _ _ => by
  have h0 : (encY 0x24 o.path (o.xa ++ o.xb ++ o.xd ++ 0#1)).extractLsb' 19 5 = o.path := ext_hi (ext_lo (ext_all _))
  have h1 : (encY 0x24 o.path (o.xa ++ o.xb ++ o.xd ++ 0#1)).extractLsb' 13 6 = o.xa := ext_lo (ext_hi (ext_hi (ext_hi (ext_all _))))
  have h2 : (encY 0x24 o.path (o.xa ++ o.xb ++ o.xd ++ 0#1)).extractLsb' 7 6 = o.xb := ext_lo (ext_hi (ext_hi (ext_lo (ext_all _))))
  have h3 : (encY 0x24 o.path (o.xa ++ o.xb ++ o.xd ++ 0#1)).extractLsb' 1 6 = o.xd := ext_lo (ext_hi (ext_lo (ext_all _)))
  have hop : (encY 0x24 o.path (o.xa ++ o.xb ++ o.xd ++ 0#1)).extractLsb' 24 8 = 0x24 := ext_hi (ext_hi (ext_all _))
  have k : fieldsSy (encY 0x24 o.path (o.xa ++ o.xb ++ o.xd ++ 0#1)) = some (.csav o) := by
    delta fieldsSy
    dsimp only
    rw [hop]
    show some (Instr.csav ⟨((encY 0x24 o.path (o.xa ++ o.xb ++ o.xd ++ 0#1)).extractLsb' 19 5), ((encY 0x24 o.path (o.xa ++ o.xb ++ o.xd ++ 0#1)).extractLsb' 13 6), ((encY 0x24 o.path (o.xa ++ o.xb ++ o.xd ++ 0#1)).extractLsb' 7 6), ((encY 0x24 o.path (o.xa ++ o.xb ++ o.xd ++ 0#1)).extractLsb' 1 6)⟩) = _
    rw [h0, h1, h2, h3]
  exact ofSy rfl rfl rfl rfl rfl rfl rfl k

theorem Encoding.crst (o : SyOp) : Statement (.crst o) := fun _ _ => by
  have h0 : (encY 0x25 o.path (o.xa ++ o.xb ++ o.xd ++ 0#1)).extractLsb' 19 5 = o.path := ext_hi (ext_lo (ext_all _))
  have h1 : (encY 0x25 o.path (o.xa ++ o.xb ++ o.xd ++ 0#1)).extractLsb' 13 6 = o.xa := ext_lo (ext_hi (ext_hi (ext_hi (ext_all _))))
  have h2 : (encY 0x25 o.path (o.xa ++ o.xb ++ o.xd ++ 0#1)).extractLsb' 7 6 = o.xb := ext_lo (ext_hi (ext_hi (ext_lo (ext_all _))))
  have h3 : (encY 0x25 o.path (o.xa ++ o.xb ++ o.xd ++ 0#1)).extractLsb' 1 6 = o.xd := ext_lo (ext_hi (ext_lo (ext_all _)))
  have hop : (encY 0x25 o.path (o.xa ++ o.xb ++ o.xd ++ 0#1)).extractLsb' 24 8 = 0x25 := ext_hi (ext_hi (ext_all _))
  have k : fieldsSy (encY 0x25 o.path (o.xa ++ o.xb ++ o.xd ++ 0#1)) = some (.crst o) := by
    delta fieldsSy
    dsimp only
    rw [hop]
    show some (Instr.crst ⟨((encY 0x25 o.path (o.xa ++ o.xb ++ o.xd ++ 0#1)).extractLsb' 19 5), ((encY 0x25 o.path (o.xa ++ o.xb ++ o.xd ++ 0#1)).extractLsb' 13 6), ((encY 0x25 o.path (o.xa ++ o.xb ++ o.xd ++ 0#1)).extractLsb' 7 6), ((encY 0x25 o.path (o.xa ++ o.xb ++ o.xd ++ 0#1)).extractLsb' 1 6)⟩) = _
    rw [h0, h1, h2, h3]
  exact ofSy rfl rfl rfl rfl rfl rfl rfl k

theorem Encoding.cnop  : Statement (.cnop) := fun _ _ => by
  have hop : (encC 0x00 0 0).extractLsb' 50 6 = 0x00 := ext_hi (ext_hi (ext_all _))
  have k : fieldsCtl (encC 0x00 0 0) = some (.cnop) := by
    delta fieldsCtl
    dsimp only
    rw [hop]
    show some Instr.cnop = _
    rfl
  exact ofCtl rfl rfl rfl rfl rfl rfl rfl rfl k

theorem Encoding.loop (p : Path) (e : BundleNo) (r : Bool) (n : BitVec 23) : Statement (.loop p e r n) := fun _ _ => by
  have h0 : (encC 0x01 p (e ++ bit r ++ n ++ 0#5)).extractLsb' 45 5 = p := ext_hi (ext_lo (ext_all _))
  have h1 : (encC 0x01 p (e ++ bit r ++ n ++ 0#5)).extractLsb' 29 16 = e := ext_lo (ext_hi (ext_hi (ext_hi (ext_all _))))
  have h2 : (encC 0x01 p (e ++ bit r ++ n ++ 0#5)).getLsbD 28 = r := get_lo (get_hi (get_hi (get_lo (bit_get _))))
  have h3 : (encC 0x01 p (e ++ bit r ++ n ++ 0#5)).extractLsb' 5 23 = n := ext_lo (ext_hi (ext_lo (ext_all _)))
  have hop : (encC 0x01 p (e ++ bit r ++ n ++ 0#5)).extractLsb' 50 6 = 0x01 := ext_hi (ext_hi (ext_all _))
  have k : fieldsCtl (encC 0x01 p (e ++ bit r ++ n ++ 0#5)) = some (.loop p e r n) := by
    delta fieldsCtl
    dsimp only
    rw [hop]
    show some (Instr.loop ((encC 0x01 p (e ++ bit r ++ n ++ 0#5)).extractLsb' 45 5) ((encC 0x01 p (e ++ bit r ++ n ++ 0#5)).extractLsb' 29 16) ((encC 0x01 p (e ++ bit r ++ n ++ 0#5)).getLsbD 28) ((encC 0x01 p (e ++ bit r ++ n ++ 0#5)).extractLsb' 5 23)) = _
    rw [h0, h1, h2, h3]
  exact ofCtl rfl rfl rfl rfl rfl rfl rfl rfl k

theorem Encoding.loopx (p : Path) (e : BundleNo) (r : Bool) (x : XReg) : Statement (.loopx p e r x) := fun _ _ => by
  have h0 : (encC 0x02 p (e ++ bit r ++ x ++ 0#22)).extractLsb' 45 5 = p := ext_hi (ext_lo (ext_all _))
  have h1 : (encC 0x02 p (e ++ bit r ++ x ++ 0#22)).extractLsb' 29 16 = e := ext_lo (ext_hi (ext_hi (ext_hi (ext_all _))))
  have h2 : (encC 0x02 p (e ++ bit r ++ x ++ 0#22)).getLsbD 28 = r := get_lo (get_hi (get_hi (get_lo (bit_get _))))
  have h3 : (encC 0x02 p (e ++ bit r ++ x ++ 0#22)).extractLsb' 22 6 = x := ext_lo (ext_hi (ext_lo (ext_all _)))
  have hop : (encC 0x02 p (e ++ bit r ++ x ++ 0#22)).extractLsb' 50 6 = 0x02 := ext_hi (ext_hi (ext_all _))
  have k : fieldsCtl (encC 0x02 p (e ++ bit r ++ x ++ 0#22)) = some (.loopx p e r x) := by
    delta fieldsCtl
    dsimp only
    rw [hop]
    show some (Instr.loopx ((encC 0x02 p (e ++ bit r ++ x ++ 0#22)).extractLsb' 45 5) ((encC 0x02 p (e ++ bit r ++ x ++ 0#22)).extractLsb' 29 16) ((encC 0x02 p (e ++ bit r ++ x ++ 0#22)).getLsbD 28) ((encC 0x02 p (e ++ bit r ++ x ++ 0#22)).extractLsb' 22 6)) = _
    rw [h0, h1, h2, h3]
  exact ofCtl rfl rfl rfl rfl rfl rfl rfl rfl k

theorem Encoding.lend  : Statement (.lend) := fun _ _ => by
  have hop : (encC 0x03 transferPath 0).extractLsb' 50 6 = 0x03 := ext_hi (ext_hi (ext_all _))
  have k : fieldsCtl (encC 0x03 transferPath 0) = some (.lend) := by
    delta fieldsCtl
    dsimp only
    rw [hop]
    show some Instr.lend = _
    rfl
  exact ofCtl rfl rfl rfl rfl rfl rfl rfl rfl k

theorem Encoding.lbrk (t : BundleNo) (d : BitVec 3) : Statement (.lbrk t d) := fun _ _ => by
  have h0 : (encC 0x04 transferPath (t ++ d ++ 0#26)).extractLsb' 29 16 = t := ext_lo (ext_hi (ext_hi (ext_all _)))
  have h1 : (encC 0x04 transferPath (t ++ d ++ 0#26)).extractLsb' 26 3 = d := ext_lo (ext_hi (ext_lo (ext_all _)))
  have hop : (encC 0x04 transferPath (t ++ d ++ 0#26)).extractLsb' 50 6 = 0x04 := ext_hi (ext_hi (ext_all _))
  have k : fieldsCtl (encC 0x04 transferPath (t ++ d ++ 0#26)) = some (.lbrk t d) := by
    delta fieldsCtl
    dsimp only
    rw [hop]
    show some (Instr.lbrk ((encC 0x04 transferPath (t ++ d ++ 0#26)).extractLsb' 29 16) ((encC 0x04 transferPath (t ++ d ++ 0#26)).extractLsb' 26 3)) = _
    rw [h0, h1]
  exact ofCtl rfl rfl rfl rfl rfl rfl rfl rfl k

theorem Encoding.call (t : BundleNo) : Statement (.call t) := fun _ _ => by
  have h0 : (encC 0x05 transferPath (t ++ 0#29)).extractLsb' 29 16 = t := ext_lo (ext_hi (ext_all _))
  have hop : (encC 0x05 transferPath (t ++ 0#29)).extractLsb' 50 6 = 0x05 := ext_hi (ext_hi (ext_all _))
  have k : fieldsCtl (encC 0x05 transferPath (t ++ 0#29)) = some (.call t) := by
    delta fieldsCtl
    dsimp only
    rw [hop]
    show some (Instr.call ((encC 0x05 transferPath (t ++ 0#29)).extractLsb' 29 16)) = _
    rw [h0]
  exact ofCtl rfl rfl rfl rfl rfl rfl rfl rfl k

theorem Encoding.callx (x : XReg) : Statement (.callx x) := fun _ _ => by
  have h0 : (encC 0x06 transferPath (x ++ 0#39)).extractLsb' 39 6 = x := ext_lo (ext_hi (ext_all _))
  have hop : (encC 0x06 transferPath (x ++ 0#39)).extractLsb' 50 6 = 0x06 := ext_hi (ext_hi (ext_all _))
  have k : fieldsCtl (encC 0x06 transferPath (x ++ 0#39)) = some (.callx x) := by
    delta fieldsCtl
    dsimp only
    rw [hop]
    show some (Instr.callx ((encC 0x06 transferPath (x ++ 0#39)).extractLsb' 39 6)) = _
    rw [h0]
  exact ofCtl rfl rfl rfl rfl rfl rfl rfl rfl k

theorem Encoding.ret  : Statement (.ret) := fun _ _ => by
  have hop : (encC 0x07 transferPath 0).extractLsb' 50 6 = 0x07 := ext_hi (ext_hi (ext_all _))
  have k : fieldsCtl (encC 0x07 transferPath 0) = some (.ret) := by
    delta fieldsCtl
    dsimp only
    rw [hop]
    show some Instr.ret = _
    rfl
  exact ofCtl rfl rfl rfl rfl rfl rfl rfl rfl k

theorem Encoding.jmpx (x : XReg) : Statement (.jmpx x) := fun _ _ => by
  have h0 : (encC 0x08 transferPath (x ++ 0#39)).extractLsb' 39 6 = x := ext_lo (ext_hi (ext_all _))
  have hop : (encC 0x08 transferPath (x ++ 0#39)).extractLsb' 50 6 = 0x08 := ext_hi (ext_hi (ext_all _))
  have k : fieldsCtl (encC 0x08 transferPath (x ++ 0#39)) = some (.jmpx x) := by
    delta fieldsCtl
    dsimp only
    rw [hop]
    show some (Instr.jmpx ((encC 0x08 transferPath (x ++ 0#39)).extractLsb' 39 6)) = _
    rw [h0]
  exact ofCtl rfl rfl rfl rfl rfl rfl rfl rfl k

theorem Encoding.ctlEnd (f : FlagIx) (x : XReg) : Statement (.ctlEnd f x) := fun _ _ => by
  have h0 : (encC 0x09 transferPath (f ++ x ++ 0#27)).extractLsb' 33 12 = f := ext_lo (ext_hi (ext_hi (ext_all _)))
  have h1 : (encC 0x09 transferPath (f ++ x ++ 0#27)).extractLsb' 27 6 = x := ext_lo (ext_hi (ext_lo (ext_all _)))
  have hop : (encC 0x09 transferPath (f ++ x ++ 0#27)).extractLsb' 50 6 = 0x09 := ext_hi (ext_hi (ext_all _))
  have k : fieldsCtl (encC 0x09 transferPath (f ++ x ++ 0#27)) = some (.ctlEnd f x) := by
    delta fieldsCtl
    dsimp only
    rw [hop]
    show some (Instr.ctlEnd ((encC 0x09 transferPath (f ++ x ++ 0#27)).extractLsb' 33 12) ((encC 0x09 transferPath (f ++ x ++ 0#27)).extractLsb' 27 6)) = _
    rw [h0, h1]
  exact ofCtl rfl rfl rfl rfl rfl rfl rfl rfl k

theorem Encoding.yield (p : Path) : Statement (.yield p) := fun _ _ => by
  have h0 : (encC 0x0A p 0).extractLsb' 45 5 = p := ext_hi (ext_lo (ext_all _))
  have hop : (encC 0x0A p 0).extractLsb' 50 6 = 0x0A := ext_hi (ext_hi (ext_all _))
  have k : fieldsCtl (encC 0x0A p 0) = some (.yield p) := by
    delta fieldsCtl
    dsimp only
    rw [hop]
    show some (Instr.yield ((encC 0x0A p 0).extractLsb' 45 5)) = _
    rw [h0]
  exact ofCtl rfl rfl rfl rfl rfl rfl rfl rfl k

theorem Encoding.clus (p : Path) (c : BitVec 4) : Statement (.clus p c) := fun _ _ => by
  have h0 : (encC 0x0B p (c ++ 0#41)).extractLsb' 45 5 = p := ext_hi (ext_lo (ext_all _))
  have h1 : (encC 0x0B p (c ++ 0#41)).extractLsb' 41 4 = c := ext_lo (ext_hi (ext_all _))
  have hop : (encC 0x0B p (c ++ 0#41)).extractLsb' 50 6 = 0x0B := ext_hi (ext_hi (ext_all _))
  have k : fieldsCtl (encC 0x0B p (c ++ 0#41)) = some (.clus p c) := by
    delta fieldsCtl
    dsimp only
    rw [hop]
    show some (Instr.clus ((encC 0x0B p (c ++ 0#41)).extractLsb' 45 5) ((encC 0x0B p (c ++ 0#41)).extractLsb' 41 4)) = _
    rw [h0, h1]
  exact ofCtl rfl rfl rfl rfl rfl rfl rfl rfl k

theorem Encoding.rrot (p : Path) (s : Bool) (v : BitVec 4) (m : BitVec 3) : Statement (.rrot p s v m) := fun _ _ => by
  have h0 : (encC 0x0C p (bit s ++ v ++ m ++ 0#37)).extractLsb' 45 5 = p := ext_hi (ext_lo (ext_all _))
  have h1 : (encC 0x0C p (bit s ++ v ++ m ++ 0#37)).getLsbD 44 = s := get_lo (get_hi (get_hi (get_hi (bit_get _))))
  have h2 : (encC 0x0C p (bit s ++ v ++ m ++ 0#37)).extractLsb' 40 4 = v := ext_lo (ext_hi (ext_hi (ext_lo (ext_all _))))
  have h3 : (encC 0x0C p (bit s ++ v ++ m ++ 0#37)).extractLsb' 37 3 = m := ext_lo (ext_hi (ext_lo (ext_all _)))
  have hop : (encC 0x0C p (bit s ++ v ++ m ++ 0#37)).extractLsb' 50 6 = 0x0C := ext_hi (ext_hi (ext_all _))
  have k : fieldsCtl (encC 0x0C p (bit s ++ v ++ m ++ 0#37)) = some (.rrot p s v m) := by
    delta fieldsCtl
    dsimp only
    rw [hop]
    show some (Instr.rrot ((encC 0x0C p (bit s ++ v ++ m ++ 0#37)).extractLsb' 45 5) ((encC 0x0C p (bit s ++ v ++ m ++ 0#37)).getLsbD 44) ((encC 0x0C p (bit s ++ v ++ m ++ 0#37)).extractLsb' 40 4) ((encC 0x0C p (bit s ++ v ++ m ++ 0#37)).extractLsb' 37 3)) = _
    rw [h0, h1, h2, h3]
  exact ofCtl rfl rfl rfl rfl rfl rfl rfl rfl k

theorem Encoding.trapc (p : Path) (t : BitVec 16) : Statement (.trapc p t) := fun _ _ => by
  have h0 : (encC 0x0D p (t ++ 0#29)).extractLsb' 45 5 = p := ext_hi (ext_lo (ext_all _))
  have h1 : (encC 0x0D p (t ++ 0#29)).extractLsb' 29 16 = t := ext_lo (ext_hi (ext_all _))
  have hop : (encC 0x0D p (t ++ 0#29)).extractLsb' 50 6 = 0x0D := ext_hi (ext_hi (ext_all _))
  have k : fieldsCtl (encC 0x0D p (t ++ 0#29)) = some (.trapc p t) := by
    delta fieldsCtl
    dsimp only
    rw [hop]
    show some (Instr.trapc ((encC 0x0D p (t ++ 0#29)).extractLsb' 45 5) ((encC 0x0D p (t ++ 0#29)).extractLsb' 29 16)) = _
    rw [h0, h1]
  exact ofCtl rfl rfl rfl rfl rfl rfl rfl rfl k

theorem Encoding.bundleIssue : Statement .bundleIssue := fun _ h => absurd rfl h

theorem Encoding.resultLands : Statement .resultLands := fun _ h => absurd rfl h

theorem Encoding.longLoadArrival : Statement .longLoadArrival := fun _ h => absurd rfl h

theorem Encoding.releaseLands : Statement .releaseLands := fun _ h => absurd rfl h

theorem Encoding.seatingComplete : Statement .seatingComplete := fun _ h => absurd rfl h

theorem Encoding.unseatingComplete : Statement .unseatingComplete := fun _ h => absurd rfl h

theorem Encoding.unseatAtPreEmptionPoint : Statement .unseatAtPreEmptionPoint := fun _ h => absurd rfl h

theorem Encoding.park : Statement .park := fun _ h => absurd rfl h

theorem Encoding.preEmptionDeadline : Statement .preEmptionDeadline := fun _ h => absurd rfl h

theorem Encoding.clusterWakeComplete : Statement .clusterWakeComplete := fun _ h => absurd rfl h

theorem Encoding.bankRelease : Statement .bankRelease := fun _ h => absurd rfl h

theorem Encoding.eventRecordPush : Statement .eventRecordPush := fun _ h => absurd rfl h

theorem Encoding.translationWalkComplete : Statement .translationWalkComplete := fun _ h => absurd rfl h

theorem Encoding.reTranslation : Statement .reTranslation := fun _ h => absurd rfl h

theorem Encoding.amosEnd : Statement .amosEnd := fun _ h => absurd rfl h

theorem Encoding.computeOpStart : Statement .computeOpStart := fun _ h => absurd rfl h

theorem Encoding.computeStepEntry : Statement .computeStepEntry := fun _ h => absurd rfl h

theorem Encoding.computeOpComplete : Statement .computeOpComplete := fun _ h => absurd rfl h

theorem Encoding.cdrnStart : Statement .cdrnStart := fun _ h => absurd rfl h

theorem Encoding.cdrnComplete : Statement .cdrnComplete := fun _ h => absurd rfl h

theorem Encoding.cswpStart : Statement .cswpStart := fun _ h => absurd rfl h

theorem Encoding.ccurStart : Statement .ccurStart := fun _ h => absurd rfl h

theorem Encoding.cringStart : Statement .cringStart := fun _ h => absurd rfl h

theorem Encoding.cwaitStart : Statement .cwaitStart := fun _ h => absurd rfl h

theorem Encoding.csigStart : Statement .csigStart := fun _ h => absurd rfl h

theorem Encoding.crailStart : Statement .crailStart := fun _ h => absurd rfl h

theorem Encoding.cqryRecordWritten : Statement .cqryRecordWritten := fun _ h => absurd rfl h

theorem Encoding.rendezvousArrival : Statement .rendezvousArrival := fun _ h => absurd rfl h

theorem Encoding.reshapeTakesEffect : Statement .reshapeTakesEffect := fun _ h => absurd rfl h

theorem Encoding.contextIdsFreed : Statement .contextIdsFreed := fun _ h => absurd rfl h

theorem Encoding.layoutRecordArrival : Statement .layoutRecordArrival := fun _ h => absurd rfl h

theorem Encoding.apertureCopyStart : Statement .apertureCopyStart := fun _ h => absurd rfl h

theorem Encoding.copyStart : Statement .copyStart := fun _ h => absurd rfl h

theorem Encoding.streamSheetPoppable : Statement .streamSheetPoppable := fun _ h => absurd rfl h

theorem Encoding.copyComplete : Statement .copyComplete := fun _ h => absurd rfl h

theorem Encoding.copyError : Statement .copyError := fun _ h => absurd rfl h

theorem Encoding.cpdrnComplete : Statement .cpdrnComplete := fun _ h => absurd rfl h

theorem Encoding.cprdRecordWritten : Statement .cprdRecordWritten := fun _ h => absurd rfl h

theorem Encoding.postAtHome : Statement .postAtHome := fun _ h => absurd rfl h

theorem Encoding.postReply : Statement .postReply := fun _ h => absurd rfl h

theorem Encoding.windowChangeApplies : Statement .windowChangeApplies := fun _ h => absurd rfl h

theorem Encoding.contextSaveComplete : Statement .contextSaveComplete := fun _ h => absurd rfl h

theorem Encoding.contextRestoreComplete : Statement .contextRestoreComplete := fun _ h => absurd rfl h

theorem Encoding.cardAccept : Statement .cardAccept := fun _ h => absurd rfl h

theorem Encoding.acceptanceTimeout : Statement .acceptanceTimeout := fun _ h => absurd rfl h

theorem Encoding.dispatch : Statement .dispatch := fun _ h => absurd rfl h

theorem Encoding.pendingPriorityHold : Statement .pendingPriorityHold := fun _ h => absurd rfl h

theorem Encoding.schedulerSeat : Statement .schedulerSeat := fun _ h => absurd rfl h

theorem Encoding.jobEnd : Statement .jobEnd := fun _ h => absurd rfl h

theorem Encoding.queueRotation : Statement .queueRotation := fun _ h => absurd rfl h

theorem Encoding.frameReceived : Statement .frameReceived := fun _ h => absurd rfl h

theorem Encoding.linkRetraining : Statement .linkRetraining := fun _ h => absurd rfl h

theorem Encoding.writeCell : Statement .writeCell := fun _ h => absurd rfl h

theorem Encoding.readRequest : Statement .readRequest := fun _ h => absurd rfl h

theorem Encoding.readReply : Statement .readReply := fun _ h => absurd rfl h

theorem Encoding.atomicRequest : Statement .atomicRequest := fun _ h => absurd rfl h

theorem Encoding.atomicReply : Statement .atomicReply := fun _ h => absurd rfl h

theorem Encoding.acknowledgement : Statement .acknowledgement := fun _ h => absurd rfl h

theorem Encoding.errorReply : Statement .errorReply := fun _ h => absurd rfl h

theorem Encoding.flagWriteCell : Statement .flagWriteCell := fun _ h => absurd rfl h

theorem Encoding.postCell : Statement .postCell := fun _ h => absurd rfl h

theorem Encoding.reservationReply : Statement .reservationReply := fun _ h => absurd rfl h

theorem Encoding.requestTimeout : Statement .requestTimeout := fun _ h => absurd rfl h

theorem Encoding.leaseOffer : Statement .leaseOffer := fun _ h => absurd rfl h

theorem Encoding.leaseAcceptance : Statement .leaseAcceptance := fun _ h => absurd rfl h

theorem Encoding.zeroingConfirmation : Statement .zeroingConfirmation := fun _ h => absurd rfl h

theorem Encoding.recallRequest : Statement .recallRequest := fun _ h => absurd rfl h

theorem Encoding.recall : Statement .recall := fun _ h => absurd rfl h

theorem Encoding.recallAcknowledgement : Statement .recallAcknowledgement := fun _ h => absurd rfl h

theorem Encoding.discardSet : Statement .discardSet := fun _ h => absurd rfl h

theorem Encoding.recallDone : Statement .recallDone := fun _ h => absurd rfl h

theorem Encoding.doneAcknowledgement : Statement .doneAcknowledgement := fun _ h => absurd rfl h

theorem Encoding.recallDeadline : Statement .recallDeadline := fun _ h => absurd rfl h

theorem Encoding.ownershipFlip : Statement .ownershipFlip := fun _ h => absurd rfl h

theorem Encoding.hostFlipRequest : Statement .hostFlipRequest := fun _ h => absurd rfl h

theorem Encoding.flipBackToHost : Statement .flipBackToHost := fun _ h => absurd rfl h

theorem Encoding.hostRequest : Statement .hostRequest := fun _ h => absurd rfl h

theorem Encoding.linkFrame : Statement .linkFrame := fun _ h => absurd rfl h

theorem Encoding.linkDownTimeout : Statement .linkDownTimeout := fun _ h => absurd rfl h

theorem Encoding.droopBegin : Statement .droopBegin := fun _ h => absurd rfl h

theorem Encoding.droopClear : Statement .droopClear := fun _ h => absurd rfl h

theorem Encoding.hopComplete : Statement .hopComplete := fun _ h => absurd rfl h

theorem Encoding.holdLowEnd : Statement .holdLowEnd := fun _ h => absurd rfl h

theorem Encoding.coneSample : Statement .coneSample := fun _ h => absurd rfl h

theorem Encoding.damperRecompute : Statement .damperRecompute := fun _ h => absurd rfl h

theorem Encoding.damperPeriod : Statement .damperPeriod := fun _ h => absurd rfl h

theorem Encoding.coldStart : Statement .coldStart := fun _ h => absurd rfl h

theorem Encoding.unitReady : Statement .unitReady := fun _ h => absurd rfl h

theorem Encoding.selfTestEnd : Statement .selfTestEnd := fun _ h => absurd rfl h

theorem Encoding.patrolInterval : Statement .patrolInterval := fun _ h => absurd rfl h

theorem Encoding.warmReset : Statement .warmReset := fun _ h => absurd rfl h

theorem Encoding.instructionStoreLoadComplete : Statement .instructionStoreLoadComplete := fun _ h => absurd rfl h

theorem Encoding.attestationRequest : Statement .attestationRequest := fun _ h => absurd rfl h

theorem Encoding.storePerformed : Statement .storePerformed := fun _ h => absurd rfl h

theorem Encoding.frameSend : Statement .frameSend := fun _ h => absurd rfl h

theorem Encoding.hostLinkRetraining : Statement .hostLinkRetraining := fun _ h => absurd rfl h

theorem Encoding.leaseOfferAnswer : Statement .leaseOfferAnswer := fun _ h => absurd rfl h

theorem Encoding.recallRefused : Statement .recallRefused := fun _ h => absurd rfl h

theorem Encoding.granuleZeroingRequest : Statement .granuleZeroingRequest := fun _ h => absurd rfl h

theorem Encoding.fallbackZeroingComplete : Statement .fallbackZeroingComplete := fun _ h => absurd rfl h

theorem Encoding.streamSheetWritten : Statement .streamSheetWritten := fun _ h => absurd rfl h

theorem Encoding.patrolRead : Statement .patrolRead := fun _ h => absurd rfl h

end Sys2Proof.Laws
end

