-- ==== Sys2Proof/Tests/Slice0.lean ====
section
/-! SUPPORT. Tests: each instruction's word, each check of `WellFormed`, that each instruction runs on a small state, and
for each statement with hypotheses a state and operands that meet them. The words and values are written out from the rules
cited. -/

namespace Sys2Proof.Tests
open Sys2Proof Sys2Proof.Machine

set_option Elab.async false

/-- The condition of `State.Sole`, as a check. -/
def sole (s : State) (b : Nat) : Bool :=
  s.seated s.core.running == some b && (List.range 4).filterMap s.seated == [b] && s.hasCtx b && s.holdsWidth &&
  s.awaiting.all fun k => k == b || ((s.fetched k).held s k).isNone

/-- The condition of `State.CanIssue`, as a check. -/
def mayIssue (s : State) (b : Nat) (i : Instr) : Bool :=
  sole s b && s.energyOk 0 && (s.ctx b).legal i && executes (semOf i).path .e && (!(semOf i).priv || (s.ctx b).priv) &&
  !(semOf i).interlocked s b

/-- The condition of `State.Issues`, as a check. -/
def canIssue (s : State) (b : Nat) (i : Instr) : Bool :=
  mayIssue s b i && ((semOf i).stall s b).isNone && !s.chansOver ((semOf i).chans s b)

/-- The condition of `State.Runs`, as a check. -/
def runs (s : State) (b : Nat) (i : Instr) : Bool :=
  canIssue s b i && ((semOf i).cause s b).isNone && ((semOf i).check s b s).isNone

theorem sole_of_check {s : State} {b : Nat} (h : sole s b = true) : s.Sole b := by
  simp only [sole, Bool.and_eq_true, beq_iff_eq, List.all_eq_true, Bool.or_eq_true, Option.isNone_iff_eq_none] at h
  obtain ⟨⟨⟨⟨a, c⟩, d⟩, e⟩, f⟩ := h
  exact ⟨a, c, d, e, fun k m n => (f k m).resolve_left n⟩

theorem mayIssue_of_check {s : State} {b : Nat} {i : Instr} (h : mayIssue s b i = true) : s.CanIssue b i (semOf i) := by
  simp only [mayIssue, Bool.and_eq_true, Bool.not_eq_true', Bool.or_eq_true] at h
  obtain ⟨⟨⟨⟨⟨a, c⟩, d⟩, e⟩, f⟩, g⟩ := h
  exact ⟨⟨sole_of_check a, c⟩, d, e, fun q => by simpa [q] using f, g⟩

theorem issues_of_canIssue {s : State} {b : Nat} {i : Instr} (h : canIssue s b i = true) : s.Issues b i := by
  simp only [canIssue, Bool.and_eq_true, Bool.not_eq_true', Option.isNone_iff_eq_none] at h
  exact ⟨mayIssue_of_check h.1.1, h.1.2, h.2⟩

theorem runs_of_check {s : State} {b : Nat} {i : Instr} (h : runs s b i = true) : s.Runs b i := by
  simp only [runs, Bool.and_eq_true, Option.isNone_iff_eq_none] at h
  exact ⟨issues_of_canIssue h.1.1, h.1.2, h.2⟩

theorem all_run {s : State} {b : Nat} {l : List Instr} (h : l.all (runs s b) = true) : ∀ i ∈ l, s.Runs b i :=
  fun i m => runs_of_check (List.all_eq_true.mp h i m)

theorem all_issue {s : State} {b : Nat} {l : List Instr} (h : l.all (canIssue s b) = true) : ∀ i ∈ l, s.Issues b i :=
  fun i m => issues_of_canIssue (List.all_eq_true.mp h i m)

theorem all_may {s : State} {b : Nat} {l : List Instr} (h : l.all (mayIssue s b) = true) : ∀ i ∈ l, s.CanIssue b i (semOf i) :=
  fun i m => mayIssue_of_check (List.all_eq_true.mp h i m)

def p1 : Path := 0x1F

/-- The steward with some scalars, a handle, a mask of one lane, a bound stream and a loop, at bundle 100. -/
def busy : Ctx :=
  { Ctx.steward 100 with
    x := [(1, ⟨0x1000, false⟩), (2, ⟨7, false⟩), (3, ⟨0x40400000, false⟩), (4, ⟨8, false⟩), (5, ⟨0x2000, false⟩)]
    h := [(1, { hst := .valid, acause := false, lease := 0, frame := 1, attr := 3, vbase := 0, xw := true, tasid := 0 })]
    streams := [(1, { Stream.none with dir := .output, chan := 3, total := 1 })]
    m := [(1, ⟨1, 0⟩)]
    loops := [⟨false, 90, 0, 2⟩] }

/-- The record of layout 1 of ASID 0: eight elements of 4 bytes. -/
def rec1 : LRec :=
  { LRec.none with valid := true, asid := 0, cnt := [8, 1, 1, 1], sstr := [4, 32, 32, 32], dstr := [4, 32, 32, 32], ssz := 4 }

def ring0 : RingCfg := { ring := 0, face := 0, plane := false, gp := 0, mx := false, slots := 4, sk := 1, base := 0, lmask := 1 }

def ring1 : RingCfg := { ring := 1, face := 2, plane := false, gp := 0, mx := false, slots := 4, sk := 8, base := 0, lmask := 1 }

def ringOf (c : RingCfg) (gen : Nat) : Machine.Ring :=
  { cfg := c, gen := gen, fill := 0, head := 0, tail := 0, rptr := 0, counted := 0, claims := [] }

/-- A machine in which partition 0, one block, belongs to the steward, with an input and an output ring. -/
def ready : State :=
  let part : Machine.Part :=
    { Machine.Part.none with kind := .part, bank := 15, quads := 1, rings := [(0, ringOf ring0 1), (1, { ringOf ring1 2 with fill := 4 })] }
  let v : TailP := { TailP.zero with kind := .part, quads := 1, rings := [(0, (1, ring0)), (1, (2, ring1))] }
  { State.reset with
    core := { Core.reset with banks := [(15, busy)] }
    cube := { Cube.reset with parts := [(0, part)], tails := [(0, v)] }
    ms := { MemSys.reset with laycache := [⟨0, 1, rec1⟩], ltb := [(0, 0x1000000000001)], flags := [(4032, ⟨1, false⟩)] }
    plat := { Plat.reset with rhbm := [0, 1, 2, 3, 4, 5, 6, 7] } }

def s0s : List Instr :=
  [.add p1 5 1 2, .sub p1 5 1 2, .addi p1 5 1 24, .mul p1 5 1 2, .mulh p1 5 1 2, .mulhu p1 5 1 2, .madd p1 5 1 2 3,
   .div p1 5 1 2, .divu p1 5 1 2, .rem p1 5 1 2, .remu p1 5 1 2, .and p1 5 1 2, .or p1 5 1 2, .xor p1 5 1 2, .andn p1 5 1 2,
   .andi p1 5 1 24, .ori p1 5 1 24, .xori p1 5 1 24, .shl p1 5 1 2, .shr p1 5 1 2, .sra p1 5 1 2, .shli p1 5 1 24,
   .shri p1 5 1 24, .srai p1 5 1 24, .ror p1 5 1 2, .rori p1 5 1 24, .clz p1 5 1, .ctz p1 5 1, .popc p1 5 1,
   .bext p1 5 1 false 64 0, .bext p1 5 1 true 1 63, .bins p1 5 1 2 64 0, .brev p1 5 1, .min p1 5 1 2, .max p1 5 1 2,
   .minu p1 5 1 2, .maxu p1 5 1 2, .sel p1 5 4095 1 2, .abs p1 5 1, .movi p1 5 24, .movhi p1 5 1 24,
   .cmp p1 11 4 1 2, .cmpi p1 0 4 1 24, .lix p1 5 0, .lcnt p1 5 0, .fadds p1 5 1 2 .rne, .fsubs p1 5 1 2 .dyn,
   .fmuls p1 5 1 2 .rtz, .ffmas p1 5 1 2 3 .rup, .fmins p1 5 1 2, .fmaxs p1 5 1 2, .fcmps p1 7 4 1 2,
   .fcvtis p1 5 1 3 .sr, .fcvtsi p1 5 1 0 true .rne, .frcps p1 5 1, .xlt p1 2 1, .xltw p1 2 1, .xltwG p1 2 1 4, .hinv p1 true 0,
   .hrd p1 5 1 false, .hchk p1 4 1 true, .crd p1 5 0x190, .cwr p1 0x010 1, .fpxWrite p1 2, .basidWrite p1 2, .ltbWrite p1 0,
   .qmapWrite p1 63 0, .isldWrite p1 2, .egrantWrite p1 2]

def vo (ty : ETy) (a b c : BitVec 9) (imm : BitVec 30) : VOp :=
  { path := p1, ty := ty, vd := 1, a := a, b := b, c := c, mask := 0, mz := false, rnd := .rne, sat := false, xb := 0, imm := imm }

def vs : List Instr :=
  [.vadd (vo .f32 2 67 0 0), .vsub (vo .i32 2 67 0 0), .vmul (vo .n8 2 67 0 0), .vfma (vo .f16 2 67 132 0), .vfms (vo .f32 2 67 132 0),
   .vfnma (vo .f32 2 67 132 0), .vmin (vo .f32 2 67 0 0), .vmax (vo .f32 2 67 0 0), .vabs (vo .f32 2 0 0 0), .vneg (vo .f32 2 0 0 0),
   .vclamp (vo .f32 2 67 132 0), .vdot2 (vo .bf16 2 67 132 0), .vdot4 (vo .n8 2 67 132 0), .vand (vo .b32 2 67 0 0), .vor (vo .b32 2 67 0 0),
   .vxor (vo .b32 2 67 0 0), .vnot (vo .b32 2 0 0 0), .vshl (vo .i32 2 67 0 0), .vshr (vo .i32 2 0 0 0x2000001F),
   .vsra (vo .i32 2 67 0 0), .vrshr (vo .i32 2 67 0 0), .vmulh (vo .i32 2 67 0 0), .vmov (vo .b32 2 0 0 0), .vfill (vo .i32 0 0 0 5),
   .vidx (vo .i32 0 0 0 2), .vcmp (vo .f32 2 67 0 7), .vsel (vo .b32 2 67 0 0), .mset (vo .f32 0 0 0 1), .mlog (vo .f32 1 2 0 8),
   .mpopc (vo .f32 1 0 0 1), .vcvt (vo .f32 2 0 0 6), .vpack (vo .f16 2 67 0 0), .vunpk (vo .f32 2 0 0 1), .vqnt (vo .i8 2 67 0 0),
   .vdqnt (vo .f32 2 67 0 10), .vrcp (vo .f32 2 0 0 0), .vrsq (vo .f32 2 0 0 0), .vexp2 (vo .f32 2 0 0 0), .vlog2 (vo .f32 2 0 0 0),
   .vtanh (vo .f32 2 0 0 0), .vredr (vo .f32 2 0 0 2), .vredc (vo .f32 2 0 0 0), .vscanr (vo .f32 2 0 0 0), .vmvr (vo .b32 2 0 0 63),
   .vmvc (vo .b32 2 0 0 511), .vperm (vo .b32 2 67 0 0), .vcswp (vo .i32 2 0 0 0x10), .vtrb (vo .b32 2 0 0 0)]

def mo (reg : BitVec 6) : MemOp := { path := p1, mode := .spad, reg := reg, base := 1, hnd := 0, pitch := 0, mask := 0, ofs := 0 }

def ho (reg : BitVec 6) : MemOp := { path := p1, mode := .handle, reg := reg, base := 0, hnd := 1, pitch := 0, mask := 0, ofs := 0 }

def ao (op : BitVec 5) (w : BitVec 3) (r c : XReg) : AmoOp := { aop := op, aw := w, ord := 0, scp := .pkg, xr := r, xc := c }

def ms : List Instr :=
  [.lds (mo 1) false, .ldr (mo 1) 0, .lds2 (ho 1) 32 1 0 false, .ldx (mo 6) 6, .ldb (mo 1) false, .ldg { mo 1 with mask := 1 } 2 false, .ldm (mo 1),
   .sts (mo 1) 6, .str (mo 1) 6 63, .sts2 (ho 1) 6 32 1 0, .stx (mo 2) 6, .stn (mo 1) 6 false, .stsc { mo 1 with mask := 1 } 6 2, .stm (mo 1),
   .amo (mo 2) (ao 0 2 0 0), .amof (mo 2) (ao 7 2 6 2), .amos { mo 1 with mask := 1 } 6 0 2 .pkg 2]

def cm : CmmOp :=
  { path := p1, part := 0, mm1 := 0, nm1 := 0, k := 24, lmask := 1, ain := 9, bin := 8, fmt := 0, init := true, acc := false,
    t := false, keepa := false, keepb := false, cflag := 0 }

def cd : CdrnOp :=
  { path := p1, part := 0, mm1 := 0, nm1 := 0, dlay := 0, east := false, dfmt := 0, rnd := 0, sat := false, shift := 0, ring := 1
    acc := false, cflag := 0 }

def cpt : CpartOp :=
  { path := p1, part := 0, srcm := 1, na := 1, af := 0, al := 0, aq := 1, bv := false, nb := 0, bf := 0, bl := 0, bq := 0
    dsc := false, cflag := 30 }

def cpo : CpOp :=
  { path := p1, ch := 3, layout := 1, smode := .spad, shnd := 0, sx := 1, dmode := .spad, dhnd := 0, dx := 5, cflag := 40
    rflag := false, bflag := 0 }

def cs : List Instr :=
  [.cmm cm, .cmmp cm, .czro p1 0 1 true false, .cdrn cd, .cswp p1 0 true true, .ccur p1 0 true 5,
   .cring p1 0 { ring := 2, face := 0, plane := false, gp := 0, mx := false, slots := 0, sk := 0, base := 0, lmask := 0 },
   .cwait p1 0 4, .csig p1 0 4, .crail p1 0 false, .cpart cpt, .cfree p1 0 true 4, .csusp p1 0 4, .cresm p1 0, .cqry p1 0 0 0x80 true 4,
   .cqry p1 0 0 0x80 false 4, .cpy cpo false, .cpys { cpo with sx := 0 } false true 2, .cpyw { cpo with dx := 0 } false 0 true 0, .cpyr { cpo with dx := 0 } false 0 0,
   .cpdrn p1 3 4, .cprd p1 3 1 4, .cpub p1 3 1 4]

def so (a b d : XReg) : SyOp := { path := p1, xa := a, xb := b, xd := d }

def ys : List Instr :=
  [.fset p1 4 true, .fclr p1 4, .fwait p1 4095, .fwaitGe p1 4095 0, .fwany p1 4032 2, .faddc p1 4 2 true, .fwr p1 4 2 false,
   .binit p1 4092 2, .barv p1 2 2 false, .bexp p1 2 2 true, .bwait p1 2 6, .fence p1 3 .pkg, .radv p1 0 0 1, .rwait p1 0 0 1,
   .post p1 5 1 6, .evpop p1 1 6, .loffer p1 1 6, .lacc p1 1 6, .lrcl (so 2 2 6), .ldisc (so 2 2 6), .lret p1 2 6 false, .lqry (so 2 1 6),
   .frsv p1 2 6, .frel p1 2, .wset p1 1 6, .cseat (so 2 2 6), .cuns p1 2 6, .crsm p1 2 6, .crsmAt (so 2 2 6), .ckil p1 2 6,
   .csav (so 2 2 6), .crst (so 2 2 6)]

def ts : List Instr :=
  [.cnop, .loop p1 110 false 3, .loopx p1 110 true 2, .lend, .lbrk 110 1, .call 110, .callx 2, .ret, .jmpx 2, .ctlEnd 4 2, .yield p1, .clus p1 0,
   .rrot p1 true 1 1]

/-! ## Well-formedness: one ill-formed term for each check -/

def bad (f : VOp → VOp) : VOp := f (vo .f32 2 67 0 0)

def illFormed : List Instr :=
  [.add 0 5 1 2, .madd 0 5 1 2 3, .bext p1 5 1 false 0 0, .bext p1 5 1 false 65 0, .bext p1 5 1 false 2 63, .bins p1 5 1 2 0 0,
   .cmp p1 12 4 1 2, .cmpi p1 12 4 1 0, .lix p1 5 6, .lcnt p1 5 6, .fadds p1 5 1 2 .sr, .ffmas p1 5 1 2 3 .sr, .fcmps p1 8 4 1 2,
   .fcvtis p1 5 1 4 .rne, .fcvtsi p1 5 1 4 false .rne, .hinv p1 true 1, .crd p1 5 0x006, .cwr p1 0x006 1, .cwr p1 0x002 1, .fpxWrite 0 1,
   .lds { mo 1 with hnd := 1 } false, .lds (mo 32) false, .ldr { mo 1 with pitch := 1 } 0, .ldm { mo 1 with mask := 1 }, .ldm (mo 16),
   .lds2 (mo 1) 32 1 0 false, .lds2 (ho 1) 0 1 0 false, .ldx (mo 6) 7, .ldx { mo 6 with mask := 1 } 6, .ldb { mo 1 with pitch := 1 } false,
   .ldg (mo 32) 2 false, .sts (mo 36) 6, .str (mo 32) 6 0, .sts2 (ho 1) 6 0 1 0, .stx (mo 2) 0, .stn (mo 32) 6 false,
   .stsc { mo 1 with pitch := 1 } 6 2, .stm { mo 1 with mask := 1 }, .amo (mo 2) (ao 9 2 0 0), .amo (mo 2) (ao 0 3 0 0),
   .amo (mo 2) (ao 0 2 6 0), .amo (mo 2) (ao 0 2 0 2), .amof (mo 2) (ao 0 2 6 2), .amof (mo 2) (ao 7 1 6 2), .amos (mo 1) 6 6 2 .pkg 2,
   .amos (mo 1) 6 0 4 .pkg 2,
   .cmm { cm with lmask := 0 }, .cmm { cm with ain := 10 }, .cmm { cm with bin := 10 }, .cmm { cm with fmt := 10 }, .cmm { cm with ain := 8 },
   .cmmp { cm with bin := 9 }, .cmmp { cm with t := true }, .czro p1 0 0 true true, .cdrn { cd with dlay := 12 }, .cdrn { cd with dfmt := 9 },
   .cdrn { cd with rnd := 5, dfmt := 1 }, .cdrn { cd with rnd := 1 }, .cdrn { cd with shift := 1 }, .cswp p1 0 false false,
   .cring p1 0 { ring0 with slots := 0 }, .cring p1 0 { ring0 with sk := 0 }, .cring p1 0 { ring0 with lmask := 0 },
   .cring p1 0 { ring0 with gp := 3 }, .cring p1 0 { ring1 with plane := true }, .cring p1 0 { ring1 with gp := 1 },
   .cring p1 0 { ring1 with mx := true }, .cring p1 0 { ring1 with lmask := 3 }, .cwait p1 0 0, .csig p1 0 4094, .crail 0 0 true,
   .cpart { cpt with srcm := 2 }, .cpart { cpt with af := 1 }, .cpart { cpt with al := 12 }, .cpart { cpt with aq := 6 },
   .cpart { cpt with bv := true, na := 1, nb := 1, bq := 1 }, .cpart { cpt with nb := 1 }, .cjoin p1 4 0 1 1 0 0 false 0,
   .cjoin p1 1 0 0 1 0 0 false 0, .cjoin p1 4 0 0 1 2 0 false 0, .cjoin p1 4 1 0 1 2 2 false 0, .csplit 0 4 true 0,
   .cpy { cpo with shnd := 1 } false, .cpy { cpo with dhnd := 1 } false, .cpy { cpo with cflag := 4094 } false, .cpy { cpo with bflag := 3 } false,
   .cpy { cpo with layout := 0 } false, .cpy { cpo with cflag := 0 } true, .cpys { cpo with sx := 0, rflag := true } false false 2,
   .cpys cpo false true 2, .cpys cpo false false 2, .cpyw { cpo with dmode := .handle } false 0 true 0,
   .cpyr cpo false 0 0, .cpdrn p1 3 0, .cprd p1 3 1 4094, .cpub p1 3 1 4095, .fset 0 4 true, .fwait p1 4094, .fwany p1 4033 2,
   .binit p1 3 2, .barv p1 0 2 false, .bexp p1 4094 2 true, .bwait p1 5 6, .fence p1 0 .pkg, .radv p1 0 0 0, .rwait p1 0 0 0,
   .lrcl { path := 0, xa := 2, xb := 2, xd := 6 }, .lbrk 110 0, .lbrk 110 7, .yield 0,
   .vadd (bad fun o => { o with path := 0 }), .vadd (bad fun o => { o with ty := .b32 }), .vadd (bad fun o => { o with rnd := .sr }),
   .vand (bad id), .vabs (bad fun o => { o with rnd := .rtz, b := 0 }), .vadd (bad fun o => { o with sat := true, imm := 1 }),
   .vmin (bad fun o => { o with sat := true }), .vsel (bad fun o => { o with ty := .b32, mz := true }), .vadd (bad fun o => { o with a := 36 }),
   .vadd (bad fun o => { o with b := 104 }), .vadd (bad fun o => { o with c := 1 }), .mlog (vo .f32 16 2 0 8), .vadd (bad fun o => { o with vd := 36 }),
   .vcmp (bad fun o => { o with vd := 16 }), .vadd (bad fun o => { o with vd := 32, mask := 1 }), .vadd (bad fun o => { o with xb := 1 }),
   .vshr (vo .i32 2 67 0 0x2000001F), .vfill (vo .i8 0 0 0 256), .vidx (vo .i32 0 0 0 3), .vcmp (bad fun o => { o with imm := 8 }),
   .mset (vo .f32 0 0 0 6), .mset (vo .f32 0 0 0 9), .vcvt (vo .f32 2 0 0 0), .vpack (vo .f16 2 67 0 0x20), .vunpk (vo .f32 2 0 0 0x41),
   .vqnt (vo .f32 2 67 0 0), .vdqnt (vo .f32 2 67 0 0), .vredr (vo .f16 2 0 0 0), .vmvr (vo .b32 2 0 0 64), .vcswp (vo .i32 2 0 0 0xA0),
   .vtrb (vo .f32 2 0 0 0), .vdot2 (vo .f32 2 67 132 0), .vdot4 (vo .bf16 2 67 132 0), .vrcp (vo .i32 2 0 0 0), .vmulh (vo .f32 2 67 0 0)]

/-- 02_bundle R48 and the legality column of each instruction chapter. -/

theorem test_each_check_refuses : ∀ i ∈ illFormed, i.wf = false := by decide +kernel

/-- 02_bundle R48: the cases of a whole bundle. -/
theorem test_bundle_checks_refuse :
    ({ Bundle.solo .s0 (.add p1 5 1 2) with targets := [1, 0, 0, 0] } : Bundle).check = some .unselectable ∧
    ({ Bundle.solo .ctl .ret with tests := [⟨true, true, 4⟩, ⟨false, false, 0⟩, ⟨false, false, 0⟩, ⟨false, false, 0⟩] } : Bundle).check =
      some .transferWithTest ∧
    ({ Bundle.solo .s0 (.add p1 5 1 2) with ops := [(.s0, .add p1 5 1 2), (.s1, .sub p1 5 1 2)] } : Bundle).check = some .sameDestination ∧
    ({ Bundle.solo .v0 (.vnot (vo .b32 2 0 0 0)) with ops := [(.v0, .vnot (vo .b32 2 0 0 0)), (.v1, .vnot { vo .b32 3 0 0 0 with vd := 9 })] } :
      Bundle).check = some .portConflict := by decide +kernel

/-- 02_bundle R19, R48: a reserved header bit, a reserved opcode and an illegal operand are refused by name. -/
theorem test_refused_words :
    decodeBundle 0x10#1024 = .error .header ∧ decodeBundle (0xFF#1024 <<< 248) = .error .reservedOpcode ∧
    decodeBundle (0x0188A30E00000001#1024 <<< 192) = .error .illegalOperands := by decide +kernel

/-! ## Words written out from the encoding tables -/

def sW (op xd xa xb imm : Nat) : Nat := op * 2 ^ 56 + 31 * 2 ^ 51 + xd * 2 ^ 45 + xa * 2 ^ 39 + xb * 2 ^ 33 + imm

/-- 02_bundle R33, 06_scalar R127 to R142, 10_memory R234, R235. -/
def sWords : List Nat :=
  [sW 0x01 5 1 2 0, sW 0x02 5 1 2 0, sW 0x03 5 1 0 24, sW 0x04 5 1 2 0, sW 0x05 5 1 2 0, sW 0x06 5 1 2 0, sW 0x07 5 1 2 3,
   sW 0x08 5 1 2 0, sW 0x09 5 1 2 0, sW 0x0A 5 1 2 0, sW 0x0B 5 1 2 0, sW 0x10 5 1 2 0, sW 0x11 5 1 2 0, sW 0x12 5 1 2 0,
   sW 0x13 5 1 2 0, sW 0x14 5 1 0 24, sW 0x15 5 1 0 24, sW 0x16 5 1 0 24, sW 0x18 5 1 2 0, sW 0x19 5 1 2 0, sW 0x1A 5 1 2 0,
   sW 0x1B 5 1 0 24, sW 0x1C 5 1 0 24, sW 0x1D 5 1 0 24, sW 0x1E 5 1 2 0, sW 0x1F 5 1 0 24, sW 0x20 5 1 0 0, sW 0x21 5 1 0 0,
   sW 0x22 5 1 0 0, sW 0x23 5 1 0 (64 * 2 ^ 6), sW 0x23 5 1 0 (2 ^ 13 + 1 * 2 ^ 6 + 63), sW 0x24 5 1 2 (64 * 2 ^ 6), sW 0x25 5 1 0 0,
   sW 0x28 5 1 2 0, sW 0x29 5 1 2 0, sW 0x2A 5 1 2 0, sW 0x2B 5 1 2 0, sW 0x2C 5 1 2 4095, sW 0x2D 5 1 0 0, sW 0x30 5 0 0 24,
   sW 0x31 5 1 0 24, sW 0x34 0 1 2 (11 * 2 ^ 12 + 4), sW 0x35 0 1 0 (24 * 2 ^ 16 + 4), sW 0x38 5 0 0 0, sW 0x39 5 0 0 0,
   sW 0x40 5 1 2 0, sW 0x41 5 1 2 7, sW 0x42 5 1 2 1, sW 0x43 5 1 2 (3 * 2 ^ 3 + 2), sW 0x44 5 1 2 0, sW 0x45 5 1 2 0,
   sW 0x46 0 1 2 (7 * 2 ^ 12 + 4), sW 0x47 5 1 0 (3 * 2 ^ 9 + 4), sW 0x48 5 1 0 (2 ^ 13), sW 0x49 5 1 0 0, sW 0x50 2 1 0 0,
   sW 0x51 2 1 0 0, sW 0x51 2 1 4 1, sW 0x52 0 0 0 1, sW 0x53 5 1 0 0, sW 0x54 0 1 0 (2 ^ 12 + 4), sW 0x58 5 0 0 0x190,
   sW 0x59 0 1 0 0x010, sW 0x59 0 2 0 0x002, sW 0x59 0 2 0 0x102, sW 0x59 0 0 0 0x112, sW 0x59 0 0 0 0x15F, sW 0x59 0 2 0 0x181,
   sW 0x59 0 2 0 0x190]

def vW (op ty a b c imm : Nat) : Nat :=
  op * 2 ^ 88 + 31 * 2 ^ 83 + ty * 2 ^ 78 + 1 * 2 ^ 72 + a * 2 ^ 63 + b * 2 ^ 54 + c * 2 ^ 45 + imm

/-- 02_bundle R34 to R36, 07_sheet R161, R162. -/
def vWords : List Nat :=
  [vW 0x01 0 2 67 0 0, vW 0x02 6 2 67 0 0, vW 0x03 11 2 67 0 0, vW 0x04 2 2 67 132 0, vW 0x05 0 2 67 132 0, vW 0x06 0 2 67 132 0,
   vW 0x07 0 2 67 0 0, vW 0x08 0 2 67 0 0, vW 0x09 0 2 0 0 0, vW 0x0A 0 2 0 0 0, vW 0x0B 0 2 67 132 0, vW 0x0C 1 2 67 132 0,
   vW 0x0D 11 2 67 132 0, vW 0x10 12 2 67 0 0, vW 0x11 12 2 67 0 0, vW 0x12 12 2 67 0 0, vW 0x13 12 2 0 0 0, vW 0x14 6 2 67 0 0,
   vW 0x15 6 2 0 0 (2 ^ 29 + 31), vW 0x16 6 2 67 0 0, vW 0x17 6 2 67 0 0, vW 0x18 6 2 67 0 0, vW 0x1A 12 2 0 0 0, vW 0x1B 6 0 0 0 5,
   vW 0x1C 6 0 0 0 2, vW 0x20 0 2 67 0 7, vW 0x21 12 2 67 0 0, vW 0x24 0 0 0 0 1, vW 0x25 0 1 2 0 8, vW 0x26 0 1 0 0 1,
   vW 0x30 0 2 0 0 6, vW 0x31 2 2 67 0 0, vW 0x32 0 2 0 0 1, vW 0x33 10 2 67 0 0, vW 0x34 0 2 67 0 10, vW 0x38 0 2 0 0 0,
   vW 0x39 0 2 0 0 0, vW 0x3A 0 2 0 0 0, vW 0x3B 0 2 0 0 0, vW 0x3C 0 2 0 0 0, vW 0x40 0 2 0 0 2, vW 0x41 0 2 0 0 0, vW 0x42 0 2 0 0 0,
   vW 0x43 12 2 0 0 63, vW 0x44 12 2 0 0 511, vW 0x45 12 2 67 0 0, vW 0x46 6 2 0 0 0x10, vW 0x47 12 2 0 0 0]

def mW (op mode reg base hnd mask spec : Nat) : Nat :=
  op * 2 ^ 88 + 31 * 2 ^ 83 + mode * 2 ^ 81 + reg * 2 ^ 75 + base * 2 ^ 69 + hnd * 2 ^ 64 + mask * 2 ^ 54 + spec

/-- 02_bundle R40, 10_memory R245, 12_sync R292, R293. -/
def mWords : List Nat :=
  [mW 0x01 0 1 1 0 0 0, mW 0x02 0 1 1 0 0 0, mW 0x03 1 1 0 1 0 (32 * 2 ^ 16 + 1 * 2 ^ 11), mW 0x04 0 6 1 0 0 6, mW 0x05 0 1 1 0 0 0,
   mW 0x06 0 1 1 0 1 (2 * 2), mW 0x07 0 1 1 0 0 0, mW 0x01 0 1 1 0 0 (6 * 2 ^ 29), mW 0x02 0 1 1 0 0 (6 * 2 ^ 29 + 63),
   mW 0x03 1 1 0 1 0 (6 * 2 ^ 29 + 32 * 2 ^ 16 + 1 * 2 ^ 11), mW 0x04 0 2 1 0 0 6, mW 0x05 0 1 1 0 0 (6 * 2 ^ 29),
   mW 0x06 0 1 1 0 1 (6 * 2 ^ 29 + 2 * 2), mW 0x07 0 1 1 0 0 0, mW 0x08 0 2 1 0 0 (2 * 2 ^ 24 + 1 * 2 ^ 20),
   mW 0x09 0 2 1 0 0 (7 * 2 ^ 27 + 2 * 2 ^ 24 + 1 * 2 ^ 20 + 6 * 2 ^ 14 + 2 * 2 ^ 8),
   mW 0x0A 0 1 1 0 1 (6 * 2 ^ 29 + 2 * 2 ^ 22 + 1 * 2 ^ 20 + 2 * 2)]

def cW (op part rest : Nat) : Nat := op * 2 ^ 88 + 31 * 2 ^ 83 + part * 2 ^ 79 + rest

def kW (op layout sx dx cflag spec : Nat) : Nat :=
  cW op 3 (layout * 2 ^ 63 + sx * 2 ^ 50 + dx * 2 ^ 37 + cflag * 2 ^ 25 + spec)

/-- 02_bundle R41, 08_cube R190 to R203, 09_partitions R220 to R224; 02_bundle R43, 11_copy R262. -/
def cWords : List Nat :=
  [cW 0x01 0 (24 * 2 ^ 41 + 1 * 2 ^ 29 + 9 * 2 ^ 25 + 8 * 2 ^ 21 + 2 ^ 16), cW 0x02 0 (24 * 2 ^ 41 + 1 * 2 ^ 29 + 9 * 2 ^ 25 + 8 * 2 ^ 21 + 2 ^ 16),
   cW 0x03 0 (1 * 2 ^ 29 + 2 ^ 15), cW 0x04 0 (1 * 2 ^ 36), cW 0x05 0 (2 ^ 78 + 2 ^ 77), cW 0x06 0 (2 ^ 78 + 5 * 2 ^ 62), cW 0x07 0 (2 * 2 ^ 76),
   cW 0x08 0 4, cW 0x09 0 4, cW 0x0A 0 0, cW 0x10 0 (1 * 2 ^ 63 + 1 * 2 ^ 59 + 1 * 2 ^ 47 + 30), cW 0x13 0 (2 ^ 12 + 4), cW 0x14 0 4, cW 0x15 0 0,
   cW 0x16 0 (0x80 * 2 ^ 52 + 2 ^ 51 + 4), cW 0x16 0 (0x80 * 2 ^ 52 + 4), kW 0x01 1 1 5 40 0, kW 0x02 1 0 5 40 (2 ^ 2 + 2), kW 0x03 1 1 0 40 (2 ^ 4),
   kW 0x04 1 1 0 40 0, kW 0x05 0 0 0 4 0, kW 0x06 0 0 1 4 0, kW 0x07 0 0 0 4 1]

def yW (op a b d o : Nat) : Nat := op * 2 ^ 24 + 31 * 2 ^ 19 + a * 2 ^ 13 + b * 2 ^ 7 + d * 2 + o

/-- 02_bundle R43, 12_sync R279, R284, R289, R291, 13_jobs R313, 14_fabric R339, 16_system R374. A flag index stands in bits
18:7. -/
def yWords : List Nat :=
  [yW 0x01 0 4 0 1, yW 0x02 0 4 0 0, yW 0x03 0 4095 0 0, yW 0x03 0 4095 0 1, yW 0x04 0 4032 2 0, yW 0x05 0 4 2 1, yW 0x06 0 4 2 0,
   yW 0x08 0 4092 2 0, yW 0x09 0 2 2 0, yW 0x0A 0 2 2 1, yW 0x0B 0 2 6 0, yW 0x0C 0 0 0 (3 * 4 + 1), yW 0x0D 0 0 0 (1 * 16),
   yW 0x0E 0 0 0 (1 * 16), yW 0x10 5 1 6 0, yW 0x11 1 0 6 0, yW 0x14 1 0 6 0, yW 0x15 1 0 6 0, yW 0x16 2 2 6 0, yW 0x17 2 2 6 0,
   yW 0x18 2 0 6 0, yW 0x19 2 1 6 0, yW 0x1C 2 0 6 0, yW 0x1D 2 0 0 0, yW 0x1E 1 0 6 0, yW 0x20 2 2 6 0, yW 0x21 2 0 6 0,
   yW 0x22 2 0 6 0, yW 0x22 2 2 6 1, yW 0x23 2 0 6 0, yW 0x24 2 2 6 0, yW 0x25 2 2 6 0]

def tW (cop path rest : Nat) : Nat := cop * 2 ^ 50 + path * 2 ^ 45 + rest

/-- 02_bundle R29, R46, 04_sequencing R83: bit 136 of the bundle is bit 0 of the CTL field. -/
def tWords : List Nat :=
  [tW 0x01 31 (110 * 2 ^ 29 + 3 * 2 ^ 5), tW 0x02 31 (110 * 2 ^ 29 + 2 ^ 28 + 2 * 2 ^ 22), tW 0x03 16 0, tW 0x04 16 (110 * 2 ^ 29 + 1 * 2 ^ 26),
   tW 0x05 16 (110 * 2 ^ 29), tW 0x06 16 (2 * 2 ^ 39), tW 0x07 16 0, tW 0x08 16 (2 * 2 ^ 39), tW 0x09 16 (4 * 2 ^ 33 + 2 * 2 ^ 27), tW 0x0A 31 0,
   tW 0x0B 31 0, tW 0x0C 31 (2 ^ 44 + 1 * 2 ^ 40 + 1 * 2 ^ 37)]

/-- Ops that `ready` does not run: they need a chain, or trap. -/
def others : List Instr :=
  [.cjoin p1 4 1 0 1 2 3 true 5, .cjoin p1 4 0 0 1 0 0 false 0, .csplit p1 4 false 5, .trapc p1 0xBEEF,
   .vadd { vo .bf16 2 67 0 0 with vd := 35, a := 40, b := 99, mask := 15, mz := true, rnd := .dyn, sat := true, xb := 63 }]

def otherWords : List Nat :=
  [cW 0x11 4 (1 * 2 ^ 77 + 0 * 2 ^ 73 + 1 * 2 ^ 69 + 2 * 2 ^ 65 + 3 * 2 ^ 61 + 2 ^ 12 + 5), cW 0x11 4 (1 * 2 ^ 69), cW 0x12 4 5,
   tW 0x0D 31 (0xBEEF * 2 ^ 29),
   0x01 * 2 ^ 88 + 31 * 2 ^ 83 + 1 * 2 ^ 78 + 35 * 2 ^ 72 + 40 * 2 ^ 63 + (1 * 64 + 35) * 2 ^ 54 + 15 * 2 ^ 41 + 2 ^ 40 + 7 * 2 ^ 37 + 2 ^ 36 + 63 * 2 ^ 30]

def decodes (e : Nat × Instr) : Bool :=
  match e.2.slot with
  | some sl => match decodeBundle (BitVec.ofNat 1024 (e.1 * 2 ^ sl.base)) with
    | .ok bd => decide (bd = Bundle.solo sl e.2)
    | .error _ => false
  | none => false

theorem test_scalar_words : ∀ e ∈ sWords.zip s0s, decodes e = true := by decide +kernel

theorem test_sheet_words : ∀ e ∈ vWords.zip vs, decodes e = true := by decide +kernel

theorem test_memory_words : ∀ e ∈ mWords.zip ms, decodes e = true := by decide +kernel

theorem test_engine_words : ∀ e ∈ cWords.zip cs, decodes e = true := by decide +kernel

theorem test_system_words : ∀ e ∈ yWords.zip ys, decodes e = true := by decide +kernel

theorem test_sequence_words : ∀ e ∈ tWords.zip ts.tail, decodes e = true := by decide +kernel

theorem test_other_words : ∀ e ∈ otherWords.zip others, decodes e = true := by decide +kernel

theorem test_every_word_has_its_instruction :
    [sWords.length, vWords.length, mWords.length, cWords.length, yWords.length, tWords.length, otherWords.length] =
      [s0s.length, vs.length, ms.length, cs.length, ys.length, ts.tail.length, others.length] := by decide

/-! ## Every instruction runs on a small state -/

theorem test_scalar_ops_run : ∀ i ∈ s0s, ready.Runs 15 i := all_run (by decide +kernel)

theorem test_sheet_ops_run : ∀ i ∈ vs, ready.Runs 15 i := all_run (by decide +kernel)

theorem test_memory_ops_run : ∀ i ∈ ms, ready.Runs 15 i := all_run (by decide +kernel)

theorem test_engine_ops_run : ∀ i ∈ cs, ready.Runs 15 i := all_run (by decide +kernel)

theorem test_system_ops_run : ∀ i ∈ ys, ready.Runs 15 i := all_run (by decide +kernel)

theorem test_sequence_ops_run : ∀ i ∈ ts, ready.Runs 15 i := all_run (by decide +kernel)

/-! ## Witnesses: encoding and issue -/

/-- `ready` with another context in the steward's bank. -/
def on (c : Ctx) : State := { ready with core := { ready.core with banks := [(15, c)] } }

/-- A context whose scalar `n` is `v`. -/
def withX (n : Nat) (v : Word) (mark : Bool) : Ctx := { busy with x := tins busy.x n ⟨v, mark⟩ }

def slave : Ctx := { busy with priv := false }

/-- `ready` with one bundle at the steward's position. -/
def at100 (w : Nat) : State := { ready with ms := { ready.ms with istore := memWrite [] 12800 (leBytes 128 w) } }

def encodes (i : Instr) : Bool :=
  i.wf && (encode i).isSome && match i.slot with
    | some sl => i.accepts sl && (Bundle.solo sl i).check.isNone
    | none => false

theorem test_EncodeThenDecodeGivesInstruction_met :
    (∀ i ∈ s0s ++ vs ++ ms, encodes i = true) ∧ (∀ i ∈ cs ++ ys ++ ts.tail ++ others, encodes i = true) := by decide +kernel

/-- A word with four valid tests of polarity 1 of flags 1 to 4 and the targets 5 to 8, at its place in the header. -/
def headerWord : Nat :=
  ((List.range 4).map fun k => (1 + 2 + 4 * (k + 1)) * 2 ^ (8 + 16 * k) + (k + 5) * 2 ^ (72 + 16 * k)).sum

theorem test_HeaderHasOneEncoding_met :
    (match decodeBundle (BitVec.ofNat 1024 headerWord) with
      | .ok bd => decide (bd.targets = [5, 6, 7, 8] ∧ bd.tests = (List.range 4).map fun k => ⟨true, true, BitVec.ofNat 12 (k + 1)⟩)
      | .error _ => false) = true := by decide +kernel

theorem test_StepRunsDecodedInstruction_met :
    let s := at100 (sW 0x01 5 1 2 0 * 2 ^ 192)
    s.agenda = [] ∧ s.dueEvent = none ∧ s.seated s.core.running = some 15 ∧ (List.range 4).filterMap s.seated = [15] ∧
    (Instr.add p1 5 1 2).wf = true ∧ (Instr.add p1 5 1 2).slot = some .s0 ∧
    decodeBundle (s.bundleBits (s.ctx 15).pc) = .ok (Bundle.solo .s0 (.add p1 5 1 2)) := by decide +kernel

theorem ready_alone : ready.Alone 15 := (issues_of_canIssue (i := .add p1 5 1 2) (by decide +kernel)).alone

theorem test_UnexecutedInstructionHasNoEffect_met : ready.Alone 15 ∧ (ready.ctx 15).legal (.add 0x0F 5 1 2) = true ∧
    executes (semOf (.add 0x0F 5 1 2)).path .e = false := ⟨ready_alone, by decide +kernel⟩

/-- x1 is to be written at beat 9. -/
def pending : State := on { busy with pend := [⟨9, .x 1, .x ⟨5, false⟩, 0, false, 0, []⟩] }

theorem test_InterlockedInstructionWaits_met : pending.Alone 15 ∧ (pending.ctx 15).legal (.add p1 5 1 2) = true ∧
    executes (semOf (.add p1 5 1 2)).path .e = true ∧ (semOf (.add p1 5 1 2)).interlocked pending 15 = true :=
  ⟨(issues_of_canIssue (i := .add p1 5 4 2) (by decide +kernel)).alone, by decide +kernel⟩

/-- 04_sequencing R77, R79: it waits in its beat and stb0 counts. -/
theorem test_interlock_counts_stb0 :
    (match exec (.add p1 5 1 2) pending with
      | .next t => decide ((t.ctx 15).stall 0 = 1 ∧ (t.ctx 15).pc = 100 ∧ t.core.beat = 1)
      | _ => false) = true := by decide +kernel

/-- A bundle of weight 5 issued in the last beat, and the budget is 4. -/
def spent : State := { ready with core := { ready.core with window := [(0, 5)] }, pow := { ready.pow with grant := 4 } }

theorem test_EnergyStallInsertsBeat_met :
    spent.Sole 15 ∧ (spent.ctx 15).legal (.add p1 5 1 2) = true ∧ executes (semOf (.add p1 5 1 2)).path .e = true ∧
    (semOf (.add p1 5 1 2)).interlocked spent 15 = false ∧ (semOf (.add p1 5 1 2)).stall spent 15 = none ∧
    spent.windowSum ≠ 0 ∧ spent.pow.grant.toNat < spent.windowSum := ⟨sole_of_check (by decide +kernel), by decide +kernel⟩

theorem test_PrivilegedInstructionTraps_met : (on slave).Alone 15 ∧ ((on slave).ctx 15).legal (.basidWrite p1 2) = true ∧
    executes (semOf (.basidWrite p1 2)).path .e = true ∧ (semOf (.basidWrite p1 2)).interlocked (on slave) 15 = false ∧
    (semOf (.basidWrite p1 2)).stall (on slave) 15 = none ∧ (semOf (.basidWrite p1 2)).priv = true ∧
    ((on slave).ctx 15).priv = false :=
  ⟨(issues_of_canIssue (i := .add p1 5 4 2) (by decide +kernel)).alone, by decide +kernel⟩

/-- The line at 0x1000 of the hearth scratchpad, which x1 names, is poisoned. -/
def poisonCard : State := { ready with ms := { ready.ms with poison := [(spadBase + 0x1000) / 64] } }

/-- A cause met at issue, and one that POST meets in its card's first line. -/
theorem test_CauseReplacesEffect_met : (on { busy with loops := [] }).Issues 15 .lend ∧
    ((semOf .lend).cause (on { busy with loops := [] }) 15).isSome = true ∧
    poisonCard.Issues 15 (.post p1 5 1 6) ∧ (semOf (.post p1 5 1 6)).cause poisonCard 15 = none ∧
    ((semOf (.post p1 5 1 6)).check poisonCard 15 poisonCard).isSome = true :=
  ⟨issues_of_canIssue (by decide +kernel), by decide +kernel, issues_of_canIssue (by decide +kernel), by decide +kernel,
    by decide +kernel⟩

/-- A job in bank 1 that has the core to itself. -/
def jobAlone : State :=
  { on busy with
    core := { ready.core with banks := [(1, { busy with uid := 3, priv := false, card := 0x1234 }), (15, busy)]
                              seats := [(0, .free), (1, .seated 1)], running := 1 } }

/-- A job's, and the steward's. -/
theorem test_TrapcHoldsItsContext_met : jobAlone.Runs 1 (.trapc p1 0xBEEF) ∧ ready.Runs 15 (.trapc p1 0xBEEF) :=
  ⟨runs_of_check (by decide +kernel), runs_of_check (by decide +kernel)⟩

/-- 02_bundle R23: the leaf of each of five trees over f4095 (1) and f4094 (0), with the targets 5 to 8 at bundle 100. -/
theorem test_TreeSelectsNextBundle_met :
    ready.hasCtx 15 = true ∧ (ready.ctx 15).dly = 0 ∧
    ([[1, 1, 0, 0], [1, 0, 0, 0], [0, 1, 1, 0], [0, 0, 0, 1], [0, 1, 0, 0]].map fun l =>
      let bd : Bundle := { ew := 0, tests := l.map fun (n : Nat) => ⟨true, true, BitVec.ofNat 12 (4094 + n)⟩, targets := [5, 6, 7, 8], ops := [] }
      ((Issuing.effect ⟨bd, []⟩ ready ready 15).ctx 15).pc) = [5, 6, 7, 8, 101] := by decide +kernel

/-! ## Witnesses: scalars -/

theorem test_IntegerOpsOfTwoScalars_met :
    ∀ i ∈ (intRows p1 5 1 2 ((ready.ctx 15).xw 1) ((ready.ctx 15).xw 2)).map (·.1), ready.Runs 15 i := all_run (by decide +kernel)

theorem test_IntegerOpsOfOneScalar_met :
    ∀ i ∈ (intRows1 p1 0 1 24 5 6 ((ready.ctx 15).xw 1)).map (·.1), ready.Runs 15 i := all_run (by decide +kernel)

theorem test_MaddMultipliesAndAdds_met : ready.Runs 15 (.madd p1 5 1 2 3) ∧ (BitVec.ofNat 64 (sW 0x07 5 1 2 3)).extractLsb' 56 8 = 0x07 ∧
    (BitVec.ofNat 64 (sW 0x07 5 1 2 64)).extractLsb' 56 8 = 0x07 ∧ (BitVec.ofNat 64 (sW 0x07 5 1 2 3)).extractLsb' 51 5 ≠ 0 ∧
    (BitVec.ofNat 64 (sW 0x07 5 1 2 64)).extractLsb' 51 5 ≠ 0 := ⟨runs_of_check (by decide +kernel), by decide +kernel⟩

def byZero : State := on (withX 2 0 false)

def leastByNeg : State := on { withX 2 (BitVec.allOnes 64) false with x := [(1, ⟨0x8000000000000000, false⟩), (2, ⟨BitVec.allOnes 64, false⟩)] }

theorem test_DivisionCorners_met :
    ((byZero.ctx 15).xw 2 = 0 ∧ ∀ i ∈ [Instr.div p1 5 1 2, .divu p1 5 1 2, .rem p1 5 1 2, .remu p1 5 1 2], byZero.Runs 15 i) ∧
    (leastByNeg.ctx 15).xw 1 = 0x8000000000000000 ∧ (leastByNeg.ctx 15).xw 2 = BitVec.allOnes 64 ∧
    ∀ i ∈ [Instr.div p1 5 1 2, .rem p1 5 1 2], leastByNeg.Runs 15 i :=
  ⟨⟨by decide +kernel, all_run (by decide +kernel)⟩, by decide +kernel, by decide +kernel, all_run (by decide +kernel)⟩

/-- The counts of 0, at the end of their range, and of a value. -/
theorem test_BitCountsAndReversal_met : (byZero.ctx 15).xw 2 = 0 ∧
    ∀ i ∈ [Instr.clz p1 5 2, .ctz p1 5 2, .brev p1 5 2, .clz p1 5 1, .ctz p1 5 1, .brev p1 5 1], byZero.Runs 15 i :=
  ⟨by decide +kernel, all_run (by decide +kernel)⟩

theorem test_MovesFieldsAndSelects_met :
    ∀ i ∈ [Instr.movi p1 5 24, .bext p1 5 1 false 64 0, .bext p1 5 1 true 64 0, .bext p1 5 1 true 1 63, .bins p1 5 1 2 1 63, .sel p1 5 4095 1 2,
      .sel p1 5 4094 1 2], ready.Runs 15 i := all_run (by decide +kernel)

theorem test_ComparesWriteTheirFlag_met :
    ∀ i ∈ [Instr.cmp p1 0 4 1 2, .cmp p1 11 4095 1 2, .cmpi p1 0 0 1 3, .cmpi p1 11 4 1 3, .fcmps p1 0 4 1 2, .fcmps p1 7 4 1 2],
      ready.Runs 15 i := all_run (by decide +kernel)

theorem test_CompareToF0NeedsPrivilege_met : ((on slave).ctx 15).priv = false ∧
    ∀ i ∈ [Instr.cmp p1 4 0 1 2, .cmpi p1 4 0 1 3, .fcmps p1 4 0 1 2], (on slave).Issues 15 i :=
  ⟨by decide +kernel, all_issue (by decide +kernel)⟩

/-- A full loop stack. -/
def sixLoops : Ctx := { busy with loops := (List.range 6).map fun k => ⟨false, 90, BitVec.ofNat 23 k, 2⟩ }

/-- The innermost loop and the outermost of six, and the first depths below the stack. -/
theorem test_LoopStateReads_met : ((on sixLoops).ctx 15).loops[0]? = some ⟨false, 90, 0, 2⟩ ∧
    (∀ i ∈ [Instr.lix p1 5 0, .lcnt p1 5 0, .lix p1 5 5, .lcnt p1 5 5], (on sixLoops).Runs 15 i) ∧
    (ready.ctx 15).loops.length ≤ (1#3).toNat ∧ ∀ i ∈ [Instr.lix p1 5 1, .lcnt p1 5 1], ready.Issues 15 i :=
  ⟨by decide +kernel, all_run (by decide +kernel), by decide +kernel, all_issue (by decide +kernel)⟩

theorem test_ScalarFloatResults_met :
    ∀ i ∈ (fpRows p1 5 1 2 3 .rtz .rtz (.nan false) (.nan false) (.nan false)).map (·.1), ready.Runs 15 i := all_run (by decide +kernel)

theorem test_ScalarConversions_met :
    ∀ i ∈ (List.range 4).flatMap fun k => [Instr.fcvtis p1 5 1 (BitVec.ofNat 4 k) .sr, .fcvtsi p1 5 1 (BitVec.ofNat 4 k) true .rne],
      ready.Runs 15 i := all_run (by decide +kernel)

/-! ## Witnesses: handles and control registers -/

/-- The TLB holds a writable page at 0 of ASID 0, and x1 is the first address outside the virtual space. -/
def mapped : State :=
  { on (withX 1 0x200000000000000 false) with ms := { ready.ms with tlb := [⟨0, 0, false, 0x203, 0x1000000⟩] } }

/-- The page at 0 is the host's; and one of a lease in recall. -/
def shared : State := { mapped with ms := { mapped.ms with tlb := [⟨0, 0, false, 0x207, 0x1000000⟩] } }

def recalled : State :=
  { mapped with
    ms := { mapped.ms with tlb := [⟨0, 0, false, 0x203#64 ||| (1#64 <<< 58), 0x1000000⟩] }
    fab := { mapped.fab with leases := [(1, { Lease.zero with lst := .recalling })] } }

/-- x1 = 2^57 and x2 = 7 lie on the two sides of the boundary; x2 of `ready` has no translation. -/
theorem test_TranslationsCompleteOrWalk_met :
    (∀ i ∈ [Instr.xlt p1 2 1, .xltw p1 2 1, .xltwG p1 2 1 4, .xlt p1 2 2, .xltw p1 2 2, .xltwG p1 2 2 0], mapped.Runs 15 i) ∧
    (mapped.quickXlt 0 ((mapped.ctx 15).xw 1) false).isSome = true ∧ (mapped.quickXlt 0 ((mapped.ctx 15).xw 2) true).isSome = true ∧
    ((mapped.xltStart true 8 ((mapped.ctx 15).xw 1)).quickXlt 8 ((mapped.ctx 15).xw 1) true).isSome = true ∧
    (∀ i ∈ [Instr.xlt p1 2 2, .xltw p1 2 2, .xltwG p1 2 2 4], ready.Runs 15 i) ∧
    ready.quickXlt 0 ((ready.ctx 15).xw 2) false = none ∧
    (ready.xltStart true 8 ((ready.ctx 15).xw 2)).quickXlt 8 ((ready.ctx 15).xw 2) true = none :=
  ⟨all_run (by decide +kernel), by decide +kernel, by decide +kernel, by decide +kernel, all_run (by decide +kernel), by decide +kernel,
    by decide +kernel⟩

theorem test_QuickTranslationGivesLeafFields_met :
    2 ^ 57 ≤ ((mapped.ctx 15).xw 1).toNat ∧ ((mapped.ctx 15).xw 2).toNat < 2 ^ 57 ∧
    (match mapped.tlbHit 0 ((mapped.ctx 15).xw 2).toNat with
      | some t => !t.pte.getLsbD 2 && !mapped.recalling (pteLease t.pte.toNat)
      | none => false) = true ∧
    (∀ s ∈ [shared, recalled], 7 < 2 ^ 57 ∧ (match s.tlbHit 0 7 with
      | some t => t.pte.getLsbD 2 != s.recalling (pteLease t.pte.toNat)
      | none => false) = true) := by decide +kernel

theorem test_HandleOpsComplete_met :
    (∀ i ∈ [Instr.hinv p1 false 1, .hinv p1 true 0, .hrd p1 5 1 false, .hrd p1 5 1 true, .hchk p1 4 1 true], ready.Runs 15 i) ∧
    ((ready.ctx 15).hv 1).hst = .valid := ⟨all_run (by decide +kernel), by decide +kernel⟩

theorem test_ControlRegisterReads_met :
    (∀ i ∈ [0x000, 0x001, 0x002, 0x003, 0x004, 0x005, 0x008, 0x00D, 0x010, 0x011, 0x020, 0x027, 0x030, 0x04F, 0x050, 0x051, 0x06F,
        0x070, 0x080, 0x100, 0x101, 0x102, 0x110, 0x111, 0x112, 0x15F, 0x160, 0x161, 0x17F, 0x180, 0x181, 0x182, 0x190].map (Instr.crd p1 5 ·), ready.Runs 15 i) ∧
    (ready.ctx 15).dly ≤ 3 ∧ (ready.ctx 15).loops.length ≤ 6 := ⟨all_run (by decide +kernel), by decide +kernel⟩

/-- A machine whose window 3 has as many cells out as it may have, with damper steps, and ports, stacks and layers ready. -/
def shown : State :=
  { ready with
    fab := { ready.fab with windows := [(3, { Window.zero with cfg := true, out := 32767, lim := 32767 })] }
    pow := { ready.pow with steps := [(0, 15), (11, 15)] }
    plat := { ready.plat with rcxl := [0, 7], rlay := [0, 11] } }

theorem test_ControlRegisterReads_fields_met : (∀ k < 16, (shown.window k).out < 2 ^ 15 ∧ (shown.window k).lim < 2 ^ 15) ∧
    (∀ l < 12, tget shown.pow.steps l 0 < 16) ∧ shown.plat.rcxl.Nodup ∧ shown.plat.rhbm.Nodup ∧ shown.plat.rlay.Nodup ∧
    (∀ k ∈ shown.plat.rcxl ++ shown.plat.rhbm, k < 8) ∧ (∀ l ∈ shown.plat.rlay, l < 12) ∧
    (shown.lease shown.core.lsel.toNat).gcnt < 2 ^ 17 ∧ (shown.lease shown.core.lsel.toNat).lost.length < 2 ^ 17 := by decide +kernel


theorem test_ControlRegisterWrites_met :
    (∀ i ∈ [0x003, 0x004, 0x005, 0x020, 0x027, 0x030, 0x100, 0x101, 0x110, 0x111, 0x160, 0x180].map (Instr.cwr p1 · 4), ready.Runs 15 i) ∧
    (∀ i ∈ readOnlyRegs.map fun n => Instr.cwr p1 (BitVec.ofNat 12 n) 4, ready.Runs 15 i) ∧ ((ready.ctx 15).xw 4).toNat % 8 < 5 ∧
    ready.Runs 15 (.cwr p1 0x003 2) ∧ 5 ≤ ((ready.ctx 15).xw 2).toNat % 8 :=
  ⟨all_run (by decide +kernel), all_run (by decide +kernel), by decide +kernel, runs_of_check (by decide +kernel), by decide +kernel⟩

theorem test_SpecialRegisterWrites_met :
    (∀ i ∈ [Instr.fpxWrite p1 2, .basidWrite p1 2, .ltbWrite p1 2, .egrantWrite p1 2, .isldWrite p1 2, .qmapWrite p1 0 2, .qmapWrite p1 63 2],
      ready.Runs 15 i) ∧ ready.hasCtx ready.core.bsel.toNat = true := ⟨all_run (by decide +kernel), by decide +kernel⟩

theorem test_PoisonedControlWriteTraps_met : ((on (withX 2 7 true)).ctx 15).xm 2 = true ∧
    ∀ i ∈ [Instr.cwr p1 0x010 2, .fpxWrite p1 2, .basidWrite p1 2, .ltbWrite p1 2, .qmapWrite p1 63 2, .isldWrite p1 2, .egrantWrite p1 2],
      (on (withX 2 7 true)).Issues 15 i := ⟨by decide +kernel, all_issue (by decide +kernel)⟩

/-! ## Witnesses: control flow -/

/-- Counts of 1 and 0, the largest, the first too large, and a seventh entry; and a delay bundle. -/
theorem test_LoopPushesOrSkips_met :
    (∀ i ∈ [Instr.loop p1 110 false 1, .loop p1 110 false 0, .loop p1 110 true 0x7FFFFF, .loopx p1 110 false 2, .loopx p1 110 false 0],
      ready.Runs 15 i) ∧ (ready.ctx 15).dly = 0 ∧
    (∀ i ∈ [Instr.loop p1 110 false 1, .loop p1 110 false 0, .loopx p1 110 false 2], (on { busy with dly := 2 }).Runs 15 i) ∧
    (on (withX 2 8388608 false)).Issues 15 (.loopx p1 110 false 2) ∧ ((on (withX 2 8388608 false)).ctx 15).xm 2 = false ∧
    8388607 < (((on (withX 2 8388608 false)).ctx 15).xw 2).toNat ∧
    (∀ i ∈ [Instr.loop p1 110 false 1, .loopx p1 110 false 2], (on sixLoops).Issues 15 i) ∧ ((on sixLoops).ctx 15).loops.length = 6 :=
  ⟨all_run (by decide +kernel), by decide +kernel, all_run (by decide +kernel), issues_of_canIssue (by decide +kernel),
    by decide +kernel, by decide +kernel, all_issue (by decide +kernel), by decide +kernel⟩

/-- One iteration left, and two. -/
theorem test_LendContinuesOrPops_met : ready.Runs 15 .lend ∧ (ready.ctx 15).loops = [] ++ [⟨false, 90, 0, 2⟩] ∧
    ready.core.runCtr < 4095 ∧ (on { busy with loops := [⟨true, 90, 3, 1⟩] }).Runs 15 .lend :=
  ⟨runs_of_check (by decide +kernel), by decide +kernel, by decide +kernel, runs_of_check (by decide +kernel)⟩

/-- All of the stack, and one more than it holds. -/
theorem test_LbrkPopsAndContinues_met : ready.Runs 15 (.lbrk 110 1) ∧ (on sixLoops).Runs 15 (.lbrk 110 6) ∧
    ready.Issues 15 (.lbrk 110 2) ∧ (ready.ctx 15).loops.length = 1 :=
  ⟨runs_of_check (by decide +kernel), runs_of_check (by decide +kernel), issues_of_canIssue (by decide +kernel), by decide +kernel⟩

theorem test_TransfersHaveThreeDelayBundles_met :
    ∀ i ∈ [Instr.call 110, .callx 2, .ret, .jmpx 2], ready.Runs 15 i := all_run (by decide +kernel)

/-- 04_sequencing R81: after RET the position is the next bundle, with three delay bundles left. -/
theorem test_ret_delays :
    (match exec .ret (on (withX 63 0x1234 false)) with
      | .next t => decide ((t.ctx 15).pc = 101 ∧ (t.ctx 15).dly = 3 ∧ (t.ctx 15).dtgt = 0x1234)
      | _ => false) = true := by decide +kernel

theorem test_ControlFlowFaults_met :
    ((on (withX 2 7 true)).ctx 15).xm 2 = true ∧
    (∀ i ∈ [Instr.callx 2, .jmpx 2, .loopx p1 110 false 2, .ctlEnd 4 2], (on (withX 2 7 true)).Issues 15 i) ∧
    ((on (withX 63 7 true)).ctx 15).xm 63 = true ∧ (on (withX 63 7 true)).Issues 15 .ret ∧
    ((on { busy with loops := [] }).ctx 15).loops = [] ∧ (on { busy with loops := [] }).Issues 15 .lend :=
  ⟨by decide +kernel, all_issue (by decide +kernel), by decide +kernel, issues_of_canIssue (by decide +kernel), by decide +kernel,
    issues_of_canIssue (by decide +kernel)⟩

theorem test_ContextControlOps_met :
    ∀ i ∈ [Instr.ctlEnd 0 2, .ctlEnd 4 2, .ctlEnd 4095 0, .yield p1, .rrot p1 true 15 7, .rrot p1 false 1 1, .clus p1 0, .clus p1 15, .cnop],
      ready.Runs 15 i := all_run (by decide +kernel)

/-! ## Witnesses: bundles and sheets -/

/-- The conditions under which a bundle of two ops takes effect, or raises the cause of the op of number `n`. -/
def bundlePasses (s : State) (b : Nat) (n : Option Nat) : Bool :=
  match decodeBundle (s.bundleBits (s.ctx b).pc) with
  | .ok bd =>
    let live := bd.ops.filter fun o => executes (semOf o.2).path (s.leaf bd)
    s.energyOk bd.ew.toNat && (s.ctx b).dly == 0 && (s.markedTest bd).isNone && decide (2 ≤ live.length) &&
    (firstOp s b s (live.map fun o => (o.1, semOf o.2))).map (·.2) == n &&
    live.all fun o => !(semOf o.2).interlocked s b && ((semOf o.2).stall s b).isNone && (!(semOf o.2).priv || (s.ctx b).priv)
  | .error _ => false

/-- `ADD x5 ← x1 + x2` and `SUB x6 ← x1 − x4`, with a valid test of flag 4032 and the target 110 for leaf B. -/
def twoOps : Nat := sW 0x01 5 1 2 0 * 2 ^ 192 + sW 0x02 6 1 4 0 * 2 ^ 256 + 7 + (3 + 4 * 4032) * 2 ^ 8 + 110 * 2 ^ 88

/-- `ADD x5 ← x1 + x2` in S0 and `LIX x6 ← 1` in S1, of a loop that the stack does not hold. -/
def badOp : Nat := sW 0x01 5 1 2 0 * 2 ^ 192 + sW 0x38 6 0 0 1 * 2 ^ 256

def marked : State := { at100 twoOps with ms := { (at100 twoOps).ms with flags := [(4032, ⟨1, true⟩)] } }

theorem test_BundleEffectsInSlotOrder_met :
    (at100 twoOps).Sole 15 ∧ bundlePasses (at100 twoOps) 15 none = true ∧ bundlePasses (at100 badOp) 15 (some 1) = true ∧
    (match decodeBundle (marked.bundleBits 100) with
      | .ok bd => marked.markedTest bd == some 4032
      | .error _ => false) = true ∧
    decodeBundle ((at100 0x10).bundleBits 100) = .error .header ∧ (at100 0x10).energyOk 0 = true :=
  ⟨sole_of_check (by decide +kernel), by decide +kernel⟩

/-- 02_bundle R51: both results of a bundle are on their way, and the next bundle is the leaf's target. -/
theorem test_bundle_lands_both :
    (match exec .bundleIssue (at100 twoOps) with
      | .next t => decide ((t.ctx 15).pend.map (fun (p : Pending) => (p.due, p.dst, p.val)) =
          [(1, .x 5, .x ⟨0x1007, false⟩), (1, .x 6, .x ⟨0xFF8, false⟩)] ∧ (t.ctx 15).pc = 110)
      | _ => false) = true := by decide +kernel

def masked (o : VOp) : VOp := { o with mask := 1, mz := true }

/-- Whole, masked, and pushed to a bound stream. -/
theorem test_SheetLogicMasksAndPermutation_met :
    ∀ i ∈ [Instr.vand (vo .b32 2 67 0 0), .vor (masked (vo .b32 2 67 0 0)), .vxor { vo .b32 2 67 0 0 with vd := 33 }, .vnot (vo .b32 2 0 0 0),
      .mlog { vo .f32 1 2 0 15 with mask := 1 }, .mpopc (vo .f32 1 0 0 0), .vperm { vo .b32 2 67 0 0 with mask := 1 }], ready.Runs 15 i :=
  all_run (by decide +kernel)

theorem test_SheetArithmetic_met :
    ∀ i ∈ [Instr.vadd (masked (vo .f32 2 67 0 0)), .vsub (vo .f16 2 67 0 0), .vmul { vo .bf16 2 67 0 0 with rnd := .dyn }, .vfma (vo .f32 2 67 132 0),
      .vfms (vo .f32 2 67 132 0), .vfnma (vo .f32 2 67 132 0), .vmin (vo .f32 2 67 0 0), .vmax (vo .i16 2 67 0 0), .vabs (vo .f32 2 0 0 0),
      .vneg { vo .i32 2 0 0 0 with sat := true }, .vadd { vo .i8 2 67 0 0 with sat := true }, .vclamp (vo .n16 2 67 132 0),
      .vfma (vo .i32 2 67 132 0), .vdot2 (vo .bf16 2 67 132 0), .vdot2 (vo .i16 2 67 132 0), .vdot4 (vo .n8 2 67 132 0)], ready.Runs 15 i :=
  all_run (by decide +kernel)

theorem test_SheetShiftsMovesAndFills_met :
    ∀ i ∈ [Instr.vshl (vo .i32 2 67 0 0), .vshl (vo .n8 2 0 0 0x2000003F), .vshr (vo .i32 2 0 0 0x2000001F), .vsra (vo .i16 2 67 0 0),
      .vrshr (vo .i32 2 0 0 0x20000000), .vmulh (vo .n8 2 67 0 0), .vmov (masked (vo .b32 2 0 0 0)), .vfill (vo .f32 0 0 0 0x3FFFFFFF),
      .vfill (vo .i8 0 0 0 255), .vfill (vo .n32 0 0 0 5), .vidx (vo .i32 0 0 0 0), .vidx (vo .n32 0 67 0 2)], ready.Runs 15 i :=
  all_run (by decide +kernel)

def poisonX2 : State := on (withX 2 7 true)

theorem test_SheetComparesSelectsAndMasks_met :
    (∀ i ∈ [Instr.vcmp (vo .i32 2 67 0 9), .vcmp (vo .n32 2 67 0 0), .vcmp (vo .f32 2 67 0 7), .vsel { vo .b32 2 67 0 0 with mask := 1 },
      .mset (vo .f32 0 0 0 0), .mset { vo .f32 0 0 0 0x20000002 with xb := 2 }, .mset (vo .f32 2 0 0 5)], ready.Runs 15 i) ∧
    poisonX2.Issues 15 (.mset { vo .f32 0 0 0 0x20000002 with xb := 2 }) ∧ (poisonX2.ctx 15).xm 2 = true ∧
    (semOf (.mset { vo .f32 0 0 0 0x20000002 with xb := 2 })).cold poisonX2 15 = none :=
  ⟨all_run (by decide +kernel), issues_of_canIssue (by decide +kernel), by decide +kernel, by decide +kernel⟩

theorem test_SheetConversionsAndFunctions_met :
    ∀ i ∈ [Instr.vcvt { vo .f32 2 0 0 6 with rnd := .sr }, .vpack (vo .f16 2 67 0 0), .vpack (vo .e4m3 2 67 132 0x20), .vunpk (vo .f32 2 0 0 0x21),
      .vqnt (vo .i8 2 67 0 0), .vqnt (vo .i8 2 67 132 0x60), .vdqnt (vo .f32 2 67 0 0x6A), .vrcp (vo .bf16 2 0 0 0), .vrsq (vo .f32 2 0 0 0),
      .vexp2 (vo .f16 2 0 0 0), .vlog2 (vo .f32 2 0 0 0), .vtanh (masked (vo .f32 2 0 0 0))], ready.Runs 15 i := all_run (by decide +kernel)

/-- The sums of integers, the other reductions, and the move with its distance in a scalar. -/
theorem test_SheetCrossLaneOps_met :
    (∀ i ∈ [Instr.vredr (vo .i32 2 0 0 0), .vredc (vo .n32 2 0 0 0), .vscanr (vo .i32 2 0 0 0), .vredr (vo .f32 2 0 0 0), .vredc (vo .i32 2 0 0 1),
      .vscanr (vo .f32 2 0 0 2), .vmvr (vo .b32 2 0 0 0), .vmvr { vo .b32 2 0 0 0x20000000 with xb := 2 }, .vmvc (vo .b32 2 0 0 0x3FF),
      .vcswp (vo .i32 2 0 0 0x98), .vcswp (vo .f32 2 67 0 0x765), .vtrb (vo .n8 2 0 0 0)], ready.Runs 15 i) ∧
    (poisonX2.ctx 15).xm 2 = true ∧
    ∀ i ∈ [Instr.vmvr { vo .b32 2 0 0 0x20000000 with xb := 2 }, .vmvc { vo .b32 2 0 0 0x20000000 with xb := 2 }],
      poisonX2.Issues 15 i ∧ (semOf i).cold poisonX2 15 = none ∧ (semOf i).misuse poisonX2 15 = none :=
  ⟨all_run (by decide +kernel), by decide +kernel, fun i m =>
    ⟨all_issue (by decide +kernel) i m, by revert i; decide +kernel, by revert i; decide +kernel⟩⟩

/-! ## Witnesses: memory -/

/-- The last byte before the scratchpads, and the first of the hearth scratchpad. -/
theorem test_LocalWritesReadBack_met : spadBase - 1 + [(5 : Byte)].length ≤ spadBase ∧ spadBase ≤ spadBase ∧
    area (spadBase - spadBase) ≠ .flags ∧ Memory.wf State.reset.ms.mem := by decide +kernel

/-- x1 at the last 8 bytes of the hearth scratchpad that no device holds, x2 at 0. -/
def edges : State := on { withX 1 0x0FFF7E78 false with x := [(1, ⟨0x0FFF7E78, false⟩), (2, ⟨0, false⟩), (4, ⟨8, false⟩)] }

/-- A row of an AMOS whose lanes add 3 and 5 to the word at 0x1000. -/
def rowOf (due seq : Nat) : AmosRow := ⟨due, 7, seq, 0, 1, [(0x1000, 3, false), (0x1000, 5, false)]⟩

def rowsLeft : State := { ready with ms := { ready.ms with amos := [rowOf 1 5, rowOf 2 2] } }

theorem test_ScratchpadScalarAccess_met :
    (∀ i ∈ [Instr.ldx (mo 6) 6, .stx (mo 2) 6, .amo (mo 2) (ao 0 5 0 0), .amof (mo 2) (ao 7 5 6 2), .ldx { mo 6 with base := 2 } 0,
      .stx { mo 6 with base := 2 } 1, .amo { mo 4 with base := 2 } (ao 3 0 0 0), .amof { mo 4 with base := 2 } (ao 6 0 6 0)],
      edges.Runs 15 i) ∧
    ((0x0FFF7E78 : Int) = ((edges.ctx 15).xw 1).toNat + (mo 6).ofs.toInt * 8 ∧ 0x0FFF7E78 + 8 ≤ 2 ^ 28) ∧
    ((0 : Int) = ((edges.ctx 15).xw 2).toNat + (mo 6).ofs.toInt * 1) ∧
    ready.Runs 15 (.amos { mo 1 with mask := 1 } 6 0 2 .pkg 2) ∧ rowsLeft.Runs 15 .cnop ∧
    rowsLeft.ms.amos.filter (fun r => decide (r.due ≤ rowsLeft.core.beat + 1)) = [rowOf 1 5] ∧
    (rowOf 1 5).aw.toNat ∈ [1, 2, 3] ∧ (rowOf 1 5).aop.toNat < 9 ∧ ∀ l ∈ (rowOf 1 5).lanes, l.1 % 4 = 0 ∧ l.1 + 4 ≤ 2 ^ 28 :=
  ⟨all_run (by decide +kernel), by decide +kernel, by decide +kernel, runs_of_check (by decide +kernel), runs_of_check (by decide +kernel),
    by decide +kernel, by decide +kernel, by decide +kernel, by decide +kernel⟩

/-- 12_sync R295: of a row's two additions to one word, both count, and the word holds their sum. -/
theorem test_amos_row_adds :
    (match exec .cnop rowsLeft with
      | .next t => decide (t.locRead (spadBase + 0x1000) 4 = [8, 0, 0, 0] ∧ t.ms.amos = [rowOf 2 2])
      | _ => false) = true := by decide +kernel

/-- 10_memory R243, R253: a scalar load lands its bytes, little-endian and sign-extended, 5 beats after issue. -/
theorem test_ldx_lands :
    (match exec (.ldx (mo 6) 2) { ready with ms := { ready.ms with mem := memWrite [] (spadBase + 0x1000) [0x34, 0xF2, 0, 0] } } with
      | .next t => decide ((t.ctx 15).pend.map (fun (p : Pending) => (p.due, p.dst, p.val)) = [(5, .x 6, .x ⟨0xFFFFFFFFFFFFF234, false⟩)])
      | _ => false) = true := by decide +kernel

def loads (m : MemOp) : List Instr :=
  [.lds m false, .ldr m 0, .ldb m true, .ldm m, .ldx { m with reg := 6 } 6]

/-- Each load of the hearth scratchpad, each through a handle to local memory, and a gather. -/
theorem test_SheetLoadsReadTheirRows_forms_met :
    (∀ i ∈ Instr.ldg { mo 1 with mask := 1 } 2 false :: loads (mo 1), ready.Runs 15 i ∧
      (loadShape (ready.ctx 15) i).any (fun e => !isLong (ready.targets (ready.ctx 15) e.1 e.2.1)) = true) ∧
    ∀ i ∈ Instr.lds2 (ho 1) 32 1 0 false :: loads (ho 1), ready.Runs 15 i ∧
      (loadShape (ready.ctx 15) i).any (fun e => isLong (ready.targets (ready.ctx 15) e.1 e.2.1)) = true :=
  ⟨fun i m => ⟨all_run (by decide +kernel) i m, by revert i; decide +kernel⟩,
    fun i m => ⟨all_run (by decide +kernel) i m, by revert i; decide +kernel⟩⟩

/-- An LDX into x6, through the handle, is in flight; its last data, of bytes 8 to 15 of a line, comes from a home. -/
def arriving (h : Home) (arg : Arg) : State :=
  let x : Access := { id := 1, bank := 15, uid := 0, seq := 2, asid := 0, kind := .load, ilock := false, issued := 0
                      rd := [⟨0, 0, h, 0x200008, 8, 0, none, 0⟩], dest := .x 6 6, wr := [], amo := none, acq := false, rel := none
                      sent := true, hsent := true, bad := false }
  let y : Cell := { ready.cell .readReply 0 with src := 9, tag := 4, addr := 0x200008, len := 8, bytes := (List.range 8).map fun n => (0x200008 + n, 7) }
  { on { busy with locks := [⟨.x 6, 1⟩] } with
    arg := arg, ms := { ready.ms with flight := [x] }, plat := { ready.plat with lanes := 16 }
    fab := { ready.fab with
      inbox := [{ port := 0, cell := y, grant := false }]
      reqs := [{ id := 3, tag := some 4, dst := 9, addr := 0x200008, len := 8, sent := 0, why := .load 1 0 }] } }

def arrivedBytes (h : Home) : List Byte := if h = .here then List.replicate 8 0 else List.replicate 8 7

theorem test_SheetLoadsReadTheirRows_arrival_met :
    ∀ q ∈ [(Home.here, Arg.id 1, Instr.longLoadArrival), (.host, .arrival 1 (.host (List.replicate 8 7)), .longLoadArrival), (.peer 9, .id 0, .readReply)],
      let s := arriving q.1 q.2.1
      let val (p : RdPiece) : List Byte × Bool := p.got.getD (arrivedBytes q.1, false)
      (∀ x ∈ s.ms.flight, LastData s x q.2.2 val ∧ s.bankOf x.uid x.bank = some 15) ∧
      ((loadShape busy (.ldx { ho 1 with reg := 6 } 6)).any fun e => s.ms.flight.all fun x =>
        decide (x.kind = .load ∧ x.dest = e.2.2.2.2.1 ∧ x.amo = none ∧ x.bad = false ∧ x.rel = none ∧ x.wr = [] ∧
          (s.ctx 15).locks = [⟨e.2.2.2.1, x.id⟩] ∧ (∀ p ∈ x.rd, ∃ q ∈ e.2.1, q.ix = p.ix) ∧
          ∀ q ∈ e.2.1, ((x.rd.filter fun p => p.ix = q.ix).flatMap fun p => (val p).1).length = q.len)) = true ∧
      s.ms.flight.length = 1 ∧ (s.ctx 15).pend = [] := by
  intro q m
  simp only [List.mem_cons, List.not_mem_nil, or_false] at m
  rcases m with rfl | rfl | rfl
  · refine ⟨fun x hx => ?_, by decide +kernel⟩
    obtain rfl := List.mem_singleton.mp hx
    exact ⟨⟨by decide +kernel, .inl ⟨rfl, rfl, rfl, rfl, by decide +kernel⟩⟩, by decide +kernel⟩
  · refine ⟨fun x hx => ?_, by decide +kernel⟩
    obtain rfl := List.mem_singleton.mp hx
    refine ⟨⟨by decide +kernel, .inr (.inl ⟨rfl, by decide +kernel, rfl, by decide +kernel, by decide +kernel, _, rfl, by decide +kernel, ?_⟩)⟩,
      by decide +kernel⟩
    rintro (_ | n) p h
    · obtain rfl := Option.some.inj h
      decide +kernel
    · cases h
  · refine ⟨fun x hx => ?_, by decide +kernel⟩
    obtain rfl := List.mem_singleton.mp hx
    refine ⟨⟨by decide +kernel, .inr (.inr ⟨rfl, 0, _, _, 0, _, rfl, rfl, rfl, rfl, rfl, rfl, by decide +kernel, ?_⟩)⟩, by decide +kernel⟩
    intro p h
    obtain rfl := List.mem_singleton.mp h
    refine ⟨rfl, rfl, ?_, by decide +kernel⟩
    intro n hn v hv
    obtain ⟨_, -, h⟩ := List.mem_map.mp hv
    obtain rfl := (Prod.mk.inj h).2
    interval_cases n <;> rfl

/-- The address supplied to each row of an LDS. -/
theorem test_SheetLoadsReadTheirRows_met : ready.arg = .none ∧ ready.Runs 15 (.lds (mo 1) false) ∧
    ∀ r < 64, ((0x1000 + 2048 * r : Nat) : Int) = ((ready.ctx 15).xw 1).toNat + (mo 1).ofs.toInt * 2048 + 2048 * r ∧
      0x1000 + 2048 * r + 2048 ≤ 2 ^ 28 := ⟨rfl, runs_of_check (by decide +kernel), by decide +kernel⟩

def odd : State := on (withX 1 0x1001 false)

def noRegions : State := on { busy with rmask := 0 }

/-- Misaligned, and outside the regions of the mask. -/
theorem test_MisplacedScratchpadAccessTraps_met :
    (∀ i ∈ [Instr.ldx (mo 6) 6, .stx (mo 2) 3, .amo (mo 2) (ao 0 2 0 0), .amof (mo 2) (ao 0 5 6 0)], odd.Issues 15 i) ∧
    0x1001 % 8 ≠ 0 ∧ (odd.ctx 15).xm 1 = false ∧ ((0x1001 : Int) = ((odd.ctx 15).xw 1).toNat + (mo 6).ofs.toInt * 8) ∧
    (∀ i ∈ [Instr.ldx (mo 6) 6, .stx (mo 2) 3, .amo (mo 2) (ao 0 2 0 0), .amof (mo 2) (ao 0 5 6 0)], noRegions.Issues 15 i) ∧
    noRegions.regionsOk (noRegions.ctx 15).rmask 0x1000 8 = false :=
  ⟨all_issue (by decide +kernel), by decide, by decide +kernel, by decide +kernel, all_issue (by decide +kernel), by decide +kernel⟩

/-- x1 names the aperture slot of channel 0. -/
def aperture : State := on (withX 1 0x1C010000 false)

theorem test_StoresChangeTheirBytesAlone_met : ready.ms.amos = [] ∧ ready.arg = .none ∧ aperture.Runs 15 (.stx (mo 2) 5) ∧
    ((storeShape (aperture.ctx 15) (.stx (mo 2) 5)).any fun e => (aperture.targets (aperture.ctx 15) e.1 e.2).any fun q =>
      match q.2 with
      | .spad x => area x == .aperture
      | _ => false) = true ∧
    ∀ i ∈ [Instr.sts (mo 1) 6, .str (mo 1) 6 63, .sts2 (ho 1) 6 32 1 0, .stx (mo 2) 6, .stn (mo 1) 6 false, .stsc { mo 1 with mask := 1 } 6 2,
      .stm (mo 1), .amo (mo 2) (ao 0 2 0 0), .amof (mo 2) (ao 7 2 6 2)], ready.Runs 15 i ∧ (storeShape (ready.ctx 15) i).isSome = true :=
  ⟨by decide +kernel, rfl, runs_of_check (by decide +kernel), by decide +kernel, fun i m => ⟨all_run (by decide +kernel) i m, by
    fin_cases m <;> rfl⟩⟩

/-- A store that performs, one that enters flight, and an atomic that does. -/
theorem test_StoresChangeTheirBytesAlone_flight_met :
    (∀ e ∈ [(Instr.sts (mo 1) 6, false), (.sts (ho 1) 6, true), (.stx { ho 1 with reg := 2 } 6, true)], ready.Runs 15 e.1 ∧ atomicOf e.1 = none ∧
      ((storeShape (ready.ctx 15) e.1).any fun q => !(wrPieces (ready.targets (ready.ctx 15) q.1 q.2)).isEmpty) = e.2) ∧
    ready.Runs 15 (.amof { ho 1 with reg := 2 } (ao 7 2 6 2)) ∧
    ((storeShape (ready.ctx 15) (.amof { ho 1 with reg := 2 } (ao 7 2 6 2))).any fun q => isLong (ready.targets (ready.ctx 15) q.1 q.2)) = true :=
  ⟨fun e m => ⟨all_run (l := [.sts (mo 1) 6, .sts (ho 1) 6, .stx { ho 1 with reg := 2 } 6]) (by decide +kernel) e.1
      (by fin_cases m <;> simp), by revert e; decide +kernel⟩, runs_of_check (by decide +kernel), by decide +kernel⟩

theorem test_RegisterInstructionsChangeNothingElse_met : ready.ms.amos = [] ∧ ready.arg = .none ∧
    ∀ i ∈ [Instr.add p1 5 1 2, .fcvtis p1 5 1 3 .sr, .hinv p1 true 0, .vadd (vo .f32 2 67 0 0), .vpack { vo .f16 2 67 0 0 with rnd := .sr },
      .lds (mo 1) false, .ldx (mo 6) 6], ready.Runs 15 i ∧ registerOnly i = true :=
  ⟨by decide +kernel, rfl, fun i m => ⟨all_run (by decide +kernel) i m, by revert i; decide +kernel⟩⟩

/-! ## Witnesses: flags and engines -/

theorem test_FlagAndBarrierWritesQueue_met :
    ∀ i ∈ [Instr.fset p1 4 true, .fset p1 4095 false, .fclr p1 4, .fwr p1 4 2 false, .faddc p1 4 2 true, .faddc p1 4 0 false, .binit p1 2 2,
      .binit p1 4092 0, .barv p1 2 2 false, .barv p1 4092 0 true, .bexp p1 2 2 true, .bexp p1 2 2 false], ready.Runs 15 i :=
  all_run (by decide +kernel)

/-- 12_sync R285: of 64 bytes and 3 arrivals expected, the last arrival with its 64 bytes ends the phase. -/
theorem test_barrier_completes : barrierUpdate 0x0FFFFFC0 0x10001 64 1 false = (0, 0) := by decide

/-- A store in flight before the fence. -/
def storing : State :=
  { ready with
    seq := 5
    ms := { ready.ms with flight := [{ id := 1, bank := 15, uid := 0, seq := 2, asid := 0, kind := .store, ilock := false, issued := 0
                                       rd := [], dest := .none, wr := [], amo := none, acq := false, rel := none, sent := true, hsent := false, bad := false }] } }

/-- A row of an AMOS, a flag write, a compare's result, a POST, an EVPOP and a CRST, each before the fence. -/
def olderWork : List State :=
  [{ ready with seq := 5, ms := { ready.ms with amos := [{ rowOf 9 2 with uid := 0 }] } },
   { ready with seq := 5, ms := { ready.ms with rels := [⟨1, 15, 0, 2, 9, false, .pkg, 4, .set ⟨1, false⟩⟩] } },
   { on { busy with pend := [⟨9, .flag 4, .flag ⟨1, false⟩, 0, true, 2, []⟩] } with seq := 5 },
   { ready with seq := 5, sched := { ready.sched with posts := [{ id := 1, bank := 15, uid := 0, seq := 2, pkg := 0, qaddr := 0, asid := 0, priv := true, card := [], sent := false }] } },
   { ready with seq := 5, core := { ready.core with evpops := [{ id := 9, bank := 15, uid := 0, seq := 2, op := .evpop p1 2 6, xa := 0, xb := 0, due := 8, who := 0, began := true }] } },
   { ready with seq := 5, core := { ready.core with ctlOps := [{ id := 9, bank := 15, uid := 0, seq := 2, op := .crst (so 1 2 6), xa := 0, xb := 0, due := 8, who := 0, began := true }] } }]

/-- Barrier 2 has an arrival to come. -/
def armed : State := { ready with ms := { ready.ms with flags := [(3, ⟨0x10001, false⟩), (4032, ⟨1, false⟩)] } }

/-- Waits that pass, waits that hold, and a fence with and without an older access. -/
theorem test_WaitsPassOrHold_met : ready.ms.flagsWas = [] ∧ armed.ms.flagsWas = [] ∧
    (∀ i ∈ [Instr.fwait p1 4095, .fwaitGe p1 4095 0, .fwany p1 4032 2, .bwait p1 2 6, .fence p1 3 .pkg], ready.Runs 15 i) ∧
    (∀ i ∈ [Instr.fwait p1 4, .fwaitGe p1 4 2, .fwany p1 8 2, .bwait p1 2 6], armed.CanIssue 15 i (semOf i) ∧ (semOf i).stall armed 15 = some 2) ∧
    storing.Runs 15 (.fence p1 3 .pkg) ∧ (∃ a ∈ storing.ms.flight, a.uid = (storing.ctx 15).uid ∧ a.seq < storing.seq) ∧
    (storing.core.banks.map (·.1)).Nodup ∧ ∀ s ∈ olderWork, s.Runs 15 (.fence p1 3 .pkg) ∧ s.allPerformed 0 s.seq = false :=
  ⟨by decide +kernel, by decide +kernel, all_run (by decide +kernel),
    fun i m => ⟨all_may (by decide +kernel) i m, by revert i; decide +kernel⟩, runs_of_check (by decide +kernel), by decide +kernel,
    by decide +kernel, fun s m => ⟨runs_of_check (by revert s; decide +kernel), by revert s; decide +kernel⟩⟩

/-- An op of partition 0 has started. -/
def computing : State :=
  let e : QEntry := { gid := 1, op := .cmm cm, bank := 15, uid := 0, seq := 0, org := (0, 0), started := true, steps := 0, lastAt := 0
                      rpA := 0, rpB := 0, curA := 0, curB := 0, halfs := [], srs := 0, src := 0, begun := 0 }
  ready.modPart 0 fun v => { v with queue := [e] }

/-- CSUSP beside no op, beside a running one, and behind an older access. -/
theorem test_EngineOpsQueueTheirWork_met : ready.ms.amos = [] ∧
    (∀ i ∈ cs, ready.Runs 15 i ∧ ((cubeQueues ready i).isSome || (chanOf i).isSome || i == .csusp p1 0 4 || i == .cresm p1 0 ||
      i == .cqry p1 0 0 0x80 true 4) = true) ∧ ready.running (ready.membersOf 0) = [] ∧
    ready.allPerformed (ready.ctx 15).uid ready.seq = true ∧ computing.Runs 15 (.csusp p1 0 4) ∧ (computing.part 0).kind ≠ .none ∧
    computing.running (computing.membersOf 0) ≠ [] ∧ storing.Runs 15 (.csusp p1 0 4) ∧ storing.running (storing.membersOf 0) = [] ∧
    storing.allPerformed (storing.ctx 15).uid storing.seq = false :=
  ⟨by decide +kernel, fun i m => ⟨all_run (by decide +kernel) i m, by revert i; decide +kernel⟩, by decide +kernel, by decide +kernel,
    runs_of_check (by decide +kernel), by decide +kernel, by decide +kernel, runs_of_check (by decide +kernel), by decide +kernel,
    by decide +kernel⟩

/-- Two partitions of one block, of the same shape, and a chain of both. -/
def twoParts (chained : Bool) : State :=
  let chain := if chained then some 2 else none
  let v (q : BitVec 4) : Machine.Part := { Machine.Part.none with kind := .part, bank := 15, quads := q, chain := chain }
  let w (q : BitVec 4) : TailP := { TailP.zero with kind := .part, quads := q, chain := chain }
  let c : Machine.Part := { Machine.Part.none with kind := .chain, bank := 15, members := [0, 1] }
  { ready with
    cube := { ready.cube with
      parts := [(0, v 1), (1, v 2)] ++ if chained then [(2, c)] else []
      tails := [(0, w 1), (1, w 2)] ++ if chained then [(2, { TailP.zero with kind := .chain, members := [0, 1] })] else [] } }

theorem test_EngineOpsQueueTheirWork_chains_met : (twoParts false).Runs 15 (.cjoin p1 2 0 0 1 0 0 false 4) ∧
    (twoParts true).Runs 15 (.csplit p1 2 false 4) ∧ ((twoParts true).tail 2).targets 2 = [0, 1] ∧ (twoParts true).ms.amos = [] :=
  ⟨runs_of_check (by decide +kernel), runs_of_check (by decide +kernel), by decide +kernel, by decide +kernel⟩

/-- A partition and a chain whose pst is read. -/
theorem test_ControlRegisterReads_pst_met : ((twoParts true).part 2).kind = .chain ∧ ((twoParts true).part 2).members ≠ [] ∧
    ((twoParts true).part 0).kind ≠ .chain ∧ ∀ p < 16, let v := (twoParts true).part p
      let box := if v.kind = .chain then (twoParts true).part (v.members.headD 0) else v
      box.first < 16 ∧ box.last < 16 ∧ v.queue.length ≤ 64 ∧ ∀ k, v.chain = some k → k < 16 := by decide +kernel

/-- CPDRN beside no error, and beside one. -/
theorem test_EngineOpsQueueTheirWork_drain_met : ready.Runs 15 (.cpdrn p1 3 4) ∧ ((ready.ctx 15).chst 3).first = 0 ∧
    (on (busy.setChst 3 { ChStat.zero with first := 0x80000010 })).Runs 15 (.cpdrn p1 3 4) ∧
    (((on (busy.setChst 3 { ChStat.zero with first := 0x80000010 })).ctx 15).chst 3).first ≠ 0 :=
  ⟨runs_of_check (by decide +kernel), by decide +kernel, runs_of_check (by decide +kernel), by decide +kernel⟩

/-! ## Witnesses: system ops and exceptions -/

/-- The lease agent has begun an op of each kind. -/
def agents : State :=
  { ready with
    fab := { ready.fab with agent := [Instr.loffer p1 1 6, .lacc p1 1 6, .lrcl (so 2 2 6), .ldisc (so 2 2 6), .lret p1 2 6 false, .lqry (so 2 1 6),
      .frsv p1 2 6, .frel p1 2, .wset p1 1 6].map fun i => { id := 1, bank := 0, uid := 9, op := i, xa := 0, xb := 0, blk := [], asid := 0, issued := 0, ent := 0, began := true } } }

def xs : Ctx :=
  { busy with x := [(1, ⟨126, false⟩), (2, ⟨15, false⟩), (3, ⟨16, false⟩), (4, ⟨63, false⟩), (5, ⟨127, false⟩), (7, ⟨1, false⟩), (8, ⟨255, false⟩)] }

/-- A quotient is still to land in x6. -/
def late6 : Ctx := { xs with pend := [⟨9, .x 6, .x ⟨5, false⟩, 0, false, 0, []⟩] }

/-- The values on both sides of each bound: bank 15 and 16, entries 63, 127, 1 and 126, reservation 255, and 0. -/
theorem test_SystemOps_met :
    (∀ i ∈ [Instr.post p1 5 1 6, .evpop p1 1 6, .radv p1 0 0 1, .radv p1 0 1 1, .rwait p1 0 0 1], ready.Runs 15 i) ∧
    ((ready.tail 0).targets 0).Nodup ∧ (tfind (ready.part 0).rings 0).isSome = true ∧ (tfind (ready.part 0).rings 1).isSome = true ∧
    (∀ i ∈ agents.fab.agent.map (·.op), agents.Runs 15 i ∧ ∃ a ∈ agents.fab.agent, agentKind a.op = agentKind i) ∧
    (∀ a ∈ agents.fab.agent, a.began = true) ∧
    (∀ i ∈ [Instr.cseat (so 2 0 6), .crsmAt (so 2 0 6), .cuns p1 2 6, .crsm p1 2 6, .ckil p1 2 6, .csav (so 2 0 6), .csav (so 3 0 6),
      .crst (so 2 0 6), .lrcl (so 4 0 6), .lrcl (so 5 0 6), .ldisc (so 1 0 6), .lret p1 0 6 false, .frsv p1 0 6, .lqry (so 7 0 6), .lqry (so 1 0 6),
      .frel p1 8], (on xs).Runs 15 i) ∧
    ((on xs).ctx 15).locks = [] ∧ (on xs).core.ctlOps = [] ∧ (on xs).fab.agent = [] ∧ (on late6).Runs 15 (.lqry (so 7 0 6)) ∧
    ∃ p ∈ ((on late6).ctx 15).pend, p.dst = .x 6 :=
  ⟨all_run (by decide +kernel), by decide +kernel, by decide +kernel, by decide +kernel,
    fun i m => ⟨all_run (by decide +kernel) i m, by revert i; decide +kernel⟩, by decide +kernel, all_run (by decide +kernel),
    by decide +kernel, by decide +kernel, by decide +kernel, runs_of_check (by decide +kernel), by decide +kernel⟩

/-- The steward beside leases in each state: borrowed 2 OFFERED, 3 ACTIVE at 0x4000_0000, 4 RETURNED; lent 64 ACTIVE, 70 RETURNED.
Its x1 names the block `blk`, x2 entry 64, x3 the granules of entry 3, x4 one, x5 entry 70, and x7, x8, x9 entries 2, 3, 4; the
page tables of ASID 5 have an empty level 4 for address 0. -/
def leasing (blk : List Byte) : State :=
  let l (st : Lst) : Lease := { Lease.zero with lst := st, peer := 9, gcnt := 1, pidx := 66, base := 0x400000 }
  let c : Ctx := { busy with x := [(1, ⟨0x1000, false⟩), (2, ⟨64, false⟩), (3, ⟨0x40000000, false⟩), (4, ⟨1, false⟩), (5, ⟨70, false⟩),
    (7, ⟨2, false⟩), (8, ⟨3, false⟩), (9, ⟨4, false⟩), (10, ⟨9 + 1024 + 8192, false⟩)] }
  let tables := [(0x10000, 0x11001), (0x11000, 0x12001), (0x12000, 0x13001)].foldl (fun m e => memWrite m e.1 (leBytes 8 e.2)) []
  { on c with
    ms := { ready.ms with mem := memWrite tables (spadBase + 0x1000) blk, ptb := [(5, 0x10000)] }
    fab := { ready.fab with leases := [(2, l .offered), (3, { l .active with vbase := 0x40000000, fbase := 0x100040000000 }),
      (4, { l .returned with fbase := 0x100080000000 }), (64, l .active), (70, l .returned)] } }

def blockLoffer : List Byte := leBytes 8 0x800000 ++ leBytes 4 1 ++ leBytes 2 9 ++ [1, 0] ++ leBytes 2 4093

def blockLacc (acc : Byte) : List Byte := [2, acc] ++ leBytes 2 5 ++ leBytes 4 0 ++ leBytes 8 0x100000000000

def blockWset (kind : Byte) : List Byte :=
  if kind = 0 then [0, 15] ++ leBytes 2 9 ++ leBytes 2 5 ++ leBytes 2 32767 ++ leBytes 8 0xFE000000
  else if kind = 1 then [1, 63] ++ leBytes 2 0x8009 ++ leBytes 2 5 ++ leBytes 2 15 ++ leBytes 8 0x1000 ++ leBytes 8 4096 ++ [1]
  else [2, 0] ++ leBytes 2 9

def leaseRuns : List (List Byte × Instr) :=
  [(blockLoffer, .loffer p1 1 6), (blockLacc 0, .lacc p1 1 6), (blockLacc 1, .lacc p1 1 6), ([], .lrcl (so 2 4 6)), ([], .ldisc (so 3 4 6)),
   ([], .lret p1 5 6 false), ([], .lret p1 7 6 false), ([], .lret p1 8 6 true), ([], .lret p1 9 6 false), ([], .frsv p1 10 6)] ++
  [0, 1, 2].map fun k => (blockWset k, .wset p1 1 6)

theorem test_SystemOps_lease_runs_met : ∀ e ∈ leaseRuns, (leasing e.1).Runs 15 e.2 ∧ (leasing e.1).ms.amos = [] ∧
    (leasing e.1).fab.agent = [] ∧ ((leasing e.1).ctx 15).locks = [] :=
  fun e m => ⟨runs_of_check (by revert e; decide +kernel), by revert e; decide +kernel⟩

theorem test_SystemOps_loffer_met :
    let s := leasing blockLoffer
    let blk (ofs n : Nat) : Nat := numAt s (spadBase + 0x1000 + ofs) n
    (s.lease 65).lst = .free ∧ (∀ j < 65, 64 ≤ j → (s.lease j).lst ≠ .free) ∧ blk 0 8 % 2 ^ 21 = 0 ∧ 0 < blk 8 4 ∧ blk 8 4 ≤ 65536 ∧
    blk 12 2 < 1024 ∧ blk 14 1 ≤ 1 ∧ blk 15 1 = 0 ∧ blk 16 2 < 4094 ∧ blk 18 14 = 0 ∧ inHbm (blk 0 8) (2 ^ 21 * blk 8 4) = true ∧
    blk 12 2 ∉ s.fab.lost ∧ ∀ e ∈ s.fab.leases, 64 ≤ e.1 → e.2.lst ≠ .free →
      overlaps (blk 0 8) (2 ^ 21 * blk 8 4) e.2.base (leaseBytes e.2) = false := by decide +kernel

theorem test_SystemOps_lacc_met : ∀ acc ∈ [(0 : Byte), 1],
    let s := leasing (blockLacc acc)
    let blk (ofs n : Nat) : Nat := numAt s (spadBase + 0x1000 + ofs) n
    let l := s.lease 2
    2 = blk 0 1 ∧ blk 1 1 = acc.toNat ∧ l.lst = .offered ∧ l.peer.toNat ∉ s.fab.lost ∧ blk 2 2 < 8192 ∧ blk 4 4 = 0 ∧ blk 24 8 = 0 ∧
    blk 16 8 % 2 ^ 21 = 0 ∧ blk 16 8 < 2 ^ 57 ∧ blk 8 8 % 2 ^ 21 = 0 ∧ inTier2 (blk 8 8) (leaseBytes l) = true ∧
    (∀ e ∈ s.fab.leases, e.1 < 64 → e.1 ≠ 2 → e.2.reserves = true → overlaps (blk 8 8) (leaseBytes l) e.2.fbase (leaseBytes e.2) = false) ∧
    l.gcnt = 1 ∧ s.ptePlace 5 0 = some 0x13000 ∧ s.readPoi 0x13000 8 = false ∧ (numAt s 0x13000 8).testBit 0 = false := by decide +kernel

theorem test_SystemOps_leases_met :
    let s := leasing []
    (s.lease 64).lst = .active ∧ s.recalls true < 8 ∧ (s.lease 64).peer.toNat ∉ s.fab.lost ∧
    (3, s.lease 3) ∈ s.fab.leases ∧ (s.fab.leases.map (·.1)).Nodup ∧ (s.lease 3).lst = .active ∧ (s.lease 3).asid = (s.ctx 15).asid ∧
    (s.lease 3).vbase ≤ 0x40000000 ∧ 0x40000000 + 2 ^ 21 * 1 ≤ (s.lease 3).vbase + leaseBytes (s.lease 3) ∧
    (∀ e ∈ s.fab.leases, e.1 < 64 → e.1 ≠ 3 → e.2.asid = (s.ctx 15).asid →
      ¬(e.2.vbase ≤ 0x40000000 ∧ 0x40000000 + 2 ^ 21 * 1 ≤ e.2.vbase + leaseBytes e.2)) ∧
    (s.lease 70).lst = .returned ∧ (s.lease 2).lst = .offered ∧ (s.lease 2).accept = false ∧ (s.lease 4).lst = .returned ∧
    (s.lease 4).disc = [] ∧ tfind s.fab.resv 1 = none ∧ 9 ∉ s.fab.lost ∧ s.reservedOn (s.cellPort 9 1) + 2 ≤ 48 := by decide +kernel

theorem test_SystemOps_wset_met : ∀ k ∈ [(0 : Byte), 1, 2],
    let s := leasing (blockWset k)
    let blk (ofs n : Nat) : Nat := numAt s (spadBase + 0x1000 + ofs) n
    blk 25 7 = 0 ∧ blk 0 1 = k.toNat ∧ blk 4 2 < 8192 ∧ blk 24 1 < 2 ∧
    (k = 0 → blk 1 1 < 16 ∧ blk 2 2 < 1024 ∧ blk 6 2 < 32768 ∧ blk 8 8 % 2 ^ 25 = 0 ∧ blk 8 8 < 2 ^ 32 ∧ blk 16 8 = 0 ∧ blk 24 1 = 0) ∧
    (k = 1 → blk 1 1 < 64 ∧ blk 2 2 / 1024 % 32 = 0 ∧ blk 6 2 < 16 ∧ blk 16 8 % 4096 = 0) ∧
    (k = 2 → blk 1 1 = 0 ∧ blk 2 2 < 1024 ∧ blk 4 2 = 0 ∧ blk 6 2 = 0 ∧ blk 8 8 = 0 ∧ blk 16 8 = 0 ∧ blk 24 1 = 0) := by decide +kernel

/-- The change of window 15 that waits, and its cells acknowledged. -/
theorem test_SystemOps_window_met :
    (match exec (.wset p1 1 6) (leasing (blockWset 0)) with
      | .next t => t.fab.agent.all (fun u => u.began && u.op == .wset p1 1 6) && t.fab.agent.length == 1 && (t.window 15).out == 0
      | _ => false) = true := by decide +kernel

def job : Ctx := { Ctx.zero with uid := 3, pc := 20, rmask := 1, card := 0x1234, begun := 0 }

/-- The steward, whose x1 names bank 1, x2 seat 2, x4 an image, and x5 any bank. -/
def steer : Ctx := { busy with x := [(1, ⟨1, false⟩), (2, ⟨2, false⟩), (4, ⟨0x4000, false⟩), (5, ⟨31, false⟩)] }

/-- A job in bank 1 beside the steward in seat 0, with the other seats given. -/
def beside (c : Ctx) (seats : Tbl Seat) : State :=
  { ready with core := { ready.core with banks := [(1, c), (15, steer)], seats := (0, .seated 15) :: seats } }

/-- A privileged job that names itself. -/
def ofSelf : State :=
  { ready with core := { ready.core with banks := [(1, { steer with uid := 3 }), (15, steer)], seats := [(0, .free), (1, .seated 1)], running := 1 } }

/-- CSEAT of a context that is seated, of one to a free seat, and to one that is held; CUNS of a context that is away, and of one
that holds a seat; CKIL, CSAV and CRST. -/
theorem test_SystemOps_control_met :
    (ofSelf.Runs 1 (.cseat (so 1 2 6)) ∧ ofSelf.seatOf 1 = some 1 ∧ ofSelf.seat 1 = .seated 1) ∧
    (∀ i ∈ [Instr.cseat (so 1 2 6), .cseat (so 1 0 6), .cuns p1 1 6, .ckil p1 1 6, .csav (so 1 4 6), .crst (so 4 5 6)],
      (beside job []).Runs 15 i) ∧
    (beside job [(2, .seating 1 9)]).Runs 15 (.cuns p1 1 6) ∧ (beside job [(2, .seating 1 9)]).seatOf 1 = some 2 ∧
    (let s := beside job []
     s.seatOf 1 = none ∧ s.away 1 = true ∧ s.seat 2 = .free ∧ s.seat 0 = .seated 15 ∧ s.hasCtx 15 = true ∧ s.hasCtx 1 = true ∧
      (s.ctx 1).ended = none ∧ (s.ctx 1).held = 0 ∧ (s.ctx 1).streams = [] ∧ s.core.ctlOps = [] ∧ (s.ctx 15).locks = [] ∧
      (s.ctx 15).pend = [] ∧ inHbm 0x4000 69632 = true ∧ 0x4000 % 4096 = 0) :=
  ⟨⟨runs_of_check (by decide +kernel), by decide +kernel⟩, all_run (by decide +kernel), runs_of_check (by decide +kernel),
    by decide +kernel, by decide +kernel⟩

/-- An op of the unit that has begun and acts on bank 1. -/
def begun (op : Instr) (xa xb : Word) (s : State) (arg : Nat) : State :=
  { s with
    arg := .id arg
    core := { s.core with ctlOps := [{ id := 9, bank := 15, uid := 0, seq := 0, op := op, xa := xa, xb := xb, due := 0, who := 3, began := true }] } }

/-- The context that CSEAT names is seated; the seat it asks for is free; the context of CUNS has left its seat; that of CKIL has
ended; that of CSAV is away and quiet. -/
theorem test_SystemOps_landings_met :
    (begun (.cseat (so 1 2 6)) 1 2 (beside job [(2, .seating 1 0)]) 2).seat 2 = .seating 1 0 ∧
    (let s := begun (.cseat (so 1 2 6)) 1 2 (beside job [(2, .unseating 7 0)]) 2
     s.seat 2 = .unseating 7 0 ∧ (7 : Nat) ≠ 1 ∧ s.away 1 = true ∧ s.hasCtx 1 = true ∧ (s.ctx 1).ended = none ∧ (s.ctx 1).held = 0 ∧
      ({ s.core with want := [(2, 1)] } : Core).want = [(2, 1)]) ∧
    (let s := begun (.cuns p1 1 6) 1 0 { beside job [] with core := { (beside job []).core with seats := [(2, .unseating 1 0)] } } 2
     s.seat 2 = .unseating 1 0 ∧ s.core.want = [] ∧ ∀ m < 4, m ≠ 2 → s.seat m = .free) ∧
    (let s := begun (.ckil p1 1 6) 1 0 (beside { job with ended := some (.killed 0) } []) 1
     (s.ctx 1).ended = some (.killed 0) ∧ (s.ctx 1).locks = [] ∧ (s.ctx 1).pend = [] ∧ (s.core.banks.map (·.1)).Nodup) ∧
    (let s := begun (.csav (so 1 4 6)) 1 0x4000 (beside job []) 1
     (s.ctx 1).uid = 3 ∧ s.away 1 = true ∧ (s.ctx 1).streams = [] ∧ (s.ctx 1).clusters = [] ∧ (s.ctx 1).dly < 4 ∧
      (s.ctx 1).loops.length < 8 ∧ s.ms.flight = [] ∧ s.allPerformed 0 0 = true ∧ s.unitsReady 0x4000 69632 = true ∧
      s.unitsGone 0x4000 69632 = false) := by decide +kernel

/-- An image with nothing in it but its magic and its version. -/
theorem test_SystemOps_restore_met :
    let s := begun (.crst (so 4 5 6)) 0x4000 2
      { beside job [] with ms := { ready.ms with mem := memWrite [] 0x4000 [0x56, 0x5A, 0x43, 0x49, 1] } } 0
    s.bankEmpty 2 = true ∧ s.imageOk 0x4000 = true ∧ s.bankHas 2 (numAt s (0x4000 + 6) 1) = true ∧ inHbm 0x4000 69632 = true ∧
      s.unitsReady 0x4000 69632 = true ∧ s.unitsGone 0x4000 69632 = false ∧ s.allPerformed 0 0 = true := by decide +kernel

/-- A job in bank 1, held by a fault, beside the steward, whose x2 names it. -/
def pair : State :=
  { ready with
    core := { ready.core with banks := [(1, { job with held := 0x10 }), (15, withX 2 1 false)] }
    sched := { ready.sched with vhead := 1007 } }

/-- 1007 records in the vent, one fewer than fill it. -/
theorem test_ExceptionEntryAndReturn_met :
    pair.hasCtx 1 = true ∧ pair.hasCtx 15 = true ∧ pair.sched.ventQ = [] ∧ pair.ventCount < 1008 ∧ (pair.ctx 1).held ≠ 0 ∧
    (pair.ctx 1).ended = none ∧ pair.core.ctlOps = [] ∧ (pair.ctx 15).xw 2 = BitVec.ofNat 64 1 ∧ pair.Runs 15 (.crsm p1 2 6) ∧
    pair.Runs 15 (.crsmAt (so 2 2 6)) :=
  ⟨by decide +kernel, by decide +kernel, by decide +kernel, by decide +kernel, by decide +kernel, by decide +kernel, by decide +kernel,
    by decide +kernel, runs_of_check (by decide +kernel), runs_of_check (by decide +kernel)⟩

/-- The record of the example in 16_system, byte for byte (R366). -/
theorem test_record_bytes :
    ({ at_ := 0, code := 0x11, slot := 5, half := false, held := true, bank := some 3, epc := 0x140, eres := 0x140, info1 := 0x1234000100,
       info2 := 0x40040, card := 0x11, stew := false } : VentE).bytes 5 =
      [0x11, 0x25, 0x83, 0x00, 0x40, 0x01, 0x40, 0x01, 0x00, 0x01, 0x00, 0x34, 0x12, 0x00, 0x00, 0x00,
       0x40, 0x00, 0x04, 0x00, 0x00, 0x00, 0x00, 0x00, 0x11, 0x00, 0x00, 0x00, 0x05, 0x00, 0x00, 0x00] := by decide +kernel

/-- 02_bundle R49, 16_system R366, R369: an unprivileged write of basid by a job holds it with code 0x02 at its own bundle. -/
theorem test_privileged_holds_job :
    let s : State := { on { job with priv := false } with
      core := { ready.core with banks := [(1, job), (15, busy)], seats := [(0, .free), (1, .seated 1)], running := 1 } }
    (match exec (.basidWrite p1 2) s with
      | .next t => decide ((t.ctx 1).held = 2 ∧ (t.ctx 1).pc = 20 ∧ t.sched.ventQ.length = 1)
      | _ => false) = true := by decide +kernel

/-! ## Witnesses: the machine and its happenings -/

theorem test_EveryStepKeepsMemoryCanonical_met : State.reset.MemOk ∧
    (match step State.reset with
      | .next t => decide (t.core.beat = 1)
      | _ => false) = true := ⟨by unfold State.MemOk; decide +kernel, by decide +kernel⟩

/-- A queue in qmap 0 with the bytes given, its card at 0. -/
def queued (tail clog : Nat) : State :=
  { ready with
    arg := .id 0
    sched := { ready.sched with qmap := [(0, 0x4000)] }
    ms := { ready.ms with mem := memWrite (memWrite [] 0x4000 (leBytes 8 tail)) 0x403C (leBytes 1 clog) } }

def waitingEvent : VentE :=
  { at_ := 0, code := 1, slot := 15, half := false, held := false, bank := none, epc := 0, eres := 0, info1 := 0, info2 := 0, card := 0, stew := false }

/-- A card to accept; a producer one beyond the bound; a happening at the head of the agenda. -/
theorem test_EnabledEventsTakePlace_met :
    (queued 2 1).arg = .id 0 ∧ ((queued 2 1).cardAccept 0).isSome = true ∧ ((queued 3 1).cardAccept 0).isSome = true ∧
    (queued 3 1).queueAt 0 = some 0x4000 ∧ (queued 3 1).unitsReady 0x4000 128 = true ∧
    ((queued 3 1).qdesc 0x4000).acc < ((queued 3 1).qdesc 0x4000).tail ∧
    ((queued 3 1).qdesc 0x4000).acc < ((queued 3 1).qdesc 0x4000).done + min 256 (2 ^ ((queued 3 1).qdesc 0x4000).clog) ∧
    ((queued 3 1).qdesc 0x4000).done + 2 ^ ((queued 3 1).qdesc 0x4000).clog < ((queued 3 1).qdesc 0x4000).tail ∧
    (Instr.coneSample).slot = none ∧ Instr.coneSample ≠ .bundleIssue := by decide +kernel

/-- A step of an op on the input ring and the west bank, deep and in planes. -/
def stepping (plane : Bool) : State :=
  let c : CmmOp := { cm with ain := 0, bin := 8 }
  let e : QEntry := { gid := 1, op := if plane then .cmmp c else .cmm c, bank := 15, uid := 0, seq := 0, org := (0, 0), started := true
                      steps := 0, lastAt := 0, rpA := 0, rpB := 0, curA := 0, curB := 0, halfs := [], srs := 0, src := 0, begun := 0 }
  { ready.modPart 0 fun v => { v with queue := [e], budget := 5, rings := [(0, { ringOf ring0 1 with counted := 1 })] } with
    arg := .step 0 ⟨[], [], []⟩ }

/-- A drain of the accumulator that is due. -/
def draining (east : Bool) : State :=
  let e : QEntry := { gid := 1, op := .cdrn { cd with east := east }, bank := 15, uid := 0, seq := 0, org := (0, 0), started := true
                      steps := 0, lastAt := 0, rpA := 0, rpB := 0, curA := 0, curB := 0, halfs := [], srs := 0, src := 0, begun := 0 }
  { ready.modPart 0 fun v => { v with queue := [e], budget := 33, rings := [(1, ringOf ring1 2)] } with arg := .id 0 }

/-- A copy of eight words to 0x2000, which one beat can move. -/
def copied : Desc :=
  { id := 4, kind := .copy, bank := 15, uid := 0, seq := 0, asid := 0, rmask := BitVec.allOnes 64, rec_ := rec1, src := .spad 0x1000
    dst := .spad 0x2000, cflag := 40, cadd := false, rflag := false, bflag := 0, str := 0, srs := 0, srcC := 0, swaps := [], gens := []
    started := true, claimed := true, begun := 0, pushed := [], prev := Sheet.zero, written := 0, closed := none, bytes := 0, sent := false
    home := none, got := [], gotPoi := [], moved := 0, part := [], old := [], hostAsk := [], hostWr := [], ended := false, err := none
    places := [] }

def copying (r : LRec) : State :=
  { ready with
    arg := .id 3
    core := { ready.core with beat := 16 }
    ms := { ready.ms with mem := memWrite [] (spadBase + 0x1000) [0, 0, 0x80, 0x3F] }
    copy := { ready.copy with queues := [(3, [{ copied with rec_ := r }])] } }

theorem test_EnabledEventsTakePlace_step_met : ∀ p ∈ [false, true], ∃ e c, ((stepping p).part 0).queue = [e] ∧
    e.op = (if p then .cmmp c else .cmm c) ∧ e.started = true ∧ e.steps < cmmSteps p c ∧ 0 < ((stepping p).part 0).budget ∧
    ((stepping p).part 0).hop = none ∧ (stepping p).linesReady 0 e = true := by
  intro p m
  refine ⟨((stepping p).part 0).queue.headD ⟨0, .cnop, 0, 0, 0, (0, 0), false, 0, 0, 0, 0, 0, 0, [], 0, 0, 0⟩, { cm with ain := 0, bin := 8 }, ?_⟩
  revert p; decide +kernel

theorem test_EnabledEventsTakePlace_drain_met : ∀ k ∈ [false, true],
    let s := draining k
    let v := s.part 0
    let c : CdrnOp := { cd with east := k }
    v.queue.map (·.op) = [.cdrn c] ∧ (v.queue.all fun e => e.started && v.reach (e.begun +
      (if c.east then drainCols c v.quads e.org else drainRows c v.quads e.org) + 32)) = true ∧
    tfind v.rings c.ring.toNat = some (ringOf ring1 2) ∧ s.pow.droop = [] ∧ 64 ∣ slotOfs v.quads ring1 0 ∧
    slotOfs v.quads ring1 0 + drainBytes c.dfmt * (drainRows c v.quads (0, 0) * drainCols c v.quads (0, 0)) ≤ nQuads v.quads * 2 ^ 20 ∧
    ∀ j < 16, (s.part j).sflags = [] ∧ (j ≠ 0 → (s.part j).queue = []) := by decide +kernel

/-- A copy as it is, and one that rounds each word to BF16. -/
theorem test_EnabledEventsTakePlace_copy_met : ∀ r ∈ [rec1, { rec1 with conv := 1, dstr := [2, 16, 16, 16] }],
    (copying r).room 3 = 256 ∧ (copying r).fab.reqs = [] ∧ 0 < r.elems ∧ 0 < r.dsz ∧ r.elems * r.dsz ≤ 256 ∧ (r.conv = 0 → r.ssz = r.dsz) ∧
    ∀ m < r.elems, r.srcOf m = (4 * m : Nat) ∧ r.dstOf m = (r.dsz * m : Nat) ∧
      (∀ i < r.ssz, (copying r).regionsOk copied.rmask (0x1000 + 4 * m + i) 1 = true ∧
        (copying r).touchedNow (regionOf (0x1000 + 4 * m + i)) = false) ∧
      ∀ j < r.dsz, (copying r).regionsOk copied.rmask (0x2000 + r.dsz * m + j) 1 = true ∧
        (copying r).touchedNow (regionOf (0x2000 + r.dsz * m + j)) = false := by decide +kernel

def flagRel : Release := { id := 1, bank := 15, uid := 0, seq := 0, due := 0, late := false, scp := .pkg, ix := 4093, upd := .set ⟨5, false⟩ }

/-- `ready` in which the core is as given. -/
def coreOf (f : Core → Core) (a : Arg) : State := { ready with core := f ready.core, arg := a }

def hopping : State :=
  { ready with
    arg := .id 0
    cube := { ready.cube with parts := [(0, { Machine.Part.none with kind := .part, bank := 15, quads := 1, hop := some 0, hopHi := false, heldLow := some 0 })] } }

def loading (first count : Nat) : State :=
  { ready with
    core := { ready.core with beat := 10 }
    plat := { ready.plat with load := some { src := 0, first := first, count := count, lflag := 0, uid := 0, seq := 0, began := 1 } } }

/-- RADVs of four slots of the input ring and of the drain ring, the first with its claims. -/
def advancing (ring : Nat) : State :=
  let s := ready.modRing 0 0 fun r => { r with claims := List.replicate 4 ⟨1, false⟩ }
  { s with cube := { s.cube with radvs := [⟨1, 15, 0, 0, [0], ring, 4, true⟩] } }

/-- A scalar, a sheet, a mask, a handle and a flag are to land in a context with its cluster 0 awake. -/
def landing (d : PDest) (v : PVal) : State :=
  on { busy with clusters := [(0, .awake)], pend := [⟨0, d, v, 1, true, 3, []⟩] }

theorem test_EventEffects_results_met :
    ∀ q ∈ [(PDest.x 5, PVal.x ⟨7, true⟩), (.v 1, .v Sheet.zero), (.m 1, .m MaskV.ones), (.h 31, .h Handle.zero), (.flag 4093, .flag ⟨1, false⟩)],
      let s := landing q.1 q.2
      s.core.banks.map (·.1) = [15] ∧ s.core.evpops = [] ∧ (s.ctx 15).pend.map (fun (p : Pending) => (p.due, p.blks)) = [(0, [])] ∧
      0 ≤ s.core.beat ∧ (s.ctx 15).clus 0 ≠ .gated ∧ 0 ∉ (s.ctx 15).bad ∧ tget s.ms.flagSeq 4093 0 ≤ 3 := by decide +kernel

/-- A CRAIL is about to start, its block on the given rail. -/
def railing (hi low : Bool) : State :=
  let e : QEntry := { gid := 1, op := .crail p1 0 hi, bank := 15, uid := 0, seq := 0, org := (0, 0), started := false, steps := 0, lastAt := 0
                      rpA := 0, rpB := 0, curA := 0, curB := 0, halfs := [], srs := 0, src := 0, begun := 0 }
  { ready.modPart 0 fun v => { v with queue := [e] } with arg := .id 0, pow := { ready.pow with lowBlk := if low then [0] else [] } }

/-- A hop to each rail, and a request for the rail the block is on. -/
theorem test_EventEffects_crail_met : ∀ hi ∈ [false, true], ∀ low ∈ [false, true],
    let s := railing hi low
    let v := s.part 0
    v.queue.map (fun (e : QEntry) => (e.op, e.started)) = [(.crail p1 0 hi, false)] ∧ v.kind = .part ∧ v.err = false ∧ v.susp = false ∧
      s.allPerformed 0 0 = true ∧ v.hop = none ∧ v.heldLow = none ∧
      ((∃ blk ∈ v.blocks, (blk ∈ s.pow.lowBlk ↔ hi = true)) ∨ ∀ blk ∈ v.blocks, (blk ∈ s.pow.lowBlk ↔ hi = false)) := by decide +kernel

theorem test_EventEffects_radv_met : ∀ k < 2, (advancing k).ms.rels = [] ∧
    (∃ r, (advancing k).cube.radvs = [r] ∧ r.claimed = true ∧ (advancing k).allPerformed r.uid r.seq = true ∧ r.ids.Nodup ∧
      ∃ x, tfind ((advancing k).part 0).rings r.ring = some x ∧ ringIn x.cfg = decide (k = 0) ∧
        (k = 0 → x.claims = List.replicate r.ns ⟨r.id, false⟩)) := by
  intro k h
  refine ⟨by interval_cases k <;> decide +kernel, ⟨1, 15, 0, 0, [0], k, 4, true⟩, rfl, rfl, ?_, List.nodup_singleton 0, ?_⟩ <;>
    interval_cases k <;> decide +kernel

theorem test_EventEffects_landings_met :
    ({ ready with ms := { ready.ms with rels := [flagRel] } } : State).relReady flagRel = true ∧ flagRel.due = ready.core.beat ∧
    (coreOf (fun c => { c with beat := 5 }) .none).relReady flagRel = true ∧
    (coreOf (fun c => { c with seats := [(2, .seating 1 0)] }) (.id 2)).seat 2 = .seating 1 0 ∧
    (coreOf (fun c => { c with seats := [(2, .unseating 1 0)] }) (.id 2)).seat 2 = .unseating 1 0 ∧ ready.core.ctlOps = [] ∧
    ready.core.want = [] := by decide +kernel

theorem test_EventEffects_seats_met :
    let s := on { busy with atPoint := true, unseat := true, waitBts := 1024, dline := some 99, clusters := [(3, .waking 0)] }
    let t : State := { s with core := { s.core with banks := (1, { job with clusters := [] }) :: s.core.banks }, ms := { s.ms with amosEnd := some 0 } }
    s.seatOf 15 = some 0 ∧ s.seat 0 = .seated 15 ∧ (s.ctx 15).atPoint = true ∧ (s.ctx 15).unseat = true ∧ 1024 ≤ (t.ctx 15).waitBts ∧
    (∃ b < 16, t.readyAway b = true) ∧ (s.ctx 15).dline = some 99 ∧ (s.ctx 15).ended = none ∧ (s.ctx 15).held = 0 ∧
    3 ∉ (s.ctx 15).bad ∧ (s.ctx 15).clus 3 = .waking 0 ∧ t.ms.amosEnd = some 0 ∧ t.nextToSeat = some 1 ∧
    ((List.range 4).find? fun k => t.openSeat k && t.seat k == .free) = some 1 := by decide +kernel

theorem test_EventEffects_units_met :
    pair.ventCount < 1008 ∧ ready.droops 47 = false ∧ hopping.partOfBlock 0 = some 0 ∧ (hopping.part 0).hop = some 0 ∧
    (hopping.part 0).heldLow = some 0 ∧ (hopping.part 0).hopWho = none ∧ (hopping.part 0).queue = [] ∧ 7 ∉ ready.plat.xhbm ∧ ready.plat.leaf < 2 ^ 25 ∧
    2 ^ 25 ≤ ({ ready.plat with leaf := 2 ^ 25 } : Plat).leaf := by decide +kernel

/-- A load that has written a bundle. -/
def halfLoaded : State := { loading 0 2 with plat := { (loading 0 2).plat with isDone := 1 } }

/-- The first bundle of the store, and the last; the first of two, and the second. -/
theorem test_EventEffects_load_met : ∀ s ∈ [loading 0 1, loading 65535 1, loading 0 2, halfLoaded],
    s.plat.load.all (fun l => s.allPerformed l.uid l.seq && decide (l.first + l.count ≤ 65536) && inHbm l.src (128 * l.count) &&
      decide (l.began < s.core.beat ∧ s.plat.isDone.toNat < l.count) && s.unitsReady (l.src + 128 * s.plat.isDone.toNat) 128 &&
      !s.readPoi (l.src + 128 * s.plat.isDone.toNat) 128) = true := by decide +kernel

/-- Log 1: with a due seating, the package's next step is that it completes. -/
theorem test_due_seating :
    (match step (coreOf (fun c => { c with seats := [(0, .seated 15), (1, .seating 1 0)], banks := (1, job) :: c.banks }) .none) with
      | .next t => decide (t.seat 1 = .seated 1 ∧ t.core.beat = 0)
      | _ => false) = true := by decide +kernel

end Sys2Proof.Tests
end

section
/-! PROOFS. The header of a bundle: what the decoder accepts (02_bundle R24), and what its tests read (02_bundle R21). -/

namespace Sys2Proof.Machine
open Sys2Proof

/-! ## What a decoded bundle is -/

/-- The decoder reads the tests and the targets at their places in the header, and every bundle it accepts passes the checks
across ops. -/
theorem decodeBundle_eq_ok {w : BitVec 1024} {bd : Bundle} (h : decodeBundle w = .ok bd) :
    bd.check = none ∧ bd.tests = (List.range 4).map (testAt w) ∧
      bd.targets = (List.range 4).map fun k => w.extractLsb' (72 + 16 * k) 16 := by
  unfold decodeBundle at h
  split at h
  · cases h
  · split at h
    · cases h
    · dsimp only at h
      split at h
      · cases h
      next hcheck =>
        cases h
        exact ⟨hcheck, rfl, rfl⟩

/-- The header's part of the checks: an invalid test is 0 throughout, and so is the target of a leaf that no test selects. -/
theorem header_of_check {bd : Bundle} (h : bd.check = none) :
    (∀ t ∈ bd.tests, t.valid = false → t.pol = false ∧ t.ix = 0) ∧
      ∀ k < 4, bd.targets[k]? ≠ some 0 → selectable bd.tests k = true := by
  unfold Bundle.check at h
  split at h
  · cases h
  next htests =>
    split at h
    · cases h
    next htargets =>
      exact ⟨by simpa using htests, by simpa [not_imp_comm] using htargets⟩

/-- The invalid tests of a decoded bundle are 0 throughout. -/
theorem invalid_testAt_zero {w : BitVec 1024} {bd : Bundle} (h : decodeBundle w = .ok bd) {k : Nat} (hk : k < 4)
    (hv : (testAt w k).valid = false) : (testAt w k).pol = false ∧ (testAt w k).ix = 0 := by
  obtain ⟨hcheck, htests, -⟩ := decodeBundle_eq_ok h
  refine (header_of_check hcheck).1 (testAt w k) ?_ hv
  rw [htests]
  exact List.mem_map_of_mem (List.mem_range.2 hk)

/-- A target of a decoded bundle that is not 0 belongs to a leaf that its tests can select. -/
theorem selectable_of_target_ne_zero {w : BitVec 1024} {bd : Bundle} (h : decodeBundle w = .ok bd) {k : Nat} (hk : k < 4)
    (ht : w.extractLsb' (72 + 16 * k) 16 ≠ 0) : selectable ((List.range 4).map (testAt w)) k = true := by
  obtain ⟨hcheck, htests, htargets⟩ := decodeBundle_eq_ok h
  rw [← htests]
  refine (header_of_check hcheck).2 k hk ?_
  rw [htargets, List.getElem?_map, List.getElem?_range hk]
  simpa using ht

/-- Settles O4: a decoded bundle passed `Bundle.check`, whose first two tests are those of R24; each leaf's `selectable` reads
the valid bits that R24 names for it. -/
theorem headerHasOneEncoding : Obligations.HeaderHasOneEncoding := by
  unfold Obligations.HeaderHasOneEncoding
  intro w bd h
  refine ⟨fun _ => invalid_testAt_zero h, fun ht => ?_, fun ht => ?_, fun ht => ?_, fun ht => ?_⟩
  · have hab : ((testAt w 0).valid && (testAt w 1).valid) = true := selectable_of_target_ne_zero h (by decide : 0 < 4) ht
    exact Bool.and_eq_true_iff.1 hab
  · exact selectable_of_target_ne_zero h (by decide : 1 < 4) ht
  · exact selectable_of_target_ne_zero h (by decide : 2 < 4) ht
  · exact selectable_of_target_ne_zero h (by decide : 3 < 4) ht

/-! ## Tests and the fixed flags -/

/-- 02_bundle R21: a test is true when it is valid and its flag is as its polarity says. -/
theorem State.test_eq_true (s : State) (t : Test) :
    s.test t = true ↔ t.valid = true ∧
      ((t.pol = true ∧ (s.flag t.ix.toNat).val ≠ 0) ∨ (t.pol = false ∧ (s.flag t.ix.toNat).val = 0)) := by
  unfold State.test
  cases t.pol with
  | true => simp
  | false => simp

@[simp] theorem State.flag_4094 (s : State) : s.flag 4094 = ⟨0, false⟩ := rfl

@[simp] theorem State.flag_4095 (s : State) : s.flag 4095 = ⟨1, false⟩ := rfl

/-- What a word held is kept beside the flag words: every flag reads as before. -/
@[simp] theorem State.noteFlag_flag (s : State) (u n m : Nat) : (s.noteFlag u n).flag m = s.flag m := rfl

/-- A write of f4094 or f4095 that lands at the start of a beat changes no flag. -/
theorem State.landFlag_flag_fixed (s : State) (u : Nat) {n : Nat} (v : FlagW) (h : 4094 ≤ n) (m : Nat) :
    (s.landFlag u n v).flag m = s.flag m := by
  rw [State.landFlag, State.setFlag_fixed _ n v h, State.noteFlag_flag]

/-- Settles O13, from the rule of a test, the values of the two fixed flags and the rule that their writes are discarded. -/
theorem testsReadFlagWords : Obligations.TestsReadFlagWords := by
  unfold Obligations.TestsReadFlagWords
  refine ⟨State.test_eq_true, fun s => ⟨by rw [State.flag_4095], by rw [State.flag_4094]⟩, fun s v u => ?_⟩
  have h4095 : 4094 ≤ 4095 := by decide
  exact ⟨s.setFlag_fixed 4094 v le_rfl, s.setFlag_fixed 4095 v h4095, fun n =>
    ⟨s.landFlag_flag_fixed u v le_rfl n, s.landFlag_flag_fixed u v h4095 n⟩⟩

end Sys2Proof.Machine
end

section
/-! PROOFS. A beat of one instruction as its context sees it, and LBRK (04_sequencing R77, R88). -/

namespace Sys2Proof.Machine
open Sys2Proof

/-! ## The end of a beat leaves the contexts -/

/-- Steps that each write the memory system alone write, one after another, the memory system alone. -/
theorem foldl_writes_ms {α : Type} {g : State → α → State} (hg : ∀ t i, ∃ m, g t i = { t with ms := m }) (l : List α)
    (s : State) : ∃ m, l.foldl g s = { s with ms := m } := by
  refine foldl_keeps (P := fun t => ∃ m, t = { s with ms := m }) ?_ l ⟨s.ms, rfl⟩
  rintro _ i ⟨m, rfl⟩
  exact hg { s with ms := m } i

theorem State.setFlag_writes_ms (s : State) (n : Nat) (v : FlagW) : ∃ m, s.setFlag n v = { s with ms := m } :=
  ⟨_, s.setFlag_spec n v⟩

theorem State.locWrite_writes_ms (s : State) (a : Nat) (bs : List Byte) (poi : Bool) :
    ∃ m, s.locWrite a bs poi = { s with ms := m } := by
  unfold State.locWrite
  split
  · exact foldl_writes_ms (fun t _ => t.setFlag_writes_ms _ _) _ s
  · exact ⟨_, rfl⟩

theorem State.amosRow_writes_ms (s : State) (r : AmosRow) : ∃ m, s.amosRow r = { s with ms := m } :=
  foldl_writes_ms (fun t _ => t.locWrite_writes_ms _ _ _) _ s

/-- The rows of an AMOS write memory, flags and marks, and no part of the core. -/
@[simp] theorem State.amosTick_core (s : State) : s.amosTick.core = s.core := by
  unfold State.amosTick
  obtain ⟨m, h⟩ := foldl_writes_ms State.amosRow_writes_ms _ _
  rw [h]
  exact s.touch_core _

/-- A beat in which no context stalls leaves the banks at its end. -/
@[simp] theorem State.endBeat_nil_banks (s : State) : (s.endBeat []).core.banks = s.core.banks := by
  unfold State.endBeat
  rw [State.amosTick_core]
  rfl

@[simp] theorem State.endBeat_nil_ctx (s : State) (k : Nat) : (s.endBeat []).ctx k = s.ctx k := by
  unfold State.ctx
  rw [State.endBeat_nil_banks]

@[simp] theorem State.endBeat_nil_hasCtx (s : State) (k : Nat) : (s.endBeat []).hasCtx k = s.hasCtx k := by
  unfold State.hasCtx
  rw [State.endBeat_nil_banks]

/-! ## The context of an instruction alone, at the start and the end of its beat -/

/-- The instruction of a beat finds its context counted and moved on. -/
theorem State.ctx_begun {s : State} {b : Nat} (h : s.hasCtx b = true) : (s.begun b).ctx b = (s.ctx b).passed b :=
  (s.noteIssue 0).ctx_modCtx_same b _ h

@[simp] theorem State.begun_hasCtx (s : State) (b k : Nat) : (s.begun b).hasCtx k = s.hasCtx k :=
  (s.noteIssue 0).hasCtx_modCtx k b _

/-- Moving on writes the position and the delay state of a counted context alone. -/
theorem Ctx.passed_spec (c : Ctx) (b : Nat) :
    c.passed b = { c.count b with pc := (c.passed b).pc, dly := (c.passed b).dly, dtgt := (c.passed b).dtgt } := by
  unfold Ctx.passed
  rcases c.dly with _ | _ | n <;> rfl

@[simp] theorem Ctx.passed_loops (c : Ctx) (b : Nat) : (c.passed b).loops = c.loops := by
  rw [Ctx.passed_spec]; rfl

@[simp] theorem Ctx.passed_vrb (c : Ctx) (b : Nat) : (c.passed b).vrb = c.vrb := by
  rw [Ctx.passed_spec]; rfl

@[simp] theorem Ctx.passed_mrb (c : Ctx) (b : Nat) : (c.passed b).mrb = c.mrb := by
  rw [Ctx.passed_spec]; rfl

@[simp] theorem Ctx.passed_atPoint (c : Ctx) (b : Nat) : (c.passed b).atPoint = false := by
  rw [Ctx.passed_spec]; rfl

/-- A context after the rest of the beat of its bundle at `n`: what leaving its seat clears, if it ended, or the note of the
deadline of 04_sequencing R97. -/
def Ctx.closed (c : Ctx) (n : BundleNo) : Ctx :=
  if c.ended.isSome then { c with unseat := false, waitBts := 0, atPoint := false }
  else if c.since = 65536 then { c with dline := some n } else c

@[simp] theorem Ctx.closed_loops (c : Ctx) (n : BundleNo) : (c.closed n).loops = c.loops := by
  unfold Ctx.closed; split_ifs <;> rfl

@[simp] theorem Ctx.closed_pc (c : Ctx) (n : BundleNo) : (c.closed n).pc = c.pc := by
  unfold Ctx.closed; split_ifs <;> rfl

@[simp] theorem Ctx.closed_vrb (c : Ctx) (n : BundleNo) : (c.closed n).vrb = c.vrb := by
  unfold Ctx.closed; split_ifs <;> rfl

@[simp] theorem Ctx.closed_mrb (c : Ctx) (n : BundleNo) : (c.closed n).mrb = c.mrb := by
  unfold Ctx.closed; split_ifs <;> rfl

/-- The end of a beat makes no pre-emption point. -/
theorem Ctx.closed_atPoint {c : Ctx} (n : BundleNo) (h : c.atPoint = false) : (c.closed n).atPoint = false := by
  unfold Ctx.closed; split_ifs
  · rfl
  · exact h
  · exact h

/-- Leaving a seat clears what the context's wait for it noted. -/
theorem State.ctx_leaveSeat {s : State} {b : Nat} (h : s.hasCtx b = true) :
    (s.leaveSeat b).ctx b = { s.ctx b with unseat := false, waitBts := 0, atPoint := false } := by
  unfold State.leaveSeat
  split
  · exact State.ctx_modCtx_same (s.setSeat _ _) b _ h
  · exact s.ctx_modCtx_same b _ h

theorem State.ctx_closed {s : State} {b : Nat} (h : s.hasCtx b = true) (n : BundleNo) :
    (s.closed b n).ctx b = (s.ctx b).closed n := by
  have hb : (s.endBeat []).hasCtx b = true := by rwa [State.endBeat_nil_hasCtx]
  unfold State.closed Ctx.closed
  dsimp only
  rw [State.endBeat_nil_ctx]
  split
  · rw [State.ctx_leaveSeat hb, State.endBeat_nil_ctx]
  · rw [State.ctx_modCtx_same _ b _ hb, State.endBeat_nil_ctx]

/-- The context after a beat whose one instruction changes its context by `f`. -/
theorem State.ctx_after_modCtx {s : State} {b : Nat} (h : s.hasCtx b = true) (f : Ctx → Ctx) :
    (s.after b fun t => t.modCtx b f).ctx b = (f ((s.ctx b).passed b)).closed (s.ctx b).pc := by
  have hb : (s.begun b).hasCtx b = true := by rwa [State.begun_hasCtx]
  unfold State.after
  rw [State.ctx_closed (by rwa [State.hasCtx_modCtx]), State.ctx_modCtx_same _ b f hb, State.ctx_begun h]

/-! ## LBRK -/

/-- 04_sequencing R88: the entries that LBRK pops, and where it continues. -/
def Ctx.lbrk (tgt : BundleNo) (depth : BitVec 3) (c : Ctx) : Ctx :=
  { c with loops := c.loops.take (c.loops.length - depth.toNat), pc := tgt }

theorem exec_lbrk (tgt : BundleNo) (depth : BitVec 3) (s : State) :
    exec (.lbrk tgt depth) s = issueSolo (.lbrk tgt depth) (lbrkSem tgt depth) s := rfl

/-- LBRK pops and pushes no stream and has no later effect. -/
theorem lbrkSem_effect (tgt : BundleNo) (depth : BitVec 3) (s : State) (b : Nat) :
    (lbrkSem tgt depth).effect s b = fun t => t.modCtx b (·.lbrk tgt depth) := rfl

/-- LBRK names no sheet and no stream, so its one cause is the underflow of its own. -/
theorem lbrkSem_cause (tgt : BundleNo) (depth : BitVec 3) (s : State) (b : Nat) :
    (lbrkSem tgt depth).cause s b =
      if (s.ctx b).loops.length < depth.toNat then some { code := 0x05, info1 := (s.ctx b).loops.length } else none := rfl

theorem exec_lbrk_of_runs {s : State} {b : Nat} {tgt : BundleNo} {depth : BitVec 3} (h : s.Runs b (.lbrk tgt depth)) :
    exec (.lbrk tgt depth) s = .next (s.after b fun t => t.modCtx b (·.lbrk tgt depth)) := by
  have hx : s.Executes b (.lbrk tgt depth) (lbrkSem tgt depth) := h
  rw [exec_lbrk, issueSolo_executes hx (by simp), lbrkSem_effect]

theorem exec_lbrk_of_underflow {s : State} {b : Nat} {tgt : BundleNo} {depth : BitVec 3} (h : s.Issues b (.lbrk tgt depth))
    (hu : (s.ctx b).loops.length < depth.toNat) : exec (.lbrk tgt depth) s =
      .next (s.raised b (.lbrk tgt depth) { code := 0x05, info1 := (s.ctx b).loops.length }) := by
  have hr : s.Ready b (.lbrk tgt depth) (lbrkSem tgt depth) := h
  rw [exec_lbrk]
  refine issueSolo_raises hr ?_
  rw [lbrkSem_cause, if_pos hu]
  rfl

/-- Settles O35: LBRK's own change of its context, between the start of the beat and its end, which keep the stack and the
bases and make no pre-emption point; or, on a stack too short, its one cause. -/
theorem lbrkPopsAndContinues : Obligations.LbrkPopsAndContinues := by
  unfold Obligations.LbrkPopsAndContinues
  intro s b tgt depth
  refine ⟨fun _ hruns => ⟨_, exec_lbrk_of_runs hruns, ?_⟩, fun hu hissues => exec_lbrk_of_underflow hissues hu⟩
  rw [State.ctx_after_modCtx hruns.alone.here]
  refine ⟨?_, ?_, ?_, ?_, Ctx.closed_atPoint _ ?_⟩ <;> simp [Ctx.lbrk]

end Sys2Proof.Machine
end

section
/-! PROOFS. A word of an S slot and its fields (02_bundle R33), and MADD (06_scalar R130). -/

namespace Sys2Proof.Laws

/-! ## A word and its fields -/

/-- The fields of the S layout cover a word: written one after another they give it back. -/
theorem encS_fields (w : BitVec 64) :
    encS (w.extractLsb' 56 8) (SWord.p w) (SWord.d w) (SWord.a w) (SWord.b w) (SWord.imm w) = w := by
  unfold encS SWord.p SWord.d SWord.a SWord.b SWord.imm
  rw [BitVec.extractLsb'_append_extractLsb'_eq_extractLsb' (rfl : 56 = 51 + 5),
    BitVec.extractLsb'_append_extractLsb'_eq_extractLsb' (rfl : 51 = 45 + 6),
    BitVec.extractLsb'_append_extractLsb'_eq_extractLsb' (rfl : 45 = 39 + 6),
    BitVec.extractLsb'_append_extractLsb'_eq_extractLsb' (rfl : 39 = 33 + 6),
    BitVec.extractLsb'_append_extractLsb'_eq_extractLsb' (rfl : 33 = 0 + 33)]
  exact ext_all w

theorem encS_imm_inj (op : BitVec 8) (p : Path) (d a b : XReg) (i j : BitVec 33) :
    encS op p d a b i = encS op p d a b j ↔ i = j :=
  BitVec.append_right_inj _

/-- An immediate that names a register in its low 6 bits alone is the word's own where its other 27 bits are 0. -/
theorem regImm_eq_imm_iff (w : BitVec 64) : 0#27 ++ SWord.f w 0 6 = SWord.imm w ↔ w.extractLsb' 6 27 = 0 := by
  have himm : w.extractLsb' 6 27 ++ SWord.f w 0 6 = SWord.imm w := by
    unfold SWord.f SWord.imm
    rw [BitVec.extractLsb'_append_extractLsb'_eq_extractLsb' (rfl : 6 = 0 + 6)]
  rw [← himm, BitVec.append_left_inj, eq_comm]
  rfl

/-! ## What the decoder makes of an S0 word -/

/-- The S0 slot of a bundle that holds a word there alone. -/
theorem decodeSlot_s0_word (w : BitVec 64) :
    decodeSlot (w.setWidth 1024 <<< 192) .s0 = accept .s0 encodeS w (fieldsS w) := by
  have hword : (w.setWidth 1024 <<< 192).extractLsb' 192 64 = w := by
    apply BitVec.eq_of_getLsbD_eq
    intro i hi
    have hbit : 192 + i < 1024 := by omega
    simp [hi, hbit]
  show accept .s0 encodeS ((w.setWidth 1024 <<< 192).extractLsb' 192 64) (fieldsS _) = _
  rw [hword]

/-- A well-formed candidate of its slot is taken exactly where it encodes to the word itself. -/
theorem accept_candidate {n : Nat} {s : Slot} {enc : Instr → Option (BitVec n)} {w : BitVec n} {i : Instr} (hw : w ≠ 0)
    (hwf : i.wf = true) (hs : i.accepts s = true) :
    accept s enc w (some i) = if enc i = some w then .ok (some i) else .error .illegalOperands := by
  unfold accept
  rw [if_neg (by simpa using hw)]
  simp [hwf, hs]

/-! ## The word of MADD -/

theorem fieldsS_madd {w : BitVec 64} (hop : w.extractLsb' 56 8 = 0x07) :
    fieldsS w = some (.madd (SWord.p w) (SWord.d w) (SWord.a w) (SWord.b w) (SWord.f w 0 6)) := by
  delta fieldsS
  rw [hop]
  rfl

/-- The fields of a word of MADD encode to it exactly where `IMM`[32:6] is 0. -/
theorem encodeS_madd_fields_iff {w : BitVec 64} (hop : w.extractLsb' 56 8 = 0x07) :
    encodeS (.madd (SWord.p w) (SWord.d w) (SWord.a w) (SWord.b w) (SWord.f w 0 6)) = some w ↔ w.extractLsb' 6 27 = 0 :=
  calc encodeS (.madd (SWord.p w) (SWord.d w) (SWord.a w) (SWord.b w) (SWord.f w 0 6)) = some w
    _ ↔ encS 0x07 (SWord.p w) (SWord.d w) (SWord.a w) (SWord.b w) (0#27 ++ SWord.f w 0 6) = w := Option.some_inj
    _ ↔ encS 0x07 (SWord.p w) (SWord.d w) (SWord.a w) (SWord.b w) (0#27 ++ SWord.f w 0 6) =
        encS 0x07 (SWord.p w) (SWord.d w) (SWord.a w) (SWord.b w) (SWord.imm w) := by
      rw [← hop, encS_fields]
    _ ↔ w.extractLsb' 6 27 = 0 := (encS_imm_inj ..).trans (regImm_eq_imm_iff w)

theorem decodeSlot_madd {w : BitVec 64} (hop : w.extractLsb' 56 8 = 0x07) (hpath : SWord.p w ≠ 0) :
    decodeSlot (w.setWidth 1024 <<< 192) .s0 =
      if w.extractLsb' 6 27 = 0 then .ok (some (.madd (SWord.p w) (SWord.d w) (SWord.a w) (SWord.b w) (SWord.f w 0 6)))
      else .error .illegalOperands := by
  have hw : w ≠ 0 := by
    rintro rfl
    exact absurd hop (by decide)
  have hwf : (Instr.madd (SWord.p w) (SWord.d w) (SWord.a w) (SWord.b w) (SWord.f w 0 6)).wf = true := bne_iff_ne.2 hpath
  rw [decodeSlot_s0_word, fieldsS_madd hop, accept_candidate hw hwf rfl]
  simp only [encodeS_madd_fields_iff hop]

end Sys2Proof.Laws

namespace Sys2Proof.Machine

/-! ## The effect of MADD -/

theorem exec_madd (p : Path) (d x y z : XReg) (s : State) :
    exec (.madd p d x y z) s = issueSolo (.madd p d x y z) (maddSem p d x y z) s := rfl

/-- MADD pops and pushes no stream and has no later effect. -/
theorem maddSem_effect (p : Path) (d x y z : XReg) (s : State) (b : Nat) :
    (maddSem p d x y z).effect s b = fun t =>
      t.landX b d ((s.ctx b).xw x * (s.ctx b).xw y + (s.ctx b).xw z) ((s.ctx b).xm x || (s.ctx b).xm y || (s.ctx b).xm z) 3 := rfl

/-- The product and sum of words are those of the signed integers they stand for, wrapped to the width. -/
theorem ofInt_mul_add_toInt {n : Nat} (x y z : BitVec n) :
    BitVec.ofInt n (x.toInt * y.toInt + z.toInt) = x * y + z := by
  rw [BitVec.ofInt_add, BitVec.ofInt_mul, BitVec.ofInt_toInt, BitVec.ofInt_toInt, BitVec.ofInt_toInt]

theorem exec_madd_of_runs {s : State} {b : Nat} {p : Path} {d x y z : XReg} (h : s.Runs b (.madd p d x y z)) :
    exec (.madd p d x y z) s = .next (s.after b fun t =>
      t.landX b d ((s.ctx b).xw x * (s.ctx b).xw y + (s.ctx b).xw z) ((s.ctx b).xm x || (s.ctx b).xm y || (s.ctx b).xm z) 3) := by
  have hx : s.Executes b (.madd p d x y z) (maddSem p d x y z) := h
  rw [exec_madd, issueSolo_executes hx (by simp), maddSem_effect]

theorem mem_maddSem_reads (p : Path) (d x y z : XReg) (s : State) (b : Nat) :
    .x z.toNat ∈ (maddSem p d x y z).reads s b := by
  simp [maddSem]

/-- Settles O17: the words' product and sum wrap as the integers' do; a word of MADD is its fields written out, so the decoder's
comparison with the encoding turns on `IMM`[32:6]; and xc is among the registers read. -/
theorem maddMultipliesAndAdds : Obligations.MaddMultipliesAndAdds := by
  unfold Obligations.MaddMultipliesAndAdds
  refine ⟨fun s b p d x y z h => ?_, fun w hop hpath => Laws.decodeSlot_madd hop hpath,
    fun s b p d x y z => mem_maddSem_reads p d x y z s b⟩
  dsimp only
  rw [exec_madd_of_runs h, ofInt_mul_add_toInt]

end Sys2Proof.Machine
end
